-- ==== Sys2Proof/Word.lean ====
section
/-! DEFINITION. The words, unit numbers and small operand types the commands and the state are made of. -/

namespace Sys2Proof

/-- A byte. -/
abbrev Byte := BitVec 8
/-- A 32-bit word. -/
abbrev W32 := BitVec 32
/-- A 64-bit register word. -/
abbrev W64 := BitVec 64
/-- A tile id y × 64 + x (R6, chapter 00). -/
abbrev TileId := Fin 3072
/-- A quay Q0–Q23. -/
abbrev QuayId := Fin 24
/-- A fabric port, or the confluence engine beside it: F0–F11. -/
abbrev PortId := Fin 12
/-- A landing core 0–15 (R338). -/
abbrev CoreId := Fin 16
/-- A partition 0–3 (R449). -/
abbrev PartId := Fin 4
/-- A slip 0–31 (R219). -/
abbrev SlipId := Fin 32

/-- The predicate field of a slot: PRED and PNEG (R80). -/
structure Pred where
  reg : BitVec 3
  neg : Bool
deriving DecidableEq, Repr

/-- What an error-correcting code reports of a read (R242, R248, R332): the word in error, counted from the first one
read, and its bit, or for an error that it cannot correct a number that names the pattern of bits. -/
inductive Ecc where
  | ok
  | corrected (word bit : Nat)
  | uncorrectable (word pattern : Nat)
deriving DecidableEq, Repr

/-- The two lanes of the matrix unit (R178). -/
inductive Lane where
  | load
  | stream
deriving DecidableEq, Repr

/-- A tile, and what its code reports of the words that the command makes it read. -/
structure TileRead where
  tile : TileId
  ecc  : Ecc
deriving DecidableEq, Repr

/-- A quay, and what its code reports of the block that the command makes it read. -/
structure QuayRead where
  quay : QuayId
  ecc  : Ecc
deriving DecidableEq, Repr

/-- A lane of the matrix unit, and what the code reports of the words it reads. -/
structure LaneRead where
  lane : Lane
  ecc  : Ecc
deriving DecidableEq, Repr

/-- A stream of a landing core, and what the code reports of the line it is filled with. -/
structure LineRead where
  slot : BitVec 3
  ecc  : Ecc
deriving DecidableEq, Repr

/-- What the codes report of a flit: on the link it came over (R248), and of the memory it is read from (R243, R333). -/
structure FlitRead where
  link : Ecc
  mem  : Ecc
deriving DecidableEq, Repr

/-- A mask that the machine computes itself, so that the command brings nothing (R54). -/
abbrev Computed := Unit

/-- The two lanes of a manifest engine (R279). -/
inductive MfLane where
  | sampler
  | manifest
deriving DecidableEq, Repr

/-- Who makes an access from outside a tile (R235, R339): a privileged access of a landing core outside its fault
handler, one inside it (R350), a task-mode access, the debug access path, the host server through BAR0 (R486). -/
inductive Accessor where
  | super (core : CoreId)
  | handler (core : CoreId)
  | task (core : CoreId) (task : BitVec 6)
  | debug
  | host
deriving DecidableEq, Repr

/-- What a landing core does at an address (R347): read, write, instruction fetch. -/
inductive AccKind where
  | read
  | write
  | fetch
deriving DecidableEq, Repr

/-- The two command ports (R492): the control port and the management port. -/
inductive CmdPort where
  | control
  | management
deriving DecidableEq, Repr

/-- A request that travels on the quay ring (R314, R454). -/
structure RingReq where
  addr  : BitVec 48
  write : Bool
  data  : List Byte
  src   : BitVec 8
  kind  : BitVec 3
deriving DecidableEq, Repr

/-- What the boot ROM's checks of steps 1 to 3 find in the physical parts: the self-test and entropy, the device
record's signature, the regenerated identity, the mask revision (R519). -/
structure BootCheck where
  recordOk   : Bool
  identityOk : Bool
  steppingOk : Bool
deriving DecidableEq, Repr

end Sys2Proof
end

