-- ==== Sys2Proof/Syntax.lean ====
section
/-! DEFINITION. The commands of the block: one constructor per row of spec/opcode_table.json.
The operands are what the row's rule names: the unit it acts on, the fields of an instruction slot, the
value an outside party supplies. A time-driven row carries only the unit it happens at. -/

namespace Sys2Proof

/-- A command of the Bruotte D1, one constructor per row of the opcode table. -/
inductive Instr where
  /-- PIN_EN_MATE, R25. PIN_EN mates on insertion, so the hot-swap switch closes and soft-start into the bulk capacitance begins. -/
  | pinEnMate
  /-- PIN_EN_BREAK, R25. PIN_EN breaks on extraction, so the hot-swap switch opens within 50 µs and all module state is lost. -/
  | pinEnBreak
  /-- INPUT_UNDERVOLTAGE, R22. The input falls through 36.0 V, so the switch opens and everything loses power. -/
  | inputUndervoltage
  /-- INPUT_UVLO_RELEASE, R22. The input rises through 38.5 V, so the hot-swap switch closes. -/
  | inputUvloRelease
  /-- INPUT_OVERVOLTAGE, R22. The input rises above 62 V, so the switch opens within 10 µs. -/
  | inputOvervoltage
  /-- OVERVOLTAGE_RECOVERY, R22. One second after the input returns below 60 V, the switch closes again. -/
  | overvoltageRecovery
  /-- MOD_RESET_ASSERT, R29. MOD_RESET_N goes low, which starts the 100 µs glitch filter. -/
  | modResetAssert
  /-- MOD_RESET_FILTER_EXPIRE, R29. MOD_RESET_N has stayed low for 100 µs: the whole module resets, transmitters squelch, rails fall in reverse and a running power-up aborts. -/
  | modResetFilterExpire
  /-- POWER_UP_START, R27. MOD_RESET_N has been high for 100 µs with the switch closed, so the power-up sequence starts and the pilot leaves power-on reset. -/
  | powerUpStart
  /-- RAIL_RAMP_DONE, R27. An enabled rail reaches 95 % of nominal, so the next rail is enabled; after the last rail PWR_GOOD rises. -/
  | railRampDone
  /-- RAIL_RAMP_TIMEOUT, R28. A rail has not reached 95 % within 3 ms, so rails 1 to 5 are disabled, the fault is logged and ALERT_N is raised. -/
  | railRampTimeout
  /-- RAIL_FAULT, R28. An enabled rail leaves ±5 % of nominal, so rails 1 to 5 are disabled in reverse order, PWR_GOOD falls and the fault is logged. -/
  | railFault (rail : Fin 6)
  /-- THERMAL_TRIP, R32. A die sensor exceeds 115 °C, so the comparator disables rails 1 to 5 within 1 ms and latches THERM_TRIP_N low. -/
  | thermalTrip
  /-- CABLE_INSERT, R37. A cable enters a cage; the pilot reads its power class and holds it in low-power mode if it declares more than 1.5 W. -/
  | cableInsert (port : PortId) (mw : Nat)
  /-- CABLE_REMOVE, R38. A cable is removed from a cage, so its port goes DOWN. -/
  | cableRemove (port : PortId)
  /-- BARRIER_ARRIVAL, R269. An arrival reaches the sync hub and counts toward an allocated barrier; if it is the last, the barrier completes. -/
  | barrierArrival (cls : BitVec 4) (unit : BitVec 12) (b : BitVec 8)
  /-- CROSSING_START, R270. At the first checkpoint after its barrier completes and once its routers are free, a crossing starts on all its routers in one cycle, and the waiting tiles credit their barrier wait. -/
  | crossingStart (part : PartId) (c : BitVec 8)
  /-- TILE_RELEASE, R50. A tile reaches its stamped release cycle, leaves the crossing and begins its next compute phase. -/
  | tileRelease (t : TileId)
  /-- TIMETABLE_ENTRY_ADVANCE, R260. A timetable entry's DUR + 1 cycles end, so the router moves to the next entry, or ends the crossing after the entry with LAST set. -/
  | timetableEntryAdvance (t : TileId)
  /-- SENDING_READ, R260. I tc before a scheduled take from L, the local port reads a flit from the source slip, or in RAW order, and serves manifest rows. -/
  | sendingRead (t : TileId) (cycle : BitVec 18) (ecc : Ecc)
  /-- FLIT_TAKE, R251. A router takes a flit from an input onto its outputs as the timetable entry names, checking its ECC; a take onto L that has no good flit is a miss. -/
  | flitTake (t : TileId) (port : BitVec 4) (ecc : FlitRead)
  /-- FLIT_EJECT_LAND, R251. A flit taken onto L lands in scratchpad in cycle c + E − 1 and advances its slip's head, or is refused under the slip rules. -/
  | flitEjectLand (t : TileRead)
  /-- CHECKPOINT_SAMPLE, R53. 16 tc before a checkpoint, the hold logic samples its four causes and broadcasts a hold if any cause is asserted. -/
  | checkpointSample (qmask rmask fmask : Computed)
  /-- HOLD_BEGIN, R53. At the checkpoint, a sampled hold freezes every router and every tile in crossing. -/
  | holdBegin
  /-- HOLD_POLL, R56. While a hold is in force, each tc is attributed to a cause and the causes are polled for release. -/
  | holdPoll (qmask rmask fmask : Computed)
  /-- GRID_RESUME, R56. 16 tc after the release, every router and tile in crossing resumes exactly where it stopped. -/
  | gridResume
  /-- SLACK_OVERLONG, R63. A slack exceeds XT_SLACK_LIMIT tc, so SLACK_OVERLONG is raised to the fault path. -/
  | slackOverlong
  /-- WORD_ISSUE, R83. The tile core issues one native long word whole, with its header's PAUSE, EOP and BRK acted on and its pre-issue checks made. -/
  | wordIssue (t : TileId) (ecc : Ecc)
  /-- RESULT_RETIRE, R84. An issued result is written at its latency and its register's pending flag clears. -/
  | resultRetire (t : TileId)
  /-- WATCHDOG_EXPIRE, R100. T_WDOG_COUNT reaches a non-zero limit, so the tile halts with WATCHDOG. -/
  | watchdogExpire (t : TileId)
  /-- T_CTRL_GO, R93. A GO write restarts a stopped, done or halted tile at T_ENTRY after the stamp check. -/
  | tCtrlGo (t : TileId)
  /-- T_CTRL_RESUME, R101. A RESUME write continues a BREAKPOINT halt at T_HALT.ADDR with its loop state kept. -/
  | tCtrlResume (t : TileId)
  /-- T_CTRL_STOP, R93. A STOP write halts the tile with BREAKPOINT at the next word boundary, abandoning any wait. -/
  | tCtrlStop (t : TileId)
  /-- ALU_ADD, R111. gD := gA + gB, modulo 2^32. -/
  | aluAdd (t : TileId) (p : Pred) (d a b : BitVec 5)
  /-- ALU_SUB, R111. gD := gA − gB, modulo 2^32. -/
  | aluSub (t : TileId) (p : Pred) (d a b : BitVec 5)
  /-- ALU_AND, R111. gD := gA and gB. -/
  | aluAnd (t : TileId) (p : Pred) (d a b : BitVec 5)
  /-- ALU_OR, R111. gD := gA or gB. -/
  | aluOr (t : TileId) (p : Pred) (d a b : BitVec 5)
  /-- ALU_XOR, R111. gD := gA xor gB. -/
  | aluXor (t : TileId) (p : Pred) (d a b : BitVec 5)
  /-- ALU_SHL, R111. gD := gA shifted left by gB[4:0]. -/
  | aluShl (t : TileId) (p : Pred) (d a b : BitVec 5)
  /-- ALU_SHR, R111. gD := gA shifted right logically by gB[4:0]. -/
  | aluShr (t : TileId) (p : Pred) (d a b : BitVec 5)
  /-- ALU_SRA, R111. gD := gA shifted right arithmetically by gB[4:0]. -/
  | aluSra (t : TileId) (p : Pred) (d a b : BitVec 5)
  /-- ALU_MUL, R111. gD := the low 32 bits of gA × gB. -/
  | aluMul (t : TileId) (p : Pred) (d a b : BitVec 5)
  /-- ALU_MIN, R111. gD := the signed minimum of gA and gB. -/
  | aluMin (t : TileId) (p : Pred) (d a b : BitVec 5)
  /-- ALU_MAX, R111. gD := the signed maximum of gA and gB. -/
  | aluMax (t : TileId) (p : Pred) (d a b : BitVec 5)
  /-- ALU_MINU, R111. gD := the unsigned minimum of gA and gB. -/
  | aluMinu (t : TileId) (p : Pred) (d a b : BitVec 5)
  /-- ALU_MAXU, R111. gD := the unsigned maximum of gA and gB. -/
  | aluMaxu (t : TileId) (p : Pred) (d a b : BitVec 5)
  /-- ADDI, R111. gD := gA + sext(IMM11). -/
  | addi (t : TileId) (p : Pred) (d a : BitVec 5) (imm : BitVec 11)
  /-- ANDI, R111. gD := gA and sext(IMM11). -/
  | andi (t : TileId) (p : Pred) (d a : BitVec 5) (imm : BitVec 11)
  /-- ORI, R111. gD := gA or zext(IMM11). -/
  | ori (t : TileId) (p : Pred) (d a : BitVec 5) (imm : BitVec 11)
  /-- XORI, R111. gD := gA xor sext(IMM11). -/
  | xori (t : TileId) (p : Pred) (d a : BitVec 5) (imm : BitVec 11)
  /-- SHI_SHL, R111. gD := gA shifted left by IMM11[4:0]. -/
  | shiShl (t : TileId) (p : Pred) (d a sh : BitVec 5)
  /-- SHI_SHR, R111. gD := gA shifted right logically by IMM11[4:0]. -/
  | shiShr (t : TileId) (p : Pred) (d a sh : BitVec 5)
  /-- SHI_SRA, R111. gD := gA shifted right arithmetically by IMM11[4:0]. -/
  | shiSra (t : TileId) (p : Pred) (d a sh : BitVec 5)
  /-- CATI, R111. gD := (gA shl 11) or zext(IMM11). -/
  | cati (t : TileId) (p : Pred) (d a : BitVec 5) (imm : BitVec 11)
  /-- CMP_EQ, R111. pD := (gA = gB). -/
  | cmpEq (t : TileId) (p : Pred) (d : BitVec 3) (a b : BitVec 5)
  /-- CMP_NE, R111. pD := (gA ≠ gB). -/
  | cmpNe (t : TileId) (p : Pred) (d : BitVec 3) (a b : BitVec 5)
  /-- CMP_LT, R111. pD := (gA < gB), signed. -/
  | cmpLt (t : TileId) (p : Pred) (d : BitVec 3) (a b : BitVec 5)
  /-- CMP_LTU, R111. pD := (gA < gB), unsigned. -/
  | cmpLtu (t : TileId) (p : Pred) (d : BitVec 3) (a b : BitVec 5)
  /-- CMP_GE, R111. pD := (gA ≥ gB), signed. -/
  | cmpGe (t : TileId) (p : Pred) (d : BitVec 3) (a b : BitVec 5)
  /-- CMP_GEU, R111. pD := (gA ≥ gB), unsigned. -/
  | cmpGeu (t : TileId) (p : Pred) (d : BitVec 3) (a b : BitVec 5)
  /-- CMPEQI, R111. pD := (gA = sext(IMM11)). -/
  | cmpeqi (t : TileId) (p : Pred) (d : BitVec 3) (a : BitVec 5) (imm : BitVec 11)
  /-- CMPLTI, R111. pD := (gA < sext(IMM11)), signed. -/
  | cmplti (t : TileId) (p : Pred) (d : BitVec 3) (a : BitVec 5) (imm : BitVec 11)
  /-- CMPLTUI, R111. pD := (gA < sext(IMM11)), unsigned. -/
  | cmpltui (t : TileId) (p : Pred) (d : BitVec 3) (a : BitVec 5) (imm : BitVec 11)
  /-- PLOG_AND, R111. pD := pA and pB. -/
  | plogAnd (t : TileId) (p : Pred) (d a b : BitVec 3)
  /-- PLOG_OR, R111. pD := pA or pB. -/
  | plogOr (t : TileId) (p : Pred) (d a b : BitVec 3)
  /-- PLOG_XOR, R111. pD := pA xor pB. -/
  | plogXor (t : TileId) (p : Pred) (d a b : BitVec 3)
  /-- PLOG_ANDN, R111. pD := pA and not pB. -/
  | plogAndn (t : TileId) (p : Pred) (d a b : BitVec 3)
  /-- LD, R111. gD := the 4 B at gA + sext(IMM11) × 4, subject to the address cases. -/
  | ld (t : TileId) (p : Pred) (d a : BitVec 5) (imm : BitVec 11)
  /-- ST, R111. Stores gD into 4 B at gA + sext(IMM11) × 4, subject to the address and code-write cases. -/
  | st (t : TileId) (p : Pred) (d a : BitVec 5) (imm : BitVec 11)
  /-- LDH, R111. gD := the zero-extended 2 B at gA + sext(IMM11) × 2. -/
  | ldh (t : TileId) (p : Pred) (d a : BitVec 5) (imm : BitVec 11)
  /-- STH, R111. Stores gD[15:0] into 2 B at gA + sext(IMM11) × 2. -/
  | sth (t : TileId) (p : Pred) (d a : BitVec 5) (imm : BitVec 11)
  /-- BR, R87. Branches to the word's address + 2 × OFF, adding the taken-branch bubble. -/
  | br (t : TileId) (p : Pred) (off : BitVec 21)
  /-- BRR, R87. Branches to the address in gA[18:0], halting at fetch if it is misaligned or out of range. -/
  | brr (t : TileId) (p : Pred) (a : BitVec 5)
  /-- LOOP, R89. Arms hardware loop level 0 or 1 with count gA, or skips the body on a zero count. -/
  | loopArm (t : TileId) (p : Pred) (level : BitVec 1) (a : BitVec 5) (len : BitVec 15)
  /-- END, R87. Ends the tile's program: loop state is cleared, units drain and STATE becomes DONE. -/
  | endTile (t : TileId) (p : Pred)
  /-- RDSPEC, R76. Copies the tile id, STEPID or half of T_CYCLE into gD. -/
  | rdspec (t : TileId) (p : Pred) (d sel : BitVec 5)
  /-- VBF_ADD, R112. Adds 32 BF16 lanes, nearest-even. -/
  | vbfAdd (t : TileId) (p : Pred) (d a b : BitVec 4)
  /-- VBF_SUB, R112. Subtracts 32 BF16 lanes. -/
  | vbfSub (t : TileId) (p : Pred) (d a b : BitVec 4)
  /-- VBF_MUL, R112. Multiplies 32 BF16 lanes. -/
  | vbfMul (t : TileId) (p : Pred) (d a b : BitVec 4)
  /-- VBF_FMA, R112. Computes vD := vA × vB + vC on 32 BF16 lanes, fused. -/
  | vbfFma (t : TileId) (p : Pred) (d a b c : BitVec 4)
  /-- VBF_MAX, R112. Takes the lane-wise BF16 maximum. -/
  | vbfMax (t : TileId) (p : Pred) (d a b : BitVec 4)
  /-- VBF_MIN, R112. Takes the lane-wise BF16 minimum. -/
  | vbfMin (t : TileId) (p : Pred) (d a b : BitVec 4)
  /-- VF32_ADD, R112. Adds FP32 lanes of single registers or of pairs. -/
  | vf32Add (t : TileId) (p : Pred) (wide : Bool) (d a b : BitVec 4)
  /-- VF32_SUB, R112. Subtracts FP32 lanes. -/
  | vf32Sub (t : TileId) (p : Pred) (wide : Bool) (d a b : BitVec 4)
  /-- VF32_MUL, R112. Multiplies FP32 lanes. -/
  | vf32Mul (t : TileId) (p : Pred) (wide : Bool) (d a b : BitVec 4)
  /-- VF32_FMA, R112. Performs a fused FP32 multiply-add. -/
  | vf32Fma (t : TileId) (p : Pred) (wide : Bool) (d a b c : BitVec 4)
  /-- VF32_MAX, R112. Takes the lane-wise FP32 maximum. -/
  | vf32Max (t : TileId) (p : Pred) (wide : Bool) (d a b : BitVec 4)
  /-- VF32_MIN, R112. Takes the lane-wise FP32 minimum. -/
  | vf32Min (t : TileId) (p : Pred) (wide : Bool) (d a b : BitVec 4)
  /-- VCVT_F32_BF16_NEAREST, R112. Converts an FP32 pair to BF16 with nearest-even rounding. -/
  | vcvtF32Bf16Nearest (t : TileId) (p : Pred) (d a : BitVec 4)
  /-- VCVT_F32_BF16_STOCHASTIC, R142. Converts an FP32 pair to BF16 with stochastic rounding, drawing 16 bits per lane from port V. -/
  | vcvtF32Bf16Stochastic (t : TileId) (p : Pred) (d a : BitVec 4)
  /-- VCVT_BF16_F32, R112. Converts BF16 lanes exactly to an FP32 pair. -/
  | vcvtBf16F32 (t : TileId) (p : Pred) (d a : BitVec 4)
  /-- VFUN_EXP2, R140. Computes 2^x on 16 FP32 lanes. -/
  | vfunExp2 (t : TileId) (p : Pred) (d a : BitVec 4)
  /-- VFUN_RCP, R140. Computes 1/x on 16 FP32 lanes. -/
  | vfunRcp (t : TileId) (p : Pred) (d a : BitVec 4)
  /-- VFUN_RSQRT, R140. Computes 1/√x on 16 FP32 lanes. -/
  | vfunRsqrt (t : TileId) (p : Pred) (d a : BitVec 4)
  /-- VRED_SUM, R112. Sums 16 FP32 lanes by a fixed pairwise tree into gD. -/
  | vredSum (t : TileId) (p : Pred) (d a : BitVec 4)
  /-- VRED_MAX, R112. Takes the maximum of 16 FP32 lanes into gD. -/
  | vredMax (t : TileId) (p : Pred) (d a : BitVec 4)
  /-- VRED_MIN, R112. Takes the minimum of 16 FP32 lanes into gD. -/
  | vredMin (t : TileId) (p : Pred) (d a : BitVec 4)
  /-- VRED_ANY, R112. pD := 1 when any lane is non-zero. -/
  | vredAny (t : TileId) (p : Pred) (d : BitVec 3) (a : BitVec 4)
  /-- VRED_ALL, R112. pD := 1 when every lane is non-zero. -/
  | vredAll (t : TileId) (p : Pred) (d : BitVec 3) (a : BitVec 4)
  /-- VLD, R112. vD := the 64 B at gA + offset × 64. -/
  | vld (t : TileId) (p : Pred) (d a : BitVec 4) (off : BitVec 13)
  /-- VST, R112. Stores vD into the 64 B at gA + offset × 64. -/
  | vst (t : TileId) (p : Pred) (d a : BitVec 4) (off : BitVec 13)
  /-- VBCAST, R112. Replicates gA into the 16 lanes of vD. -/
  | vbcast (t : TileId) (p : Pred) (d a : BitVec 4)
  /-- VMOV, R112. vD := vA, with no classification. -/
  | vmov (t : TileId) (p : Pred) (d a : BitVec 4)
  /-- VRAND, R148. vD := 512 random bits from port V. -/
  | vrand (t : TileId) (p : Pred) (d : BitVec 4)
  /-- VQ8_NEAREST, R143. Converts an FP32 pair into one 8-bit block under scale E, nearest-even with saturation. -/
  | vq8Nearest (t : TileId) (p : Pred) (d a b : BitVec 4) (h : BitVec 1)
  /-- VQ8_STOCHASTIC, R142. Converts an FP32 pair into one 8-bit block with stochastic rounding. -/
  | vq8Stochastic (t : TileId) (p : Pred) (d a b : BitVec 4) (h : BitVec 1)
  /-- VDQ8, R144. Converts an 8-bit block exactly to an FP32 pair. -/
  | vdq8 (t : TileId) (p : Pred) (d a b : BitVec 4) (h : BitVec 1)
  /-- PACK24_STRICT, R194. Packs one column 2:4, halting with SPARSE_DENSITY when a group has more than two non-zeros. -/
  | pack24Strict (t : TileId) (p : Pred) (d a b c : BitVec 4)
  /-- PACK24_PRUNE, R195. Packs one column 2:4, keeping the two largest values of each group and counting the values pruned. -/
  | pack24Prune (t : TileId) (p : Pred) (d a b c : BitVec 4)
  /-- SVHIST_COARSE, R383. Queues a sieve histogram of the shard by coarse bin. -/
  | svhistCoarse (t : TileId) (p : Pred) (a : BitVec 4)
  /-- SVHIST_FINE, R383. Queues a sieve histogram by fine bin within the coarse cut's bin. -/
  | svhistFine (t : TileId) (p : Pred) (a : BitVec 4)
  /-- SVCUT_COARSE, R384. Queues the merge of the group's histograms and the finding of the coarse cut. -/
  | svcutCoarse (t : TileId) (p : Pred) (a : BitVec 4)
  /-- SVCUT_FINE, R384. Queues the merge of the fine histograms and the finding of the fine cut. -/
  | svcutFine (t : TileId) (p : Pred) (a : BitVec 4)
  /-- SVCUT_GATHER, R386. Queues the writing of the shard's candidate list of kept entries. -/
  | svcutGather (t : TileId) (p : Pred) (a : BitVec 4)
  /-- SVDRAW, R387. Queues a draw of one token from the candidate lists, taking 32 bits from port V at issue unless greedy. -/
  | svdraw (t : TileId) (p : Pred) (a : BitVec 4)
  /-- SIEVE_INSTR_START, R388. The sieve starts its next queued instruction once its inputs are written. -/
  | sieveInstrStart (t : TileId) (ecc : Ecc)
  /-- SIEVE_INSTR_FINISH, R389. A sieve instruction completes after its duration, writing its record, list or result. -/
  | sieveInstrFinish (t : TileId)
  /-- COMMIT_REFUSED_HALT, R390. The roster's refusal of a commit returns, so the tile halts with OPERAND_CASE 0x0113. -/
  | commitRefusedHalt (t : TileId)
  /-- MZERO, R170. Queues the clearing of accumulator rows, counts and, with PAIR, compensated pairs. -/
  | mzero (t : TileId) (p : Pred) (acc nrows : BitVec 6) (pair : Bool)
  /-- MLDW, R159. Queues the load of a BF16 stationary block into W0 or W1. -/
  | mldw (t : TileId) (p : Pred) (a : BitVec 5) (wbuf : BitVec 1)
  /-- MLDW8, R159. Queues the load of an 8-bit block-scaled stationary block with its scales. -/
  | mldw8 (t : TileId) (p : Pred) (a : BitVec 5) (wbuf : BitVec 1)
  /-- MLDW24, R159. Queues the load of a 2:4 stationary block with its metadata. -/
  | mldw24 (t : TileId) (p : Pred) (a : BitVec 5) (wbuf fmt : BitVec 1)
  /-- MRUN, R162. Queues the streaming of activation rows through a buffer into accumulator rows, taking a heavy-unit token at issue. -/
  | mrun (t : TileId) (p : Pred) (a : BitVec 5) (acc nrows : BitVec 6) (wbuf : BitVec 1)
  /-- MBLK, R201. Queues the streaming of one block-sparse segment's present row-blocks. -/
  | mblk (t : TileId) (p : Pred) (a : BitVec 5) (acc : BitVec 6) (nrb half wbuf : BitVec 1)
  /-- MSPILL, R172. Queues the setting of the spill interval and the pair base. -/
  | mspill (t : TileId) (p : Pred) (a : BitVec 5) (interval : BitVec 7)
  /-- MEPI, R174. Queues the configuration of the fused epilogue. -/
  | mepi (t : TileId) (p : Pred) (a : BitVec 5) (op : BitVec 2) (efmt : BitVec 1) (rnd : BitVec 2)
  /-- MOUT, R175. Queues the output of accumulator rows through the epilogue and rounding. -/
  | mout (t : TileId) (p : Pred) (a : BitVec 5) (acc nrows : BitVec 6) (fold keep : Bool)
  /-- MRDA, R171. Queues the copy of one accumulator row into an FP32 pair. -/
  | mrda (t : TileId) (p : Pred) (d : BitVec 4) (acc : BitVec 6)
  /-- MLOOK, R206. Queues the setting of skip and audit bits from a lookahead prediction against a threshold. -/
  | mlook (t : TileId) (p : Pred) (a : BitVec 5) (pacc nrows : BitVec 6) (wbuf : BitVec 1)
  /-- TOKEN_GRANT, R184. A tile waiting for a heavy-unit token is granted one, in ascending tile id. -/
  | tokenGrant (dom : Fin 12)
  /-- MATRIX_INSTR_START, R178. A queued matrix instruction starts once its lane and ordering conditions hold, and executes over its duration. -/
  | matrixInstrStart (t : TileId) (lane : Lane) (ecc : Ecc)
  /-- MATRIX_INSTR_FINISH, R179. A matrix instruction completes after its duration. -/
  | matrixInstrFinish (t : TileId) (lane : LaneRead)
  /-- XWAIT, R114. Waits until a slip holds gA bytes between tail and head. -/
  | xwait (t : TileId) (p : Pred) (a slip : BitVec 5)
  /-- XTAKE, R224. Advances a slip's tail by gA bytes, returning space. -/
  | xtake (t : TileId) (p : Pred) (a slip : BitVec 5)
  /-- XPUT, R223. Advances the head of a class-0 slip by gA bytes. -/
  | xput (t : TileId) (p : Pred) (a slip : BitVec 5)
  /-- QPOST_TIMED, R319. Posts a TIMED quay stream descriptor to its template's quay. -/
  | qpostTimed (t : TileId) (p : Pred) (a : BitVec 5)
  /-- QPOST_PUSH, R326. Posts a PUSH descriptor to the tile's home quay. -/
  | qpostPush (t : TileId) (p : Pred) (a : BitVec 5)
  /-- SOADD, R273. Sends an add of gA to a synchronisation object. -/
  | soadd (t : TileId) (p : Pred) (a : BitVec 5) (obj : BitVec 13)
  /-- SOWAIT, R273. Waits until a synchronisation object's count reaches its target. -/
  | sowait (t : TileId) (p : Pred) (a : BitVec 5) (obj : BitVec 13)
  /-- SOSET, R273. The owner resets an object's count to 0 with target gA. -/
  | soset (t : TileId) (p : Pred) (a : BitVec 5) (obj : BitVec 13)
  /-- MFPOST, R294. Posts a manifest-build descriptor to the manifest lane. -/
  | mfpost (t : TileId) (p : Pred) (a : BitVec 5)
  /-- MFSAMP, R285. Posts a neighbourhood-sampling descriptor to the sampler lane. -/
  | mfsamp (t : TileId) (p : Pred) (a : BitVec 5)
  /-- MFREV, R302. Posts a gradient-return descriptor to the manifest lane. -/
  | mfrev (t : TileId) (p : Pred) (a : BitVec 5)
  /-- SO_HUB_APPLY, R274. Object operations that reached the hub in one cycle are applied in order: sets, adds, wait evaluation, then reclaim marks. -/
  | soHubApply
  /-- SO_OP_ADD, R277. A landing SO_OP write with OP 1 adds VALUE to an object, stalling the core until the hub answers. -/
  | soOpAdd (core : CoreId) (obj : BitVec 13) (value : BitVec 32)
  /-- SO_OP_SET, R277. A landing SO_OP write with OP 2 resets an object with a new target, for the owner or a privileged access. -/
  | soOpSet (core : CoreId) (obj : BitVec 13) (value : BitVec 32)
  /-- SO_OP_ANSWER, R277. The hub's answer to an SO_OP reaches the core and completes the write, or faults it with SO_REFUSED. -/
  | soOpAnswer (core : CoreId)
  /-- XT_BAR_ARRIVE, R271. A landing core's write arrives it at a barrier, or is refused with WINDOW_BOUND. -/
  | xtBarArrive (core : CoreId) (b : BitVec 8)
  /-- CREDIT_REQUEST, R229. A credit request reaches a tile and is refused at once or queued on its slip. -/
  | creditRequest (t : TileId) (slip : SlipId) (bytes : BitVec 20) (cls : BitVec 3) (unit : BitVec 5)
  /-- CREDIT_GRANT, R230. A queued request at the front of its slip is granted into the lowest free record once FREE and a record allow. -/
  | creditGrant (t : TileId)
  /-- CREDITED_WRITE, R231. A credited write lands at its credit offset, closing the credit when LAST, or is refused. -/
  | creditedWrite (t : TileId) (rec : BitVec 4) (cls : BitVec 3) (unit : BitVec 5) (off : BitVec 20) (data : List (BitVec 8)) (last : Bool)
  /-- CREDIT_APPEND, R232. HEAD advances over a closed credit, all earlier credits being passed, and its record frees. -/
  | creditAppend (t : TileId) (slip : SlipId)
  /-- TASK_WINDOW_ACCESS, R236. A landing task or debug-path access reaches a tile and is checked against the task windows, then served or refused. -/
  | taskWindowAccess (t : TileId) (who : Accessor) (off : BitVec 20) (size : Nat) (wr : Option (List (BitVec 8))) (ecc : Ecc)
  /-- SLIP_REGISTER_WRITE, R221. A slip register write is accepted only when the tile is stopped or halted, resetting HEAD and TAIL when geometry or class change. -/
  | slipRegisterWrite (t : TileId) (slip : SlipId) (reg : BitVec 3) (value : BitVec 64)
  /-- DBG_GO, R238. A GO write to DBG_CTL starts one 8 B debug access at DBG_ADDR. -/
  | dbgGo
  /-- DEBUG_ACCESS_COMPLETE, R238. The debug access completes, setting DONE, RESULT and, for a read, DBG_DATA. -/
  | debugAccessComplete (ecc : Ecc)
  /-- ECC_WRITEBACK, R242. A queued rank-7 write-back of a corrected scratchpad word is served, unless the word was written first. -/
  | eccWriteback (t : TileRead)
  /-- PATROL_SCRUB_READ, R244. 256 tc after the previous one, a bank's patrol scrub reads its next 32 B word. -/
  | patrolScrubRead (t : TileId) (bank : BitVec 4) (ecc : Ecc)
  /-- MF_DESCRIPTOR_START, R279. A manifest-engine lane starts its next posted descriptor and checks it before any data moves. -/
  | mfDescriptorStart (t : TileId) (lane : MfLane) (ecc : Ecc)
  /-- MF_SEED_COMPLETE, R288. The sampler finishes a seed's records, and HEAD advances over them. -/
  | mfSeedComplete (t : TileRead)
  /-- MF_SAMPLING_READ_RETURN, R290. A GDDR7 sampling or offset read returns to the sampler. -/
  | mfSamplingReadReturn (t : TileId) (ecc : Ecc)
  /-- MF_RUN_SLOTTING, R295. At each run the engine fills staging, slots pending requests, sends QUAY lists and arrives at the run's barrier. -/
  | mfRunSlotting (t : TileRead)
  /-- MF_RUN_END, R298. A run ends at the engine, which checks its carry against the bound and reports carry to the hub. -/
  | mfRunEnd (t : TileId)
  /-- CARRY_REPORT, R297. An engine's carry report reaches the hub 24 tc after its run ends. -/
  | carryReport (t : TileId)
  /-- CARRY_RUN_START, R297. When any engine reported carry, the hub runs the forward crossing again as a carry run, and otherwise ends the use. -/
  | carryRunStart (part : PartId) (c : BitVec 8)
  /-- MF_DESCRIPTOR_COMPLETE, R280. A descriptor completes, STATUS is written and DONEOBJ is added to if enabled. -/
  | mfDescriptorComplete (t : TileId) (lane : MfLane)
  /-- QUAY_DESCRIPTOR_ACCEPT, R319. A quay accepts a TIMED descriptor and checks it, failing the posting tile on a case. -/
  | quayDescriptorAccept (q : QuayId)
  /-- QUAY_BARRIER_ARRIVE, R320. A quay in QMASK arrives at a crossing's barrier once it holds its descriptors and slot lists. -/
  | quayBarrierArrive (q : QuayId) (part : PartId) (c : BitVec 8)
  /-- ENGINE_BARRIER_ARRIVE, R397. A confluence engine arrives at a crossing's barrier once its grid-in space and take data are in hand. -/
  | engineBarrierArrive (k : PortId) (part : PartId) (c : BitVec 8)
  /-- QUAY_FETCH_START, R321. A use's fetch starts at the latest of acceptance, the running timetable's staging and region space. -/
  | quayFetchStart (q : QuayId) (tpl : BitVec 8)
  /-- GDDR7_ACCESS_COMPLETE, R328. The device completes a scheduled 64 B request, with ECC checked and staged data made ready. -/
  | gddr7AccessComplete (q : QuayId) (ecc : Ecc)
  /-- REFRESH_INTERVAL_DUE, R324. Every 1,140 tc (570 when hot), DEBT rises and at 8 a forced all-bank refresh runs. -/
  | refreshIntervalDue (q : QuayId)
  /-- REFRESH_WINDOW_OPEN, R325. A timetable's refresh window opens at a quay, which pays one all-bank refresh while in debt. -/
  | refreshWindowOpen (q : QuayId)
  /-- QUAY_PUSH_START, R326. The home quay starts a push and requests its first credit. -/
  | quayPushStart (q : QuayRead)
  /-- PUSH_CHUNK_DONE, R326. A push chunk or segment is written and closed, and the next credit is requested or the push completes. -/
  | pushChunkDone (q : QuayId) (eccs : List Ecc)
  /-- WAB_RESERVATION_GRANT, R329. A writer's waiting reservation in the write-absorption buffer is granted once space is free. -/
  | wabReservationGrant (q : QuayId)
  /-- WAB_WRITE_ACCEPT, R330. A reserved write, add or read is accepted into the quay's order for its block. -/
  | wabWriteAccept (q : QuayId)
  /-- WAB_RETIRE, R329. An absorbed write retires into the device, merging partial writes. -/
  | wabRetire (q : QuayRead)
  /-- QUAY_GRADIENT_ADD, R331. An inbound gradient flit is added lane by lane into its GDDR7 block in arrival order. -/
  | quayGradientAdd (q : QuayId) (ecc : Ecc)
  /-- EDC_RETRY, R334. A burst fails its CRC and is retried, up to three times. -/
  | edcRetry (q : QuayId) (write : Bool)
  /-- DEVICE_TEMP_READ, R308. Every 100 µs the quay reads its device temperature, which sets the refresh rate. -/
  | deviceTempRead (q : QuayId) (temp : BitVec 8)
  /-- QUAY_LINK_TRAIN, R309. At power-up each quay trains its link and zeroes its device. -/
  | quayLinkTrain (q : QuayId) (ok : Bool)
  /-- QR_PIN_WRITE, R313. A write to a pin register is accepted or, if setting EN would overlap another pin, refused with REFUSED set. -/
  | qrPinWrite (who : Accessor) (pin : PartId) (second : Bool) (value : BitVec 64)
  /-- RING_REQUEST_ARRIVE, R314. A request from the ring reaches its quay and joins the device scheduler. -/
  | ringRequestArrive (q : QuayId) (req : RingReq)
  /-- SPOKE_READ_COMPLETE, R394. A confluence spoke read returns its data or an error response. -/
  | spokeReadComplete (k : PortId) (ecc : Ecc)
  /-- LANDING_ACCESS, R347. A landing core access is translated through its task windows and made, or faults. -/
  | landingAccess (who : Accessor) (addr : BitVec 48) (size : Nat) (acc : AccKind) (data : List (BitVec 8)) (ecc : Ecc)
  /-- LANDING_MEM_READ_COMPLETE, R346. A landing demand read of GDDR7 or a tile window completes, ending the core's stall. -/
  | landingMemReadComplete (core : CoreId) (ecc : Ecc)
  /-- LANDING_FENCE, R342. FENCE stalls the core until every earlier store is accepted by its target. -/
  | landingFence (core : CoreId)
  /-- L_SOWAIT_WRITE, R351. A core writes an object number to L_SOWAIT, sending a wait request to the hub. -/
  | lSowaitWrite (core : CoreId) (obj : BitVec 13)
  /-- L_SOWAIT_RESULT_READ, R351. Reading L_SOWAIT_RESULT stalls the core until the wait is met, broken or timed out. -/
  | lSowaitResultRead (core : CoreId)
  /-- LANDING_SOWAIT_ANSWER, R351. The hub's answer to a landing wait arrives and ends the stalled read. -/
  | landingSowaitAnswer (core : CoreId)
  /-- L_SOWAIT_LIMIT_EXPIRE, R351. L_SOWAIT_LIMIT lc pass, so the read returns 3. -/
  | lSowaitLimitExpire (core : CoreId)
  /-- L_CRED_REQ_WRITE, R352. A core requests a class-4 credit in a tile's slip, or faults if it already holds one. -/
  | lCredReqWrite (core : CoreId) (tile : BitVec 12) (slip : SlipId) (bytes : BitVec 20)
  /-- L_CRED_RESULT_READ, R352. Reading L_CRED_RESULT stalls until the tile grants or refuses the request. -/
  | lCredResultRead (core : CoreId)
  /-- CREDIT_APERTURE_STORE, R352. A store into the credit aperture writes credit bytes and, at the last byte, closes the credit. -/
  | creditApertureStore (core : CoreId) (j : BitVec 19) (data : List (BitVec 8))
  /-- STREAM_DECLARE, R353. A GO write to a stream slot checks and starts a declared read or write stream. -/
  | streamDeclare (core : CoreId) (slot : BitVec 3)
  /-- STREAM_CANCEL, R353. CANCEL ends a stream, discarding unread lines and writing back written ones. -/
  | streamCancel (core : CoreId) (slot : BitVec 3)
  /-- STREAM_LINE_FILL, R353. A prefetched read-stream line arrives over its spoke. -/
  | streamLineFill (core : CoreId) (slot : LineRead)
  /-- EPOCH_FLIP, R357. A privileged L_EPOCH write advances epoch and live set, or faults with EPOCH_SEQ. -/
  | epochFlip (core : CoreId) (value : BitVec 64)
  /-- CACHE_OP_WRITEBACK, R362. L_CACHE_OP GO with OP 1 writes back a range of landing-cache lines. -/
  | cacheOpWriteback (core : CoreId) (base : BitVec 42) (lines : BitVec 34)
  /-- CACHE_OP_INVALIDATE, R362. L_CACHE_OP GO with OP 2 invalidates a range, discarding dirty and locked lines. -/
  | cacheOpInvalidate (core : CoreId) (base : BitVec 42) (lines : BitVec 34)
  /-- CACHE_OP_WRITEBACK_INVALIDATE, R362. L_CACHE_OP GO with OP 3 writes back and invalidates a range. -/
  | cacheOpWritebackInvalidate (core : CoreId) (base : BitVec 42) (lines : BitVec 34)
  /-- CACHE_OP_DONE, R362. A cache operation finishes and DONE reads 1. -/
  | cacheOpDone
  /-- L_CFG_LSRAM_WRITE, R341. Changing LSRAM writes back and invalidates the whole cache, accepted only while no task runs. -/
  | lCfgLsramWrite (core : CoreId) (lsram : BitVec 5)
  /-- L_RNG_DATA_READ, R149. A read returns 64 fresh random bits of the core's generator. -/
  | lRngDataRead (core : CoreId)
  /-- TASK_PREEMPT, R355. A task stalled in a wait for over 20 µs loses its core to the next ready task. -/
  | taskPreempt (core : CoreId)
  /-- ADMIT_PREFILL, R366. Roster command 1 admits a DONE entry as PREFILL after field checks. -/
  | admitPrefill (slot : BitVec 14)
  /-- ADMIT_DECODE, R366. Roster command 2 admits a DONE entry as DECODE after field checks. -/
  | admitDecode (slot : BitVec 14)
  /-- ROS_CANCEL, R366. Roster command 3 stops an entry now or marks CANCEL pending its outstanding commit. -/
  | rosCancel (slot : BitVec 14)
  /-- HARVEST, R366. Roster command 4 returns a STOPPING entry to DONE. -/
  | harvest (slot : BitVec 14)
  /-- ROSTER_ENTRY_WRITE, R367. A privileged write to a roster entry is accepted only while it is DONE or EN = 0. -/
  | rosterEntryWrite (core : CoreId) (entry : BitVec 14) (word : BitVec 4) (value : BitVec 32)
  /-- ROS_BUILD, R369. BUILD starts the build of the next list when no build is in progress. -/
  | rosBuild
  /-- ROS_FINALIZE, R369. FINALIZE publishes the list being built without waiting for outstanding commits. -/
  | rosFinalize
  /-- PHASE1_BEGIN, R370. Phase 1 snapshots the table and places, buckets and allocates pages for every eligible entry. -/
  | phase1Begin
  /-- PHASE1_COMPLETE, R369. Phase 1 ends, reading L_EPOCH for the list and reserving log space. -/
  | phase1Complete
  /-- LOG_SPACE_AVAILABLE, R380. Phase 1 waiting for log space resumes once ROS_LOG_TAIL has advanced far enough. -/
  | logSpaceAvailable
  /-- LIST_PUBLISH, R374. Once writes retire, the list's voids are set, PUBLISHED and ROS_LISTNO written and ROS_DONE_OBJ added to. -/
  | listPublish
  /-- COMMIT_RECEIVE, R378. A commit reaches the roster and is refused or queued. -/
  | commitReceive (t : TileId)
  /-- COMMIT_APPLY, R379. The roster applies a queued commit to its entry, writes the log record and patches the list being built. -/
  | commitApply
  /-- ROS_POOL_PUSH, R368. A write returns a page to the pool, or is discarded with REJECT. -/
  | rosPoolPush (page : BitVec 32)
  /-- ROS_POOL_POP, R368. A privileged read takes one page from the pool. -/
  | rosPoolPop
  /-- CF_POST, R400. A write to CF_POST queues a collective descriptor, or is discarded when eight are queued. -/
  | cfPost (k : PortId) (addr : BitVec 48)
  /-- REDUCE_SCATTER, R409. The engine starts a reduce-scatter descriptor: check, agreement, ring reduction and verdict. -/
  | reduceScatter (k : PortId)
  /-- ALL_GATHER, R414. The engine starts an all-gather descriptor moving bytes round the ring. -/
  | allGather (k : PortId)
  /-- ALL_REDUCE, R415. The engine starts an all-reduce: a reduce-scatter followed by a gather of wire blocks. -/
  | allReduce (k : PortId)
  /-- PERMUTE, R416. The engine starts a permute exchange under its map, checking coverage of DST. -/
  | permute (k : PortId)
  /-- ALL_TO_ALL, R417. The engine starts an all-to-all exchange under its map. -/
  | allToAll (k : PortId)
  /-- SEGMENT_RECEIVE, R404. An engine places a received segment: scales, blocks, data, verdict record or channel data. -/
  | segmentReceive (k : PortId) (seg : List (BitVec 8))
  /-- PHASE_DEADLINE_EXPIRE, R418. A data phase's deadline passes, so missing data records LATE and the engine proceeds to the verdict. -/
  | phaseDeadlineExpire (k : PortId)
  /-- VERDICT_DEADLINE_EXPIRE, R420. A rank lacking a round's record at VDEADLINE ends with VERDICT_LATE. -/
  | verdictDeadlineExpire (k : PortId)
  /-- CF_ABORT, R424. CF_ABORT ends the running collective as ABORTED and discards the queue. -/
  | cfAbort (k : PortId)
  /-- CF_CHAN_WRITE, R396. A write to a channel register configures or enables a grid channel, clearing ERR on EN. -/
  | cfChanWrite (k : PortId) (chan : BitVec 4) (second : Bool) (value : BitVec 64)
  /-- LINK_TRAIN_ATTEMPT, R431. Every 10 ms a DOWN port with a cable starts training. -/
  | linkTrainAttempt (port : PortId)
  /-- LINK_TRAINED, R431. Training and FEC lock complete, so the port enters HELLO. -/
  | linkTrained (port : PortId)
  /-- HELLO_SEND_TIMER, R431. Every 100 ms in HELLO or REFUSED, the port sends a HELLO. -/
  | helloSendTimer (port : PortId)
  /-- HELLO_RECEIVE, R431. A peer's HELLO is checked by the guard and takes the port to UP or REFUSED. -/
  | helloReceive (port : PortId) (sysid : BitVec 64) (endpoint : BitVec 12) (peerPort : BitVec 4) (buf0 buf1 : BitVec 16)
  /-- CHCREDIT_RECEIVE, R438. A CHCREDIT message grants a TO_FABRIC channel more bytes. -/
  | chcreditReceive (port : PortId) (chan : BitVec 4) (count : BitVec 32)
  /-- FETCH_DATA_RECEIVE, R536. A FETCH_DATA message delivers object bytes into the object area. -/
  | fetchDataReceive (port : PortId) (reqid : BitVec 32) (off : BitVec 64) (data : List (BitVec 8))
  /-- FETCH_END_RECEIVE, R536. A FETCH_END message ends a fetch request, and a complete fetch passes to the load. -/
  | fetchEndReceive (port : PortId) (reqid : BitVec 32) (status : BitVec 8) (total : BitVec 64)
  /-- FETCH_REQUEST_TIMEOUT, R536. A fetch request with no message for 1 s is resent on another port or fails. -/
  | fetchRequestTimeout (reqid : BitVec 32)
  /-- FRAME_RECEIVE, R434. A frame arrives and is accepted if its CRC and SEQ match, or discarded with a NAK. -/
  | frameReceive (port : PortId) (frame : List (BitVec 8))
  /-- ACK_RECEIVE, R436. An acknowledge word advances ACKSEQ and link credits, or triggers a resend on NAK. -/
  | ackReceive (port : PortId) (word : List (BitVec 8))
  /-- FRAME_SEND, R437. A frame is transmitted once it holds credits and replay space. -/
  | frameSend (port : PortId)
  /-- REPLAY_TIMEOUT, R434. The oldest unacknowledged frame has waited 4 µs, so all unacknowledged frames are resent. -/
  | replayTimeout (port : PortId)
  /-- ACK_DELAY_TIMEOUT, R436. 256 fc after an unacknowledged accepted frame, an acknowledge word is sent. -/
  | ackDelayTimeout (port : PortId)
  /-- ACK_KEEPALIVE, R436. At least every 4,096 fc while UP, an acknowledge word is sent. -/
  | ackKeepalive (port : PortId)
  /-- FEC_LOCK_LOSS, R433. Loss of FEC block lock takes the port DOWN. -/
  | fecLockLoss (port : PortId)
  /-- FEC_ERROR_LIMIT, R433. More than 16 uncorrectable codewords in 1 ms take the port DOWN. -/
  | fecErrorLimit (port : PortId)
  /-- PEER_SIGNAL_LOSS, R433. Loss of signal from the peer takes the port DOWN. -/
  | peerSignalLoss (port : PortId)
  /-- FL_CTL_DOWN, R433. A write of FL_CTL.DOWN takes the port DOWN. -/
  | flCtlDown (port : PortId)
  /-- REGULATOR_ADMIT, R455. A packet waiting at a partition's token bucket is admitted once LEVEL covers it. -/
  | regulatorAdmit (part : PartId) (fab : Bool) (bytes : Nat)
  /-- ENERGY_WINDOW_END, R465. At each 1 ms window end the metered energy is apportioned among clients and the accounts are copied. -/
  | energyWindowEnd
  /-- SWITCH_BOUNDARY_WAIT_EXPIRE, R504. WAIT expires before every named partition reaches a boundary, so the switch ends NO_BOUNDARY. -/
  | switchBoundaryWaitExpire
  /-- SWITCH_DRAIN_COMPLETE, R461. All placed tiles are drained and state records copied, so the save crossing runs. -/
  | switchDrainComplete
  /-- SWITCH_DRAIN_TIMEOUT, R463. The drain exceeds 60 µs, so the switch ends DRAIN_TIMEOUT and the tiles resume. -/
  | switchDrainTimeout
  /-- SWITCH_SAVE_COMPLETE, R461. The save crossing ends, so setup runs and the restore crossing starts. -/
  | switchSaveComplete
  /-- SWITCH_RESTORE_COMPLETE, R461. The restore ends, state records are loaded and the switch result is set. -/
  | switchRestoreComplete
  /-- CLAMP_SAMPLE, R474. Every 2.5 µs the clamp updates the 1 ms energy and requests or withdraws forced slack. -/
  | clampSample (deciwatts centivolts : BitVec 16)
  /-- THERMAL_SENSOR_READ, R476. Every 10 µs the pilot reads the die sensors and starts or ends grant sequences and the throttle. -/
  | thermalSensorRead (die : BitVec 8)
  /-- THERMAL_GRANT_STEP, R476. 10 ms after the previous step, an unbroken sequence lowers or raises the thermal grant by 25 W. -/
  | thermalGrantStep (mem : Bool)
  /-- ROAST_SELECTION, R473. When a partition reaches a boundary, the scheduler computes the target roast set against the grant. -/
  | roastSelection (part : PartId) (boundary : Nat)
  /-- IDLE_ENTRY, R479. After 10 µs with nothing running or in flight, the grid clock stops at the next checkpoint. -/
  | idleEntry
  /-- GRID_SEEDING_COMPLETE, R150. Seeding completes, so the grid clock runs and counters reset. -/
  | gridSeedingComplete
  /-- CP_DOORBELL, R489. A doorbell copies the request and accepts the command, or is rejected while BUSY. -/
  | cpDoorbell (port : CmdPort) (req : List (BitVec 8))
  /-- COMMAND_COMPLETE, R489. A command's response is written, and one update clears BUSY and sets DONE. -/
  | commandComplete (port : CmdPort)
  /-- RELAY_TIMEOUT, R495. A relayed command has run 1 s beyond its bound, so it ends ABANDONED and the module is FAULTED. -/
  | relayTimeout (port : CmdPort)
  /-- FUNCTION_RESET, R485. A hot reset, link-down, FLR or D3hot exit resets configuration space, events and MSI-X. -/
  | functionReset (kind : BitVec 2)
  /-- STATUS_WINDOW_REFRESH, R508. Every 10 µs the pilot copies the status window and increments CP_WIN_SEQ. -/
  | statusWindowRefresh
  /-- GET_STATE, R498. The command returns the module state, model, partitions, grant and STEPID. -/
  | getState (port : CmdPort)
  /-- LOAD_PROGRAM, R499. The command fetches an object from an ingest node and loads it for a client in a partition. -/
  | loadProgram (part client : BitVec 8) (ingest : BitVec 16) (length : BitVec 32) (digest name : BitVec 256)
  /-- UNLOAD_PROGRAM, R499. LOAD_PROGRAM with UNLOAD removes a client's image from a partition. -/
  | unloadProgram (part client : BitVec 8)
  /-- START_GRID, R500. The command resumes a partition at its boundary or starts its image from T_ENTRY. -/
  | startGrid (part : BitVec 8)
  /-- STOP_GRID, R501. The command stops the named partitions' tiles, abandons or drops their crossings and clears RUN. -/
  | stopGrid (pmask : BitVec 8)
  /-- HALT_TILE, R502. The command stops one running tile and returns its halt record. -/
  | haltTile (tile : BitVec 16)
  /-- FENCE, R503. The command fences a tile, landing core or quay. -/
  | fenceCmd (kind : BitVec 8) (unit : BitVec 16)
  /-- UNFENCE, R503. The command unfences a tile or landing core. -/
  | unfence (kind : BitVec 8) (unit : BitVec 16)
  /-- CONTEXT_SWITCH, R504. The command switches partitions, or the whole device, to incoming clients at a boundary. -/
  | contextSwitch (pmask flags : BitVec 8) (clients : BitVec 16) (wait : BitVec 32) (model : BitVec 64)
  /-- SET_PARTITIONS, R451. The command replaces the partition table and writes routers, memory and caps. -/
  | setPartitions (partA partB : List (BitVec 64))
  /-- READ_ACCOUNTS, R506. The command returns the pilot's copy of the named clients' accounts. -/
  | readAccounts (port : CmdPort) (cmask : BitVec 16)
  /-- DRAIN, R505. The command publishes the roster list, stops partitions at boundaries and waits for the engines. -/
  | drainCmd (limit : BitVec 32)
  /-- DRAIN_LIMIT_EXPIRE, R505. LIMIT expires, so remaining drain work is ended by force. -/
  | drainLimitExpire
  /-- REPORT_FAULTS, R507. The command returns fault-log records from sequence number FROM. -/
  | reportFaults (port : CmdPort) (start : BitVec 64) (max : BitVec 32)
  /-- POWER_SET_LIMIT, R528. POWER_SET with SETLIMIT sets the clamp limit within 550–700 W. -/
  | powerSetLimit (limit : BitVec 16)
  /-- POWER_SET_GRANT, R528. POWER_SET with SETGRANT sets the grant. -/
  | powerSetGrant (grant : BitVec 16)
  /-- POWER_OFF, R528. POWER_SET with OFF takes the module to power state OFF. -/
  | powerOff
  /-- POWER_ON, R528. POWER_SET with ON powers the module up from OFF. -/
  | powerOn
  /-- RESET_MODULE, R529. The command resets the module as MOD_RESET_N does, keeping the fault log and EID. -/
  | resetModule (port : CmdPort)
  /-- STAGE_IMAGE, R530. The command writes image bytes into a flash slot and, at LAST, verifies it. -/
  | stageImage (slot flags : BitVec 8) (off : BitVec 32) (data : List (BitVec 8))
  /-- ACTIVATE_IMAGE, R531. The command verifies a slot, makes it TRIAL and the next boot, and restarts the module. -/
  | activateImage (slot : BitVec 8)
  /-- DROWSE, R480. The command takes the module from IDLE into DROWSE. -/
  | drowse
  /-- WAKE, R534. The command leaves DROWSE, checking the retained supervisor's hash. -/
  | wake
  /-- BOOT_ROM_START, R519. The boot ROM self-tests, verifies the device record, regenerates identity and chooses the slot. -/
  | bootRomStart (ok : BootCheck)
  /-- ENTROPY_HEALTH_FAIL, R151. The entropy source fails its health test, so no generator is seeded. -/
  | entropyHealthFail
  /-- IMAGE_STREAM_COMPLETE, R519. The image has been streamed and hashed, so it is verified, the guard locked and core 0 released. -/
  | imageStreamComplete
  /-- SUPERVISOR_READY, R519. The supervisor reports readiness, trial commits are made and the module becomes READY. -/
  | supervisorReady
  /-- SUPERVISOR_READY_TIMEOUT, R523. No readiness within the bound of step 8, so the boot fails with SUPERVISOR. -/
  | supervisorReadyTimeout
  /-- SET_ENDPOINT_ID, R525. The MCTP control command sets the pilot's endpoint ID. -/
  | setEndpointId (eid : BitVec 8)
  /-- GET_ENDPOINT_ID, R525. The MCTP control command returns the endpoint ID. -/
  | getEndpointId
  /-- GET_MCTP_VERSION_SUPPORT, R525. The MCTP control command returns the supported versions. -/
  | getMctpVersionSupport
  /-- GET_MESSAGE_TYPE_SUPPORT, R525. The MCTP control command returns the supported message types. -/
  | getMessageTypeSupport
  /-- GET_VERSION, R532. The SPDM request returns the supported versions. -/
  | getVersion (doe : Bool) (req : List (BitVec 8))
  /-- GET_CAPABILITIES, R532. The SPDM request returns the capabilities. -/
  | getCapabilities (doe : Bool) (req : List (BitVec 8))
  /-- NEGOTIATE_ALGORITHMS, R532. The SPDM request negotiates P-256 and SHA-256. -/
  | negotiateAlgorithms (doe : Bool) (req : List (BitVec 8))
  /-- GET_DIGESTS, R532. The SPDM request returns certificate chain digests. -/
  | getDigests (doe : Bool) (req : List (BitVec 8))
  /-- GET_CERTIFICATE, R533. The SPDM request returns the slot 0 certificate chain. -/
  | getCertificate (doe : Bool) (req : List (BitVec 8))
  /-- CHALLENGE, R532. The SPDM request returns a signed challenge response. -/
  | challenge (doe : Bool) (req : List (BitVec 8))
  /-- GET_MEASUREMENTS, R533. The SPDM request returns the signed measurements. -/
  | getMeasurements (doe : Bool) (req : List (BitVec 8))
  /-- FT_FENCE_REQUEST, R543. A write of FT_FENCE_REQ with OP 1 queues a fence. -/
  | ftFenceRequest (kind : BitVec 2) (unit : BitVec 12)
  /-- FT_UNFENCE_REQUEST, R543. A write of FT_FENCE_REQ with OP 2 queues an unfence. -/
  | ftUnfenceRequest (kind : BitVec 2) (unit : BitVec 12)
  /-- FENCE_EXECUTE, R544. The fence block carries out a queued fence: the unit stops, accesses are refused and the reclaim walk begins. -/
  | fenceExecute
  /-- RECLAIM_WALK_END, R545. The reclaim walk has released credits and marked objects broken, so FENCE completes. -/
  | reclaimWalkEnd
  /-- UNFENCE_EXECUTE, R547. An unfence restores the unit, zeroing scratchpad and resetting its registers. -/
  | unfenceExecute
  /-- FT_EVQ_B_READ, R541. A read returns the head event's DATA and removes the entry. -/
  | ftEvqBRead
  /-- CORR_WINDOW_END, R540. Each 1 s window, units reaching FT_CORR_LIMIT corrected errors raise DEGRADED. -/
  | corrWindowEnd
  /-- LEASE_ACQUIRE, R548. An acquire write takes a free lease for the writing core. -/
  | leaseAcquire (core : CoreId) (lease : Fin 32) (term : BitVec 20)
  /-- LEASE_RENEW, R548. The holder renews REMAIN to TERM. -/
  | leaseRenew (core : CoreId) (lease : Fin 32) (term : BitVec 20)
  /-- LEASE_RELEASE, R548. The holder releases the lease. -/
  | leaseRelease (core : CoreId) (lease : Fin 32)
  /-- LEASE_EXPIRE, R549. REMAIN reaches 0, so the lease is revoked and logged. -/
  | leaseExpire (lease : Fin 32)
  /-- FT_SOFT_CODE, R551. A write logs a SOFTWARE record with FT_SOFT_DATA. -/
  | ftSoftCode (code : BitVec 15)
  /-- XT_SLACK_LONGEST_READ, R64. A read returns the longest slack and clears it. -/
  | xtSlackLongestRead
  /-- T_ECC_LAST_READ, R245. A read returns the last scratchpad ECC error and clears VALID. -/
  | tEccLastRead (t : TileId)
  /-- MF_CARRY_MAX_READ, R307. A read returns the largest carry and clears it. -/
  | mfCarryMaxRead (t : TileId)
  /-- Q_WAB_MAX_READ, R337. A read returns the largest buffer fill and clears it. -/
  | qWabMaxRead (q : QuayId)
  /-- Q_ECC_LAST_READ, R337. A read returns the last quay ECC error and clears VALID. -/
  | qEccLastRead (q : QuayId)
  /-- L_FAULT_READ, R361. A read returns the landing fault record and clears VALID. -/
  | lFaultRead (core : CoreId)
  /-- L_ECC_LAST_READ, R362. A read returns the last landing ECC error and clears VALID. -/
  | lEccLastRead
  /-- REGISTER_WRITE, R9. A write to a register with no row of its own updates its RW or W1C fields, or is refused under its chapter. -/
  | registerWrite (who : Accessor) (addr : BitVec 56) (value : BitVec 256)
  /-- MOD_RESET_RELEASE, R29. MOD_RESET_N goes high, which cancels a running 100 µs assertion filter, so a shorter pulse is ignored, and starts the 100 µs high interval that the power-up sequence awaits. -/
  | modResetRelease
  /-- CONTROL_PORT_LINK_TRAINED, R19. The PCI Express control link finishes training at some width and rate, and CP_LINK records WIDTH, RATE and FLIT. -/
  | controlPortLinkTrained (width : BitVec 4) (rate : BitVec 4) (flit : Bool)
  /-- CONFIGURATION_REQUEST, R484. A PCI Express configuration write from the host server takes the function into D3hot, where BAR0 is no longer decoded, or sets Bus Master Enable or MSI-X enable, which releases held messages. -/
  | configurationRequest (d3hot bme msixEn : Option Bool)
  /-- SETDASA, R525. The I3C bus owner assigns the pilot its dynamic address through static address 0x64, and the pilot then answers on that address. -/
  | setdasa (dyn : BitVec 7)
deriving DecidableEq, Repr

end Sys2Proof
end

