-- ==== Sys2Proof/WellFormed.lean ====
section
/-! DEFINITION. Which commands are well formed: those whose free-sized operands (sizes, byte lists, table rows) can
occur at all on the wire, pin or bus that carries the command. Meanings are total and do not rely on it. -/

namespace Sys2Proof

/-- The sizes an access can have on the landing cluster's interconnect and the tile windows (R236, R348). -/
def accessSize (n : Nat) : Bool := [1, 2, 4, 8, 16, 32, 64].contains n

/-- Whether an accessor is a landing core, the only one that makes a landing access (R347). -/
def Accessor.isCore : Accessor → Bool
  | .super _ => true
  | .handler _ => true
  | .task _ _ => true
  | .debug => false
  | .host => false

/-- A frame or acknowledge word fills whole 64-byte link words (R429). -/
def linkWords (l : List Byte) : Bool := l.length != 0 && l.length % 64 == 0

/-- The check of one command. -/
def Instr.wf : Instr → Bool
  | .creditedWrite _ _ _ _ _ data _ => data.length == 32 || data.length == 64
  | .taskWindowAccess _ _ _ size wr _ =>
    accessSize size && (match wr with
      | none => true
      | some d => d.length == size)
  | .landingAccess who _ size acc data _ =>
    who.isCore && accessSize size && (acc != .write || data.length == size)
  | .creditApertureStore _ _ data => accessSize data.length
  | .ringRequestArrive _ req => !req.write || (data64 req.data)
  | .frameReceive _ frame => linkWords frame
  | .ackReceive _ word => word.length == 64
  | .segmentReceive _ seg => decide (1 ≤ seg.length) && decide (seg.length ≤ 2032)
  | .fetchDataReceive _ _ _ data => decide (1 ≤ data.length)
  | .cpDoorbell _ req => decide (req.length ≤ 8192)
  | .setPartitions a b => a.length == 4 && b.length == 4
  | .stageImage _ _ _ data => decide (1 ≤ data.length) && decide (data.length ≤ 4096)
  | .regulatorAdmit _ _ bytes => decide (1 ≤ bytes)
  | .cableInsert _ mw => decide (mw ≤ 65535)
  | .controlPortLinkTrained width rate _ =>
    (width == 1 || width == 2 || width == 4) && decide (1 ≤ rate.toNat) && decide (rate.toNat ≤ 6)
  | _ => true
where
  /-- Write data of at most one 64-byte block (R314). -/
  data64 (d : List Byte) : Bool := decide (1 ≤ d.length) && decide (d.length ≤ 64)

end Sys2Proof
end

