-- ==== Sys2Proof/Decode.lean ====
section
/-! DEFINITION. The reading of a table word as a command. No row of spec/opcode_table.json gives its command bits: a
command is an event, a register access or an operand of the native words, whose own decoder is in Machine/Operands.lean
(decodeSlot). So no word spells a command. -/

namespace Sys2Proof

/-- The command a word of the table's bits spells: none, since the table gives no row bits. -/
def decodeTableWord (_nbits _w : Nat) : Option Instr := none

end Sys2Proof
end

