-- ==== Sys2Proof/Config.lean ====
section
/-! DEFINITION. What a module fixes and no rule gives a value of: the stepping, and the FREE VALUES. A free value is
an opaque constant: no proof can see what it is, so a claim that names one holds for every value of it. -/

namespace Sys2Proof

/-- The stepping, as STEPID reports it (R1). -/
inductive Stepping where
  | A1
  | B0
deriving DecidableEq, Repr

/-- STEPID of a stepping (R1). -/
def Stepping.id : Stepping → Nat
  | .A1 => 0x00A1
  | .B0 => 0x00B0

/-- FREE VALUE. The 512 random bits that a tile generator's port gives in the tc of a draw, or a landing core's or
engine's generator in its cycle (R148, R149, R155): a fresh value for each value of State.free. -/
opaque Config.rng : Nat → BitVec 2048

/-- FREE VALUE. A field of a sieve result that no rule states for these operands (R384, R387), by its number and what the
instruction reads: of Z and M of a greedy draw, and of a cut over records without an entry. As all arithmetic that draws
nothing, it is the same on every run (R156). -/
opaque Config.sieveOpen (field : Nat) (operands : List Nat) : BitVec 32

/-- FREE VALUE. Whether an ECDSA P-256 signature verifies (R512, R515, R517): the keys are not in the spec. -/
opaque Config.ecdsaOk (key digest sig : Nat) : Bool

/-- FREE VALUE. Whether an ECDSA P-256 signature by a key of the boot ROM, which the spec does not give, verifies
(R512, R515): 0 the manufacturing key, 1 the firmware key. -/
opaque Config.romKeyOk (which digest sig : Nat) : Bool

/-- FREE VALUE. The ECDSA P-256 signature the pilot makes over a digest with its identity key (R518, R533). -/
opaque Config.identitySign : Nat → Nat → BitVec 512

/-- FREE VALUE. The HMAC of a control-block copy under the PUF-derived key (R514). -/
opaque Config.controlMac : Nat → BitVec 256

/-- What a compiled timetable assigns to one transfer through a router's local or edge port. kind 0: a template or grid
channel named by peer; 1 a manifest request, 2 a response, 3 a gradient, with the pair's other party as peer, a slot of
the pair and a flit of the row. -/
structure XferSlot where
  kind : Nat
  peer : Nat
  slot : Nat
  part : Nat
deriving DecidableEq, Repr, Inhabited

/-- What the units hold of the crossings of an image besides the registers of the map, by physical crossing number.
slots: the transfer of each use of a router's port, in order, keyed by (tile × 256 + crossing) × 32 + port (port 9:
sending reads of a manifest crossing; 10: takes onto L of one; 1–4: takes from an edge port; 17–20: takes onto one).
tpls: quay, template and crossing (R317, R320). chans: engine, channel, crossing, bytes delivered into the channel and
taken from it (R397). dsts: tile, manifest and its quays in destination order (R291). masks: crossing, QMASK and FMASK
(R253). -/
structure Plan where
  slots : List (Nat × List XferSlot)
  tpls  : List (Nat × Nat × Nat)
  chans : List (Nat × Nat × Nat × Nat × Nat)
  dsts  : List (Nat × Nat × List Nat)
  masks : List (Nat × Nat × Nat)
deriving DecidableEq, Repr, Inhabited

/-- What a translator chooses as it lays out the crossings of a program, and the rules only bound. nums: the physical
number of each virtual crossing (roast, 4 for a manifest's, which every roast shares; virtual; physical). bars: a
crossing's barrier. firsts: tile, crossing and the index of its first timetable entry. entries: tile, index and word of
the timetable memory (R259). regions: quay, template, base and size less one of its staging region (R317). windows:
quay, crossing, FIRST and PERIOD of its refresh windows (R325). slots: as Plan has them. -/
structure Layout where
  nums    : List (Nat × Nat × Nat) := []
  bars    : List (Nat × Nat) := []
  firsts  : List (Nat × Nat × Nat) := []
  entries : List (Nat × Nat × Nat) := []
  regions : List (Nat × Nat × Nat × Nat) := []
  windows : List (Nat × Nat × Nat × Nat) := []
  slots   : List (Nat × List XferSlot) := []
deriving DecidableEq, Repr, Inhabited

/-- What a translation writes outside the tiles' own images: eight-byte register writes by device address (timetables,
directories, barriers, templates, windows, manifest tables), XT_CUR of each tile for each roast (roast, tile,
CROSSING + 256 × VALID), and the plan of its crossings. -/
structure Tables where
  writes : List (Nat × Nat)
  curs   : List (Nat × Nat × Nat)
  plan   : Plan
deriving DecidableEq, Repr, Inhabited

/-- FREE VALUE. How the translator lays a program's crossings out (R126, R129, R292, R317): a deterministic function of
the object, STEPID, the partition, the fenced-tile map and the images resident in the partition. The rules do not
compute it; the model takes it only where it obeys them. Where none can be built, the roast at which that showed
(R132). Keyed by those inputs. -/
opaque Config.timetables : List Nat → Except Nat Layout

/-- FREE VALUE. The block of a quay's part of a pin range at which a client's context of the tile at a place of its band
has its block of a number (R460): the offsets are fixed and nowhere given. -/
opaque Config.contextBlock (client place block : Nat) : Nat

/-- FREE VALUE. Base and bytes of the landing supervisor's object area in GDDR7 (R536), which no rule places. -/
opaque Config.objectArea : Nat × Nat

/-- FREE VALUE. The entry of XT_CUR that the landing supervisor writes at a boundary for a roast of an image, which no
register or section names (R471): crossing, and 256 where valid. -/
opaque Config.boundaryCur (digest roast boundary tile : Nat) : Nat

/-- FREE VALUE. Where the values of a SYNDROME field begin on a stepping, and the value that a pattern of several bits in
error takes (R553): for the scratchpad code (false) and the quay code. -/
opaque Config.synBase (quay : Bool) : Stepping → Nat
opaque Config.synPair (quay : Bool) : Stepping → Nat → Nat

/-- FREE VALUE. The size in bytes of a certificate chain and its bytes (R533): manufactured data. -/
opaque Config.certChain : Nat → Byte
opaque Config.certLen : Nat

/-- FREE VALUE. SHA-256 of the boot ROM, measurement 1 (R533). -/
opaque Config.romDigest : BitVec 256

/-- FREE VALUE. SHA-256 of the device record, measurement 4 (R533), and of this module's identity key (R516). -/
opaque Config.recordDigest : BitVec 256
opaque Config.identityHash : BitVec 256

/-- FREE VALUE. Whether the chassis controller drives the management bus as I3C (R20): the commands of that bus do not
say, but for SETDASA, which only I3C has. -/
opaque Config.i3cBus : Bool

end Sys2Proof
end

