-- ==== Sys2Proof/Machine/State.lean ====
section
/-! DEFINITION. The state of the module, as plain data. Everything that has a device address, a register field by
field or a byte of memory, is held in one of two sparse maps keyed by that address (rf and mem). What the spec gives
a unit beside its addressable registers (queues, operations under way, results still to retire) is held per unit. -/

namespace Sys2Proof.Machine

/-- A sparse map from keys to naturals, keys strictly rising; an unlisted key reads a default. -/
abbrev Cells := List (Nat × Nat)

/-- The register blocks of the device address map (R70, R93, R337, R361, R362, R426, R448, R486). -/
inductive Blk where
  | tile
  | dev
  | core
  | cluster
  | quay
  | eng
  | port
  | bar
deriving DecidableEq, Repr

/-- The access codes of R9. -/
inductive Acc where
  | ro
  | rw
  | wo
  | w1c
  | rc
deriving DecidableEq, Repr

/-- One field of one register: its block, the register's offset for index 0, the stride between indices, how many
indices there are, the field's lowest bit and width, its reset value and its access code. -/
structure Fld where
  blk    : Blk
  off    : Nat
  stride : Nat
  count  : Nat
  lo     : Nat
  width  : Nat
  rst    : Nat
  acc    : Acc
deriving DecidableEq, Repr

/-- One register of the map with all its fields that are not reserved. -/
structure RegRow where
  name   : String
  blk    : Blk
  off    : Nat
  stride : Nat
  count  : Nat
  fields : List Fld
deriving DecidableEq, Repr

/-- Where a result of an issued word is written (R75, R84). -/
inductive Dst where
  | g (n : Nat)
  | v (n : Nat)
  | p (n : Nat)
deriving DecidableEq, Repr

/-- A result still to retire (R83, R84): when it is due, where it goes, its value. -/
structure Result where
  due : Nat
  dst : Dst
  val : Nat
deriving DecidableEq, Repr

/-- What a matrix instruction does (R159–R175, R201, R206), its g operands read at issue beside it. -/
inductive MOp where
  | ldw (fmt : Nat) (wbuf : Nat)
  | run (acc rows wbuf : Nat)
  | blk (acc rbs half wbuf : Nat)
  | zero (acc rows : Nat) (pair : Bool)
  | spill (interval : Nat)
  | epi (op efmt rnd : Nat)
  | out (acc rows : Nat) (fold keep : Bool)
  | rda (d acc : Nat)
  | look (pacc rows wbuf : Nat)
deriving DecidableEq, Repr

/-- A matrix instruction issued: the operation, the word's address, gA to gA+2 read at issue,
its place in the tile's issue order. -/
structure MInstr where
  op   : MOp
  addr : Nat
  r0   : Nat
  r1   : Nat
  r2   : Nat
  seq  : Nat
deriving DecidableEq, Repr

/-- A commit on its way to the roster (R378). -/
structure Commit where
  tile   : Nat
  addr   : Nat
  listno : Nat
  lane   : Nat
  recNo  : Nat
  token  : Nat
  prob   : Nat
deriving DecidableEq, Repr

/-- A sieve instruction issued (R381): 0 SVHIST 0, 1 SVHIST 1, 2 SVCUT 0, 3 SVCUT 1, 4 SVCUT 2, 5 SVDRAW; the word's
address, the parameter register, the 32 bits a draw took at issue (R387), its place in the tile's issue order. -/
structure SvInstr where
  op     : Nat
  addr   : Nat
  par    : Nat
  rand   : Nat
  seq    : Nat
deriving DecidableEq, Repr

/-- A flit present at a router's input or on its way into scratchpad (R248): its tag, whether it is the empty flit of
an empty manifest slot (R300), whether it was withheld, its 64 bytes, and for a flit whose quay marked it
uncorrectable the device address it carries instead (R333). -/
structure Flit where
  part  : Nat
  cross : Nat
  void  : Bool
  held  : Bool
  data  : Nat
  bad   : Option Nat
deriving DecidableEq, Repr

/-- A flit on its way to, or present at, an input of a router (R251): the input's port code, the spine cycle in which it
is present there, whether the router has checked it. -/
structure Arrival where
  port    : Nat
  cycle   : Nat
  checked : Bool
  flit    : Flit
deriving DecidableEq, Repr

/-- A flit taken onto output L and not yet landed (R251): the destination slip, the offset of a RAW write (R259), the
transfer of a manifest crossing, the crossing and cycle of the take, the spine cycle in which it lands. -/
structure Eject where
  flit  : Flit
  slip  : Nat
  raw   : Option Nat
  man   : Option XferSlot
  cross : Nat
  cycle : Nat
  due   : Nat
deriving DecidableEq, Repr

/-- A credit request that waits at a tile (R230). -/
structure CredReq where
  slip  : Nat
  bytes : Nat
  cls   : Nat
  unit  : Nat
deriving DecidableEq, Repr

/-- A descriptor posted to a manifest-engine lane (R279): kind 0 MFSAMP, 1 MFPOST, 2 MFREV; the posting word's
address and the descriptor's scratchpad offset; once started, the 64 bytes read and the output slip's HEAD then. A
sampling descriptor has the next seed, the free value of its draws and the reads returned for it; a manifest
descriptor has the runs it has slotted, the pending requests (ordinal, index), the slotted ones
(ordinal, destination, slot, run), the ordinals whose rows are complete, and whether its engine halted during the
use (R282). -/
structure MfDesc where
  kind    : Nat
  addr    : Nat
  off     : Nat
  body    : List Byte := []
  outBase : Nat := 0
  seed    : Nat := 0
  draw    : Nat := 0
  reads   : Nat := 0
  run     : Nat := 0
  pend    : List (Nat × Nat) := []
  slots   : List (Nat × Nat × Nat × Nat) := []
  done    : List Nat := []
  dead    : Bool := false
deriving DecidableEq, Repr

/-- What a tile holds beside its addressable registers and scratchpad. -/
structure TileX where
  results  : List Result := []
  /-- class of R92 under which the tile's next word waits: 0 none, 1–13 a cause, 14 a barrier wait (R49). -/
  wait     : Nat := 0
  /-- tc of class 6 of R91, counted by no register: what T_CYCLE less every other class leaves. -/
  busyTc   : Nat := 0
  /-- a GO (1) or RESUME (2) held until the release cycle (R98) or the clock start (R479). -/
  held     : Nat := 0
  /-- RESUME re-issues one word with its breakpoint ignored (R101). -/
  skipBp   : Bool := false
  /-- a STOP awaiting the next word boundary (R93). -/
  stopReq  : Bool := false
  mq       : List MInstr := []
  mload    : Option MInstr := none
  mstream  : Option MInstr := none
  mpos     : Nat := 0
  mseg     : List Nat := []
  granted  : Bool := false
  /-- matrix and sieve instructions issued since power-on: the next one's place in the issue order. -/
  issued   : Nat := 0
  sq       : List SvInstr := []
  srun     : Option SvInstr := none
  /-- the object a SOWAIT of the present word was sent for, and the hub's answer (R273): 0 none yet, 1 met, 2 broken,
  else the DETAIL of R276. -/
  soWait   : Option (Nat × Nat) := none
  /-- a QPOST of the present word that its quay has not accepted yet, and whether it has (R319, R326); the reason,
  DETAIL and AUX of the halt that a failed descriptor brings once the word has issued. -/
  qpost    : Option Bool := none
  qfail    : Option (Nat × Nat × Nat) := none
  creds    : List CredReq := []
  /-- open and closed credit records in grant order (R232). -/
  credOrd  : List Nat := []
  /-- 32-byte units already written, as record × 2^16 + unit (R234). -/
  credDone : List Nat := []
  sampQ    : List MfDesc := []
  sampRun  : Option MfDesc := none
  manQ     : List MfDesc := []
  manRun   : Option MfDesc := none
  manHalt  : Bool := false
  /-- the request index of every ordinal of the last MFPOST of a manifest, which its MFREV sends again. -/
  mfIdx    : List (Nat × List Nat) := []
  /-- write-backs queued: the word's offset and its corrected value (R242). -/
  eccWb    : List (Nat × Nat) := []
  scrub    : Cells := []
  /-- the last refusal answered to an accessor that keeps no record in the model: class × 4096 + unit, code (R241). -/
  refusal  : Option (Nat × Nat) := none
  /-- the router: timetable entry it holds, cycle in which that entry began, the spine cycle in which its crossing
  started, flits at its inputs, by input the spine cycle plus one of its last takes, by express output that of the last
  take onto it, flits on the way into scratchpad, steps of the RAW order, bytes sent and the tail at cycle 0 per slip,
  uses of each port since cycle 0, the take that the last sending read served. -/
  rtEntry  : Nat := 0
  rtStart  : Nat := 0
  crossAt  : Nat := 0
  inputs   : List Arrival := []
  took     : Cells := []
  express  : Cells := []
  ejects   : List Eject := []
  rawTx    : Nat := 0
  rawRx    : Nat := 0
  sent     : Cells := []
  tails    : Cells := []
  moved    : Cells := []
  lastRead : Option Nat := none
  atBar    : Bool := false
deriving DecidableEq, Repr

/-- An operation that has reached the sync hub (R273): source class and unit (as OWNER codes them; 7 the roster),
1 add, 2 set, 3 wait, the object, the value, the partition the source belongs to (4 none), whether the source is
privileged (R277), and the address of a tile's word. -/
structure HubOp where
  cls  : Nat
  unit : Nat
  op   : Nat
  obj  : Nat
  val  : Nat
  part : Nat
  priv : Bool
  addr : Nat
  samp : Bool := false
deriving DecidableEq, Repr

/-- An answer on its way to a landing core or tile (R273, R276): destination class and unit, the operation, the
object, the code (1 met, 2 broken, else the DETAIL of R276; 0 accepted), the word's address for a tile. -/
structure HubAns where
  cls  : Nat
  unit : Nat
  op   : Nat
  obj  : Nat
  code : Nat
deriving DecidableEq, Repr

/-- A crossing that is running or whose barrier has completed (R270): partition, crossing, class of the last arrival
(R49), the spine cycle of its start. -/
structure Cross where
  part  : Nat
  num   : Nat
  cls   : Nat
  began : Nat
deriving DecidableEq, Repr

/-- A manifest use (R297): partition, crossing, the requesting tiles, the present run, the arrivals that a carry run's
barrier still expects (0 once the run's crossing has started), the tiles whose engines have arrived at the present
run, those at which it has ended, those whose reports have reached the hub, whether any reported carry. -/
structure CarryUse where
  part     : Nat
  num      : Nat
  engines  : List Nat
  run      : Nat
  expect   : Nat
  arrived  : List Nat
  ended    : List Nat
  reported : List Nat
  any      : Bool
deriving DecidableEq, Repr

/-- The sync hub and the hold logic beyond their registers. -/
structure Hub where
  inbox    : List HubOp := []
  waits    : List HubOp := []
  answers  : List HubAns := []
  marks    : List (Nat × Nat) := []
  starting : List Cross := []
  running  : List Cross := []
  uses     : List CarryUse := []
  /-- carry reports on their way to the hub: tile, partition, crossing, whether requests are carried. -/
  reports  : List (Nat × Nat × Nat × Bool) := []
  /-- causes asserted at the last sample: bit 0 QUAY, 1 LINK, 2 REFRESH, 3 THERMAL (R53, R54), and the spine cycle of
  that sample. -/
  sampled  : Nat := 0
  sampleAt : Option Nat := none
  /-- the length of the present slack; the tc since its release was broadcast, 0 before; the causes asserted at the
  last poll, coded as the sample; whether SLACK_OVERLONG was raised in it (R56, R61, R63). -/
  slackTc  : Nat := 0
  relTc    : Nat := 0
  lastPoll : Nat := 0
  overlong : Bool := false
deriving DecidableEq, Repr

/-- A use of a timed-stream template at a quay (R319–R321): base, stride, whether its descriptor failed, whether a
running timetable takes it, whether its fetch has started, the flits read so far, those in staging (data, or the
address of an uncorrectable block), those taken. -/
structure Use where
  tpl     : Nat
  base    : Nat
  stride  : Nat
  failed  : Bool
  run     : Bool
  started : Bool
  next    : Nat
  flits   : List (Nat × Option Nat)
  taken   : Nat
deriving DecidableEq, Repr

/-- A descriptor posted by QPOST (R318) with the posting tile and word. -/
structure QPost where
  tile : Nat
  addr : Nat
  body : List Byte
deriving DecidableEq, Repr

/-- A push under way (R326): the post, bytes of the rows or segments already pushed, segments done, the address of the
next segment, the size of the credit asked for, its record once granted. -/
structure Push where
  post   : QPost
  pos    : Nat
  segs   : Nat
  next   : Nat
  size   : Nat
  recNo  : Option Nat
deriving DecidableEq, Repr

/-- A write, add or read of a quay (R329, R330): device address, write data (none for a read), source class and unit
(R272's classes; 7 the roster, 8 the pilot), whether it is an FP32 add; once accepted, its place in the quay's order and
the tick of its acceptance. -/
structure QReq where
  addr : Nat
  data : Option (List Byte)
  cls  : Nat
  unit : Nat
  add  : Bool
  seq  : Nat := 0
  tick : Nat := 0
deriving DecidableEq, Repr

/-- What a quay holds beside its registers: timed posts, uses, templates that a running timetable takes and no
descriptor has come for, pushes, writers waiting for space, reserved requests, the write-absorption buffer, reads
accepted, inbound gradient flits, requests accepted so far, retries of the present burst, whether its last retry
failed, corrected blocks to be written back, tc of per-bank refreshes toward the next interval, tc left of a forced
refresh, the spine cycle plus one of the last window paid in, slot lists by tile × 256 + crossing, barriers arrived at
by partition × 256 + crossing. -/
structure QuayX where
  posts    : List QPost := []
  uses     : List Use := []
  owed     : List Nat := []
  pushQ    : List QPost := []
  pushes   : List Push := []
  resWait  : List QReq := []
  reserved : List QReq := []
  wab      : List QReq := []
  reads    : List QReq := []
  grads    : List QReq := []
  taken    : Nat := 0
  retries  : Nat := 0
  edcBad   : Bool := false
  wback    : List Nat := []
  bankTc   : Nat := 0
  forceTc  : Nat := 0
  winAt    : Nat := 0
  lists    : List (Nat × List (Nat × Nat)) := []
  arrived  : List Nat := []
deriving DecidableEq, Repr

/-- A declared stream of a landing core beyond its registers (R353), as translated at its declaration: the slot,
whether it is a write stream, the device address of row 0, lines in a row, rows, stride, LEAD; the next line to fetch,
lines fetched and not yet read, lines counted under R354, the lines up to the furthest one read, and per line the bytes
written (one bit a byte). -/
structure Stream where
  slot  : Nat
  wr    : Bool
  base  : Nat
  lines : Nat
  rows  : Nat
  step  : Nat
  lead  : Nat
  next  : Nat := 0
  ready : List Nat := []
  seen  : List Nat := []
  far   : Nat := 0
  part  : Cells := []
deriving DecidableEq, Repr

/-- A stalled demand read of a landing core (R346): device address, size, the address the core used. -/
structure MemRead where
  addr : Nat
  size : Nat
  virt : Nat
deriving DecidableEq, Repr

/-- What a landing core holds beside its registers. -/
structure CoreX where
  /-- the value the last completed read returned. -/
  rdata    : List Byte := []
  mem      : Option MemRead := none
  /-- a wait of R351: the object, whether the core is stalled in the read, the answer (0 none yet). -/
  soWait   : Option (Nat × Bool × Nat) := none
  /-- a credit of R352: tile, slip and bytes asked for, the record if granted, the refusal code, stalled in the read. -/
  cred     : Option (Nat × Nat × Nat) := none
  credRec  : Option Nat := none
  credCode : Nat := 0
  credWait : Bool := false
  soOp     : Bool := false
  handler  : Bool := false
  stopped  : Bool := false
  streams  : List Stream := []
  /-- stalled in a FENCE (R342). -/
  fence    : Bool := false
deriving DecidableEq, Repr

/-- A line held by the landing cache (R341–R344): line address, its 64 bytes, dirty, locked. -/
structure CLine where
  addr   : Nat
  data   : List Byte
  dirty  : Bool
  locked : Bool
deriving DecidableEq, Repr

/-- A record of a roster list (R370–R374): its lane and number, entry, bucket, pages (first position and numbers),
L_NEXT, whether it runs a prompt, whether it was placed with a commit outstanding, LAST as placed or patched, whether
its entry has left DECODE since, whether it is void, whether its commit has been applied. -/
structure RRec where
  lane    : Nat
  recNo   : Nat
  slot    : Nat
  bucket  : Nat
  pages   : List Nat
  pfirst  : Nat
  lnext   : Nat
  prefill : Bool
  await   : Bool
  last    : Nat
  left    : Bool := false
  void    : Bool := false
  applied : Bool := false
deriving DecidableEq, Repr

/-- A roster list: the one being built or the current one (R369): number, epoch and live set read, lanes, records,
pages allocated, deferrals, entries starved, whether phase 1 is complete, whether FINALIZE was written, whether its
voids are set, the idle tick in which phase 1 began. -/
structure RList where
  num     : Nat
  epoch   : Nat := 0
  live    : Nat := 0
  lanes   : Nat
  records : List RRec := []
  alloc   : Nat := 0
  defer   : Nat := 0
  starve  : Nat := 0
  ready   : Bool := false
  final   : Bool := false
  voided  : Bool := false
  began   : Nat
deriving DecidableEq, Repr

/-- The roster beyond its registers. -/
structure Roster where
  cur      : Option RList := none
  build    : Option RList := none
  commits  : List Commit := []
  inflight : List Commit := []
  /-- refused commits whose refusal is on its way back: tile, word address, code (R378, R390). -/
  refused  : List (Nat × Nat × Nat) := []
  poolHead : Nat := 0
  /-- phase 1 has been triggered and has not begun (R369). -/
  trig     : Bool := false
deriving DecidableEq, Repr

/-- A running collective of a confluence engine (R400–R422): its descriptor's address and 128 bytes, the peer list's
entries, the exchange map's entries (rank, direction, bytes, offset), the phase of CF_STATUS, the run, the flags of the
status record (bit 0 LATE, 1 RESIDUE, 2 NONFINITE, 3 MEM_UNCORR, 4 OVF, 5 BADMAP), the excess of this run and of all,
the lowest LATE rank plus one, the verdict round, 64-byte source blocks read in this phase, the bytewise maximum and
the agreed scale of each block, copies of segments received and segments taken (keyed by what names them), units taken
in the first and the second pass of the phase, the verdict records received by round, this rank's completed wire
blocks. -/
structure Coll where
  desc   : Nat
  body   : List Byte
  peers  : List Nat
  map    : List (Nat × Nat × Nat × Nat)
  phase  : Nat := 0
  rerun  : Nat := 0
  flags  : Nat := 0
  excess : Nat := 0
  maxEx  : Nat := 0
  late   : Nat := 0
  round  : Nat := 0
  read   : Nat := 0
  raw    : Cells := []
  agreed : Cells := []
  copies : Cells := []
  taken  : Cells := []
  recv0  : Nat := 0
  recv1  : Nat := 0
  recs   : List (Nat × List Byte) := []
  own    : Cells := []
deriving DecidableEq, Repr

/-- A grid channel beyond its registers (R396–R399, R438): bytes its peer has granted, bytes sent, the write position
of TO_MEM, bytes granted to the peer, bytes delivered on, whether a credit is asked for, its record once granted. -/
structure ChanX where
  granted : Nat := 0
  sent    : Nat := 0
  pos     : Nat := 0
  given   : Nat := 0
  passed  : Nat := 0
  asked   : Bool := false
  recNo   : Option Nat := none
deriving DecidableEq, Repr

/-- A segment waiting at an engine's send side (R440): the destination endpoint, whether it is forwarded for another
rank, the partition charged with it (R454; 4 none), its bytes. -/
structure SegOut where
  dst  : Nat
  fwd  : Bool
  part : Nat
  body : List Byte
deriving DecidableEq, Repr

/-- What a confluence engine holds beside its registers (R394–R399, R440): queued descriptors, the running collective,
the grid-in buffer and the delivery buffer by channel, grid-in space reserved and bytes that crossings are still to take
(by partition × 256 + crossing, 1,024 above it once it runs, and by 16 times that + channel), channels, the send side,
the segments spilled to the transit area and the bytes spilled since, barriers arrived at. -/
structure EngX where
  queue   : List Nat := []
  run     : Option Coll := none
  gridIn  : List (Nat × List Byte) := []
  deliver : List (Nat × List Byte) := []
  resv    : Cells := []
  owed    : Cells := []
  chans   : List (Nat × ChanX) := []
  sends   : List SegOut := []
  spill   : List SegOut := []
  spilled : Nat := 0
  arrived : List Nat := []
deriving DecidableEq, Repr

/-- A frame queued or kept for replay (R434): sequence number, virtual channel, destination, payload, how often it was
sent. -/
structure TxFrame where
  seq   : Nat
  vc    : Nat
  dst   : Nat
  body  : List Byte
  tries : Nat
deriving DecidableEq, Repr

/-- What a fabric port holds beside its registers (R431–R437): the next SEQ to send and to expect, the last SEQ
acknowledged, link credits, the counts of words freed last seen and freed here, the replay buffer, control messages
queued, frames put on the wire, the SEQ last asked for again, the last frame of a resend, frames accepted and not yet
acknowledged, payloads received and not yet acted on with their virtual channel. -/
structure PortX where
  txSeq    : Nat := 0
  rxSeq    : Nat := 0
  ackSeq   : Nat := 65535
  credit0  : Nat := 0
  credit1  : Nat := 0
  seen0    : Nat := 0
  seen1    : Nat := 0
  freed0   : Nat := 0
  freed1   : Nat := 0
  replay   : List TxFrame := []
  txq      : List TxFrame := []
  wire     : List (List Byte) := []
  nakFor   : Option Nat := none
  resendTo : Option Nat := none
  unacked  : Nat := 0
  inbox    : List (Nat × List Byte) := []
deriving DecidableEq, Repr

/-- The fault log's records (R542). -/
structure FaultRec where
  seq   : Nat
  time  : Nat
  cls   : Nat
  kind  : Nat
  unit  : Nat
  code  : Nat
  actor : Nat
  data  : Nat
deriving DecidableEq, Repr

/-- A command held by one of the command ports (R489, R494): opcode, tag, arguments, whether it has begun, the parts
of a POWER_SET still to be carried out, the result when it has one, its DETAIL and the response body. -/
structure Held where
  op     : Nat
  tag    : Nat
  args   : List Byte
  began  : Bool := false
  left   : Nat := 0
  result : Option Nat := none
  detail : Nat := 0
  body   : List Byte := []
deriving DecidableEq, Repr

/-- An outstanding fetch request (R536): id, offset, length, port, tries, bytes received so far. -/
structure Fetch where
  id    : Nat
  off   : Nat
  len   : Nat
  port  : Nat
  tries : Nat
  got   : Nat
deriving DecidableEq, Repr

/-- The LOAD_PROGRAM under way (R499, R536). -/
structure Load where
  part   : Nat
  client : Nat
  ingest : Nat
  length : Nat
  digest : Nat
  name   : Nat
  area   : Nat
  next   : Nat
  reqs   : List Fetch
deriving DecidableEq, Repr

/-- The image a client has loaded in a partition (R128 step 8, R129): what R129 records, the object's place and
bytes in the object area, the roasts present, the placed tiles by logical index; T_ENTRY (roast, tile, offset),
XT_CUR (roast, tile, CROSSING + 256 × VALID) and resume addresses (roast, boundary, tile, offset); its
synchronisation objects, the registers its tables stand in and the plan of its crossings. -/
structure Image where
  part    : Nat
  client  : Nat
  model   : Nat
  digest  : Nat
  stepid  : Nat
  gen     : Nat
  area    : Nat
  length  : Nat
  roasts  : Nat
  tiles   : List Nat
  entries : List (Nat × Nat × Nat)
  curs    : List (Nat × Nat × Nat)
  resumes : List (Nat × Nat × Nat × Nat)
  objs    : List Nat
  tables  : List Nat
  plan    : Plan
deriving DecidableEq, Repr

/-- A saved context of a client in a partition (R459, R460, R462): per tile, the scratchpad bytes and the register
fields of the state record; lost tiles; the boundary objects its tiles wait on; whether it is an initial one. -/
structure Context where
  part   : Nat
  client : Nat
  tiles  : List (Nat × List Host.Cell × Cells)
  lost   : List Nat
  bounds : List Nat := []
  fresh  : Bool
deriving DecidableEq, Repr

/-- A context switch under way (R461): partitions with their incoming clients, scope, MODEL, phase, the idle tick in
which the phase began. -/
structure Switch where
  parts   : List (Nat × Nat)
  device  : Bool
  model   : Nat
  phase   : Nat
  began   : Nat
deriving DecidableEq, Repr

/-- A fence or unfence request queued at the fence block (R543): kind, unit, unfence, actor. -/
structure FenceReq where
  kind  : Nat
  unit  : Nat
  un    : Bool
  actor : Nat
deriving DecidableEq, Repr

/-- The event queue's entries (R541). -/
structure Event where
  cls  : Nat
  kind : Nat
  unit : Nat
  code : Nat
  data : Nat
deriving DecidableEq, Repr

/-- The fault path: event queue, fault log, fence block (R538–R547). -/
structure FaultX where
  events  : List Event := []
  log     : List FaultRec := []
  nextSeq : Nat := 0
  reqs    : List FenceReq := []
  active  : Option FenceReq := none
  fenced  : List Nat := []
  corr    : Cells := []
deriving DecidableEq, Repr

/-- Power states (R477), with the start of the grid clock under way between IDLE and ACTIVE (R479). -/
inductive PState where
  | active
  | starting
  | idle
  | drowse
  | off
deriving DecidableEq, Repr

/-- The pins, input and rails (R16, R22–R32). -/
structure Pins where
  pinEn     : Bool := true
  swClosed  : Bool := true
  underV    : Bool := false
  overV     : Bool := false
  resetN    : Bool := true
  filtering : Bool := false
  inReset   : Bool := false
  stby      : Bool := true
  rails     : Nat := 0
  ramping   : Bool := false
  railFault : Bool := false
  pwrGood   : Bool := false
  /-- ALERT_N asserted (R21), and how many I3C in-band interrupts were raised (R527). -/
  alert     : Bool := false
  ibi       : Nat := 0
  thermTrip : Bool := false
  /-- the management bus (R20): none before the first transaction after STBY came up, then whether it is I3C. -/
  bus       : Option Bool := none
  /-- the sideband of the twelve cages, bit k for Fk (R37): PRSn, INT and RSTn asserted, LPWn driven low. The first is a
  cable's presence, the last a cable held in low-power mode; no rule moves INT and RSTn. -/
  cagePrs   : Nat := 0
  cageInt   : Nat := 0
  cageRst   : Nat := 0
  cageLpw   : Nat := 0
deriving DecidableEq, Repr

/-- The power logic of the pilot beyond its registers (R468–R476). -/
structure PowerX where
  state    : PState := .off
  setLimit : Nat := 700
  setGrant : Nat := 700
  dieGrant : Nat := 700
  memGrant : Nat := 700
  /-- grant sequences under way: 0 none, 1 falling, 2 rising, for the die and for GDDR7. -/
  dieSeq   : Nat := 0
  memSeq   : Nat := 0
  dieThr   : Bool := false
  memThr   : Bool := false
  /-- the latest 400 samples of input power (0.1 W) and voltage (10 mV), newest first; input energy in 0.25 µJ since
  module reset, and since the last window of R465. -/
  samples  : List (Nat × Nat) := []
  energy   : Nat := 0
  metered  : Nat := 0
  clamp    : Bool := false
  carryUj  : Cells := []
  window   : Nat := 0
  accounts : Cells := []
  /-- this window's weights of R465: busy tc by partition, token tc by 4 + partition, bytes by 8 + partition. -/
  weights  : Cells := []
  /-- the token buckets of R455, by 2 × partition + 1 for fabric: what LEVEL lacks of BURST in 1/1,024 B, bytes
  admitted for a packet that waited, and the time plus one since when one waits. -/
  lacks    : Cells := []
  permits  : Cells := []
  since    : Cells := []
deriving DecidableEq, Repr

/-- The control port, the management port and the firmware's record of what runs (R483–R508, R525–R527). -/
structure CtlX where
  reqArea  : List Host.Cell := []
  respArea : List Byte := []
  control  : Option Held := none
  mgmt     : Option Held := none
  mgmtOut  : Option (List Byte) := none
  order    : List CmdPort := []
  d3hot    : Bool := false
  bme      : Bool := false
  msixEn   : Bool := false
  msgs     : List Nat := []
  /-- where the module stands apart from the conditions of R496: 0 off, 1 booting, 2 up, 7 drowse. -/
  base     : Nat := 1
  updating : Bool := false
  faulted  : Bool := false
  drain    : Option Nat := none
  boundary : Cells := []
  load     : Option Load := none
  images   : List Image := []
  contexts : List Context := []
  switch   : Option Switch := none
  swWait   : Option (Nat × Nat × Nat × Nat) := none
  nextReq  : Nat := 0
  resetReq : Bool := false
  eid      : Nat := 0
  dyn      : Nat := 0
  /-- the NEXT last returned by REPORT_FAULTS on the management port, and whether the module state changed since the
  last GET_STATE there (R527). -/
  mgNext   : Nat := 0
  mgState  : Bool := false
  /-- versions negotiated per SPDM transport (bit 0 MCTP, bit 1 DOE) and the last SPDM answer. -/
  spdm     : Cells := []
  spdmOut  : List Byte := []
  /-- ports reported as unusable through the management plane, bit k for Fk (R37). -/
  unusable : Nat := 0
  /-- the last answer to an MCTP control command (R525). -/
  mctpOut  : List Byte := []
  /-- the status window's entries by their offset (R508). -/
  win      : Cells := []
deriving DecidableEq, Repr

/-- Boot, the flash and the trust state of the pilot (R509–R534): the boot step reached, the code of a boot failure,
whether the entropy source passes its health test, the flash's slots by flash address (an unlisted byte is erased,
0xFF), the monotonic counters, the fields of the control block in force, the slot being booted or booted, the
verification codes of both slots, the slot and bytes staged in this boot, the guard's values, what the booted image
carries, the quays trained. -/
structure BootX where
  step     : Nat := 0
  failed   : Option Nat := none
  entropy  : Bool := true
  flash    : List Host.Cell := []
  counters : Nat × Nat × Nat := (0, 0, 0)
  next     : Nat := 0
  slotSt   : Nat × Nat := (4, 0)
  tries    : Nat := 0
  ctlSeq   : Nat := 0
  ownerGen : Nat := 0
  ownerKey : Nat := 0
  booted   : Option Nat := none
  verify   : Nat × Nat := (0, 0)
  staged   : Option (Nat × Nat) := none
  /-- bytes staged into each slot since it was last erased (R517, R530). -/
  lens     : Nat × Nat := (0x1F0_0000, 0)
  guard    : Bool := false
  sysid    : Nat := 0
  modnum   : Nat := 0
  portMode : Cells := []
  dstMap   : Cells := []
  portPeer : Cells := []
  ingest   : List Nat := []
  debug    : Bool := false
  fwLen    : Nat := 0
  fwHash   : Nat := 0
  fwSvn    : Nat := 0
  cfgSvn   : Nat := 0
  fwDigest : Nat := 0
  cfgDigest : Nat := 0
  quayUp   : List Nat := []
  landSeed : Nat := 0
deriving DecidableEq, Repr

/-- Why a step stops with a fault. No command of this block has an effect that the spec calls a stop of the machine:
every error is a recorded event, and the step goes on. -/
inductive Fault where
  /-- A bank outside the sixteen of R215 is named; raised by nobody: the constructor closes the type. Safe. -/
  | noSuchUnit
deriving DecidableEq, Repr

/-- Why a step is refused. -/
inductive Refusal where
  /-- The command has no meaning in the model yet; raised by the dispatch. Safe. -/
  | notModelled (mnemonic : String)
deriving DecidableEq, Repr

/-- The state of the module. -/
structure State where
  stepping : Stepping
  /-- every register field, keyed by device address × 64 + lowest bit; an unlisted field reads its reset value. -/
  rf       : Cells
  /-- GDDR7, scratchpads and the landing SRAM by device address; an unlisted byte reads 0. -/
  mem      : List Host.Cell
  tiles    : List (Nat × TileX)
  hub      : Hub
  quays    : List (Nat × QuayX)
  cores    : List (Nat × CoreX)
  cache    : List CLine
  roster   : Roster
  engs     : List (Nat × EngX)
  ports    : List (Nat × PortX)
  fault    : FaultX
  pins     : Pins
  power    : PowerX
  ctl      : CtlX
  boot     : BootX
  /-- how many free values the machine has drawn: the argument of the next one. The model's own field. -/
  free     : Nat
  /-- grid tc since the grid clock was started: T_CYCLE of every tile (R93, R94). -/
  tc       : Nat
  /-- steps of idle time since power-on reset, each one tc long (the pilot's and the landing cluster's time). -/
  tick     : Nat
  pending  : List Instr
deriving DecidableEq, Repr

/-- The module right after a module reset, with the switch closed and the boot about to start. -/
def State.reset : State :=
  { stepping := .B0, rf := [], mem := [], tiles := [], hub := {}, quays := [], cores := [], cache := [],
    roster := {}, engs := [], ports := [], fault := {}, pins := {}, power := {}, ctl := {}, boot := {},
    free := 0, tc := 0, tick := 0, pending := [] }

end Sys2Proof.Machine
end

