-- ==== Sys2Proof/Machine/RegMap.lean ====
section
/-! DEFINITION. The register map of the whole device, field by field, as the register tables of the
spec's chapters give it: block, offset, stride, count, lowest bit, width, reset value, access (R9, R10).
Reserved fields are not stored: they read 0 and ignore writes (R10). -/

namespace Sys2Proof.Machine

namespace F

/-- R64. XT_SPINE_CYCLE.COUNT [63:0]. -/
def XT_SPINE_CYCLE_COUNT : Fld := ⟨.dev, 0x2000, 8, 1, 0, 64, 0, .ro⟩
/-- R64. XT_HOLD_STATUS.HOLDING [0]. -/
def XT_HOLD_STATUS_HOLDING : Fld := ⟨.dev, 0x2008, 8, 1, 0, 1, 0, .ro⟩
/-- R64. XT_HOLD_STATUS.QUAY [1]. -/
def XT_HOLD_STATUS_QUAY : Fld := ⟨.dev, 0x2008, 8, 1, 1, 1, 0, .ro⟩
/-- R64. XT_HOLD_STATUS.LINK [2]. -/
def XT_HOLD_STATUS_LINK : Fld := ⟨.dev, 0x2008, 8, 1, 2, 1, 0, .ro⟩
/-- R64. XT_HOLD_STATUS.REFRESH [3]. -/
def XT_HOLD_STATUS_REFRESH : Fld := ⟨.dev, 0x2008, 8, 1, 3, 1, 0, .ro⟩
/-- R64. XT_HOLD_STATUS.THERMAL [4]. -/
def XT_HOLD_STATUS_THERMAL : Fld := ⟨.dev, 0x2008, 8, 1, 4, 1, 0, .ro⟩
/-- R64. XT_HOLD_STATUS.ATTR [7:5]. -/
def XT_HOLD_STATUS_ATTR : Fld := ⟨.dev, 0x2008, 8, 1, 5, 3, 0, .ro⟩
/-- R64. XT_SLACK_LIMIT.LIMIT [31:0]. -/
def XT_SLACK_LIMIT_LIMIT : Fld := ⟨.dev, 0x2010, 8, 1, 0, 32, 600000, .rw⟩
/-- R64. XT_SLACK_TOTAL.TC [63:0]. -/
def XT_SLACK_TOTAL_TC : Fld := ⟨.dev, 0x2018, 8, 1, 0, 64, 0, .ro⟩
/-- R64. XT_SLACK_TC_QUAY.TC [63:0]. -/
def XT_SLACK_TC_QUAY_TC : Fld := ⟨.dev, 0x2020, 8, 1, 0, 64, 0, .ro⟩
/-- R64. XT_SLACK_TC_LINK.TC [63:0]. -/
def XT_SLACK_TC_LINK_TC : Fld := ⟨.dev, 0x2028, 8, 1, 0, 64, 0, .ro⟩
/-- R64. XT_SLACK_TC_REFRESH.TC [63:0]. -/
def XT_SLACK_TC_REFRESH_TC : Fld := ⟨.dev, 0x2030, 8, 1, 0, 64, 0, .ro⟩
/-- R64. XT_SLACK_TC_THERMAL.TC [63:0]. -/
def XT_SLACK_TC_THERMAL_TC : Fld := ⟨.dev, 0x2038, 8, 1, 0, 64, 0, .ro⟩
/-- R64. XT_SLACK_EVENTS.QUAY [15:0]. -/
def XT_SLACK_EVENTS_QUAY : Fld := ⟨.dev, 0x2040, 8, 1, 0, 16, 0, .ro⟩
/-- R64. XT_SLACK_EVENTS.LINK [31:16]. -/
def XT_SLACK_EVENTS_LINK : Fld := ⟨.dev, 0x2040, 8, 1, 16, 16, 0, .ro⟩
/-- R64. XT_SLACK_EVENTS.REFRESH [47:32]. -/
def XT_SLACK_EVENTS_REFRESH : Fld := ⟨.dev, 0x2040, 8, 1, 32, 16, 0, .ro⟩
/-- R64. XT_SLACK_EVENTS.THERMAL [63:48]. -/
def XT_SLACK_EVENTS_THERMAL : Fld := ⟨.dev, 0x2040, 8, 1, 48, 16, 0, .ro⟩
/-- R64. XT_SLACK_LONGEST.TC [31:0]. -/
def XT_SLACK_LONGEST_TC : Fld := ⟨.dev, 0x2048, 8, 1, 0, 32, 0, .rc⟩
/-- R64. XT_SLACK_SOURCE.QMASK [23:0]. -/
def XT_SLACK_SOURCE_QMASK : Fld := ⟨.dev, 0x2050, 8, 1, 0, 24, 0, .ro⟩
/-- R64. XT_SLACK_SOURCE.FMASK [35:24]. -/
def XT_SLACK_SOURCE_FMASK : Fld := ⟨.dev, 0x2050, 8, 1, 24, 12, 0, .ro⟩
/-- R64. XT_SLACK_SOURCE.CLAMP [36]. -/
def XT_SLACK_SOURCE_CLAMP : Fld := ⟨.dev, 0x2050, 8, 1, 36, 1, 0, .ro⟩
/-- R64. XT_SLACK_SOURCE.THROTTLE [37]. -/
def XT_SLACK_SOURCE_THROTTLE : Fld := ⟨.dev, 0x2050, 8, 1, 37, 1, 0, .ro⟩
/-- R93. T_CTRL.GO [0]. -/
def T_CTRL_GO : Fld := ⟨.tile, 0x80000, 8, 1, 0, 1, 0, .wo⟩
/-- R93. T_CTRL.RESUME [1]. -/
def T_CTRL_RESUME : Fld := ⟨.tile, 0x80000, 8, 1, 1, 1, 0, .wo⟩
/-- R93. T_CTRL.STOP [2]. -/
def T_CTRL_STOP : Fld := ⟨.tile, 0x80000, 8, 1, 2, 1, 0, .wo⟩
/-- R93. T_CTRL.STEP [3]. -/
def T_CTRL_STEP : Fld := ⟨.tile, 0x80000, 8, 1, 3, 1, 0, .rw⟩
/-- R93. T_CTRL.BP_EN [4]. -/
def T_CTRL_BP_EN : Fld := ⟨.tile, 0x80000, 8, 1, 4, 1, 1, .rw⟩
/-- R93. T_STATUS.STATE [2:0]. -/
def T_STATUS_STATE : Fld := ⟨.tile, 0x80008, 8, 1, 0, 3, 0, .ro⟩
/-- R93. T_STATUS.CROSSING [3]. -/
def T_STATUS_CROSSING : Fld := ⟨.tile, 0x80008, 8, 1, 3, 1, 0, .ro⟩
/-- R93. T_STATUS.IDLE [7:4]. -/
def T_STATUS_IDLE : Fld := ⟨.tile, 0x80008, 8, 1, 4, 4, 0, .ro⟩
/-- R93. T_ENTRY.ADDR [18:0]. -/
def T_ENTRY_ADDR : Fld := ⟨.tile, 0x80010, 8, 1, 0, 19, 0, .rw⟩
/-- R93. T_CODE_STAMP.STAMP [15:0]. -/
def T_CODE_STAMP_STAMP : Fld := ⟨.tile, 0x80018, 8, 1, 0, 16, 0, .rw⟩
/-- R93. T_HALT.REASON [7:0]. -/
def T_HALT_REASON : Fld := ⟨.tile, 0x80020, 8, 1, 0, 8, 0, .ro⟩
/-- R93. T_HALT.SLOT [10:8]. -/
def T_HALT_SLOT : Fld := ⟨.tile, 0x80020, 8, 1, 8, 3, 0, .ro⟩
/-- R93. T_HALT.MORE [11]. -/
def T_HALT_MORE : Fld := ⟨.tile, 0x80020, 8, 1, 11, 1, 0, .ro⟩
/-- R93. T_HALT.VALID [12]. -/
def T_HALT_VALID : Fld := ⟨.tile, 0x80020, 8, 1, 12, 1, 0, .ro⟩
/-- R93. T_HALT.ADDR [31:13]. -/
def T_HALT_ADDR : Fld := ⟨.tile, 0x80020, 8, 1, 13, 19, 0, .ro⟩
/-- R93. T_HALT.DETAIL [47:32]. -/
def T_HALT_DETAIL : Fld := ⟨.tile, 0x80020, 8, 1, 32, 16, 0, .ro⟩
/-- R93. T_HALT_AUX.AUX [63:0]. -/
def T_HALT_AUX_AUX : Fld := ⟨.tile, 0x80028, 8, 1, 0, 64, 0, .ro⟩
/-- R93. T_HALT_CYCLE.TC [63:0]. -/
def T_HALT_CYCLE_TC : Fld := ⟨.tile, 0x80030, 8, 1, 0, 64, 0, .ro⟩
/-- R93. T_WDOG_LIMIT.LIMIT [31:0]. -/
def T_WDOG_LIMIT_LIMIT : Fld := ⟨.tile, 0x80038, 8, 1, 0, 32, 0, .rw⟩
/-- R93. T_WDOG_COUNT.TC [31:0]. -/
def T_WDOG_COUNT_TC : Fld := ⟨.tile, 0x80040, 8, 1, 0, 32, 0, .ro⟩
/-- R93. T_BPADDR.ADDR [18:0]. -/
def T_BPADDR_ADDR : Fld := ⟨.tile, 0x80048, 8, 2, 0, 19, 0, .rw⟩
/-- R93. T_BPADDR.EN [63]. -/
def T_BPADDR_EN : Fld := ⟨.tile, 0x80048, 8, 2, 63, 1, 0, .rw⟩
/-- R93. T_LOOP.COUNT [31:0]. -/
def T_LOOP_COUNT : Fld := ⟨.tile, 0x80058, 16, 2, 0, 32, 0, .ro⟩
/-- R93. T_LOOP.ACTIVE [63]. -/
def T_LOOP_ACTIVE : Fld := ⟨.tile, 0x80058, 16, 2, 63, 1, 0, .ro⟩
/-- R93. T_LOOP_RANGE.START [18:0]. -/
def T_LOOP_RANGE_START : Fld := ⟨.tile, 0x80060, 16, 2, 0, 19, 0, .ro⟩
/-- R93. T_LOOP_RANGE.END [50:32]. -/
def T_LOOP_RANGE_END : Fld := ⟨.tile, 0x80060, 16, 2, 32, 19, 0, .ro⟩
/-- R93. T_PC.ADDR [18:0]. -/
def T_PC_ADDR : Fld := ⟨.tile, 0x80078, 8, 1, 0, 19, 0, .ro⟩
/-- R93. T_CYCLE.TC [63:0]. -/
def T_CYCLE_TC : Fld := ⟨.tile, 0x80100, 8, 1, 0, 64, 0, .ro⟩
/-- R93. T_CROSS_TC.TC [63:0]. -/
def T_CROSS_TC_TC : Fld := ⟨.tile, 0x80108, 8, 1, 0, 64, 0, .ro⟩
/-- R93. T_IDLE.TC [47:0]. -/
def T_IDLE_TC : Fld := ⟨.tile, 0x80110, 8, 13, 0, 48, 0, .ro⟩
/-- R93. T_BAR_PENDING.TC [47:0]. -/
def T_BAR_PENDING_TC : Fld := ⟨.tile, 0x80178, 8, 1, 0, 48, 0, .ro⟩
/-- R93. T_EVLOG.CODE [7:0]. -/
def T_EVLOG_CODE : Fld := ⟨.tile, 0x80200, 8, 8, 0, 8, 0, .ro⟩
/-- R93. T_EVLOG.SOURCE [19:8]. -/
def T_EVLOG_SOURCE : Fld := ⟨.tile, 0x80200, 8, 8, 8, 12, 0, .ro⟩
/-- R93. T_EVLOG.CLASS [23:20]. -/
def T_EVLOG_CLASS : Fld := ⟨.tile, 0x80200, 8, 8, 20, 4, 0, .ro⟩
/-- R93. T_EVLOG.TC [63:24]. -/
def T_EVLOG_TC : Fld := ⟨.tile, 0x80200, 8, 8, 24, 40, 0, .ro⟩
/-- R93. T_EVLOG_PTR.NEXT [2:0]. -/
def T_EVLOG_PTR_NEXT : Fld := ⟨.tile, 0x80240, 8, 1, 0, 3, 0, .ro⟩
/-- R93. T_EVLOG_PTR.TOTAL [47:16]. -/
def T_EVLOG_PTR_TOTAL : Fld := ⟨.tile, 0x80240, 8, 1, 16, 32, 0, .ro⟩
/-- R153. T_RNG_STATUS.SEEDED [0]. -/
def T_RNG_STATUS_SEEDED : Fld := ⟨.tile, 0x80300, 8, 1, 0, 1, 0, .ro⟩
/-- R153. T_RNG_DRAWN_V.BITS [47:0]. -/
def T_RNG_DRAWN_V_BITS : Fld := ⟨.tile, 0x80308, 8, 1, 0, 48, 0, .ro⟩
/-- R153. T_RNG_DRAWN_M.BITS [47:0]. -/
def T_RNG_DRAWN_M_BITS : Fld := ⟨.tile, 0x80310, 8, 1, 0, 48, 0, .ro⟩
/-- R153. T_RNG_DRAWN_MF.BITS [47:0]. -/
def T_RNG_DRAWN_MF_BITS : Fld := ⟨.tile, 0x80318, 8, 1, 0, 48, 0, .ro⟩
/-- R187. PW_TOKEN_CAP.CAP [8:0]. -/
def PW_TOKEN_CAP_CAP : Fld := ⟨.dev, 0x3000, 8, 12, 0, 9, 256, .rw⟩
/-- R187. PW_TOKEN_HELD.HELD [8:0]. -/
def PW_TOKEN_HELD_HELD : Fld := ⟨.dev, 0x3060, 8, 12, 0, 9, 0, .ro⟩
/-- R187. PW_TOKEN_WAIT.TC [63:0]. -/
def PW_TOKEN_WAIT_TC : Fld := ⟨.dev, 0x30c0, 8, 12, 0, 64, 0, .ro⟩
/-- R189. T_MSTATUS.IDLE [0]. -/
def T_MSTATUS_IDLE : Fld := ⟨.tile, 0x80400, 8, 1, 0, 1, 1, .ro⟩
/-- R189. T_MSTATUS.QUEUED [3:1]. -/
def T_MSTATUS_QUEUED : Fld := ⟨.tile, 0x80400, 8, 1, 1, 3, 0, .ro⟩
/-- R189. T_MSTATUS.TOKEN [4]. -/
def T_MSTATUS_TOKEN : Fld := ⟨.tile, 0x80400, 8, 1, 4, 1, 0, .ro⟩
/-- R189. T_MBUF_FMT.FMT0 [2:0]. -/
def T_MBUF_FMT_FMT0 : Fld := ⟨.tile, 0x80408, 8, 1, 0, 3, 0, .rw⟩
/-- R189. T_MBUF_FMT.FMT1 [5:3]. -/
def T_MBUF_FMT_FMT1 : Fld := ⟨.tile, 0x80408, 8, 1, 3, 3, 0, .rw⟩
/-- R189. T_MSPILL_CFG.BASE [18:0]. -/
def T_MSPILL_CFG_BASE : Fld := ⟨.tile, 0x80410, 8, 1, 0, 19, 0, .rw⟩
/-- R189. T_MSPILL_CFG.INTERVAL [25:19]. -/
def T_MSPILL_CFG_INTERVAL : Fld := ⟨.tile, 0x80410, 8, 1, 19, 7, 0, .rw⟩
/-- R189. T_MEPI_CFG.OP [1:0]. -/
def T_MEPI_CFG_OP : Fld := ⟨.tile, 0x80418, 8, 1, 0, 2, 0, .rw⟩
/-- R189. T_MEPI_CFG.EFMT [2]. -/
def T_MEPI_CFG_EFMT : Fld := ⟨.tile, 0x80418, 8, 1, 2, 1, 0, .rw⟩
/-- R189. T_MEPI_CFG.RND [4:3]. -/
def T_MEPI_CFG_RND : Fld := ⟨.tile, 0x80418, 8, 1, 3, 2, 0, .rw⟩
/-- R189. T_MEPI_CFG.SLIP [9:5]. -/
def T_MEPI_CFG_SLIP : Fld := ⟨.tile, 0x80418, 8, 1, 5, 5, 0, .rw⟩
/-- R189. T_MEPI_CFG.OFFSET [34:16]. -/
def T_MEPI_CFG_OFFSET : Fld := ⟨.tile, 0x80418, 8, 1, 16, 19, 0, .rw⟩
/-- R189. T_MEPI_CFG.STRIDE [63:48]. -/
def T_MEPI_CFG_STRIDE : Fld := ⟨.tile, 0x80418, 8, 1, 48, 16, 0, .rw⟩
/-- R212. T_MSKIP.MASK [63:0]. -/
def T_MSKIP_MASK : Fld := ⟨.tile, 0x80420, 8, 1, 0, 64, 0, .rw⟩
/-- R212. T_MAUDIT.AUDIT [63:0]. -/
def T_MAUDIT_AUDIT : Fld := ⟨.tile, 0x80428, 8, 1, 0, 64, 0, .rw⟩
/-- R212. T_LOOK_THRESH.THRESH [31:0]. -/
def T_LOOK_THRESH_THRESH : Fld := ⟨.tile, 0x80430, 8, 1, 0, 32, 0, .rw⟩
/-- R212. T_LOOK_ROWS.ROWS [47:0]. -/
def T_LOOK_ROWS_ROWS : Fld := ⟨.tile, 0x80438, 8, 1, 0, 48, 0, .ro⟩
/-- R212. T_CUP_INACTIVE.ROWS [47:0]. -/
def T_CUP_INACTIVE_ROWS : Fld := ⟨.tile, 0x80440, 8, 1, 0, 48, 0, .ro⟩
/-- R212. T_CUP_AUDITED.ROWS [47:0]. -/
def T_CUP_AUDITED_ROWS : Fld := ⟨.tile, 0x80448, 8, 1, 0, 48, 0, .ro⟩
/-- R212. T_CUP_MISSED.OUTPUTS [47:0]. -/
def T_CUP_MISSED_OUTPUTS : Fld := ⟨.tile, 0x80450, 8, 1, 0, 48, 0, .ro⟩
/-- R212. T_CUP_SKIPPED_OUT.OUTPUTS [47:0]. -/
def T_CUP_SKIPPED_OUT_OUTPUTS : Fld := ⟨.tile, 0x80458, 8, 1, 0, 48, 0, .ro⟩
/-- R212. T_SKIP_ROWS.CHUNKS [47:0]. -/
def T_SKIP_ROWS_CHUNKS : Fld := ⟨.tile, 0x80460, 8, 1, 0, 48, 0, .ro⟩
/-- R212. T_BLK_PRESENT.BLOCKS [47:0]. -/
def T_BLK_PRESENT_BLOCKS : Fld := ⟨.tile, 0x80468, 8, 1, 0, 48, 0, .ro⟩
/-- R212. T_BLK_ABSENT.BLOCKS [47:0]. -/
def T_BLK_ABSENT_BLOCKS : Fld := ⟨.tile, 0x80470, 8, 1, 0, 48, 0, .ro⟩
/-- R212. T_SPARSE_PRUNED.VALUES [47:0]. -/
def T_SPARSE_PRUNED_VALUES : Fld := ⟨.tile, 0x80478, 8, 1, 0, 48, 0, .ro⟩
/-- R220. SLIP_BASE.BASE [18:0]. -/
def SLIP_BASE_BASE : Fld := ⟨.tile, 0x86000, 64, 32, 0, 19, 0, .rw⟩
/-- R220. SLIP_SIZE.SIZE [18:0]. -/
def SLIP_SIZE_SIZE : Fld := ⟨.tile, 0x86008, 64, 32, 0, 19, 0, .rw⟩
/-- R220. SLIP_ATTR.EXEC [0]. -/
def SLIP_ATTR_EXEC : Fld := ⟨.tile, 0x86010, 64, 32, 0, 1, 0, .rw⟩
/-- R220. SLIP_ATTR.CLASS [3:1]. -/
def SLIP_ATTR_CLASS : Fld := ⟨.tile, 0x86010, 64, 32, 1, 3, 0, .rw⟩
/-- R220. SLIP_ATTR.STUCK [4]. -/
def SLIP_ATTR_STUCK : Fld := ⟨.tile, 0x86010, 64, 32, 4, 1, 0, .w1c⟩
/-- R220. SLIP_HEAD.COUNT [31:0]. -/
def SLIP_HEAD_COUNT : Fld := ⟨.tile, 0x86018, 64, 32, 0, 32, 0, .rw⟩
/-- R220. SLIP_TAIL.COUNT [31:0]. -/
def SLIP_TAIL_COUNT : Fld := ⟨.tile, 0x86020, 64, 32, 0, 32, 0, .rw⟩
/-- R220. SLIP_RSV.BYTES [19:0]. -/
def SLIP_RSV_BYTES : Fld := ⟨.tile, 0x86028, 64, 32, 0, 20, 0, .ro⟩
/-- R220. SLIP_RSV.CREDITS [28:24]. -/
def SLIP_RSV_CREDITS : Fld := ⟨.tile, 0x86028, 64, 32, 24, 5, 0, .ro⟩
/-- R220. SLIP_FILL.FILL [19:0]. -/
def SLIP_FILL_FILL : Fld := ⟨.tile, 0x86030, 64, 32, 0, 20, 0, .ro⟩
/-- R220. SLIP_FILL.FREE [39:20]. -/
def SLIP_FILL_FREE : Fld := ⟨.tile, 0x86030, 64, 32, 20, 20, 0, .ro⟩
/-- R220. SLIP_FILL.WAITERS [40]. -/
def SLIP_FILL_WAITERS : Fld := ⟨.tile, 0x86030, 64, 32, 40, 1, 0, .ro⟩
/-- R234. T_CRED_A.SLIP [4:0]. -/
def T_CRED_A_SLIP : Fld := ⟨.tile, 0x86900, 16, 16, 0, 5, 0, .ro⟩
/-- R234. T_CRED_A.CLASS [7:5]. -/
def T_CRED_A_CLASS : Fld := ⟨.tile, 0x86900, 16, 16, 5, 3, 0, .ro⟩
/-- R234. T_CRED_A.UNIT [12:8]. -/
def T_CRED_A_UNIT : Fld := ⟨.tile, 0x86900, 16, 16, 8, 5, 0, .ro⟩
/-- R234. T_CRED_A.STATE [14:13]. -/
def T_CRED_A_STATE : Fld := ⟨.tile, 0x86900, 16, 16, 13, 2, 0, .ro⟩
/-- R234. T_CRED_A.START [47:16]. -/
def T_CRED_A_START : Fld := ⟨.tile, 0x86900, 16, 16, 16, 32, 0, .ro⟩
/-- R234. T_CRED_B.BYTES [19:0]. -/
def T_CRED_B_BYTES : Fld := ⟨.tile, 0x86908, 16, 16, 0, 20, 0, .ro⟩
/-- R234. T_CRED_B.WRITTEN [39:20]. -/
def T_CRED_B_WRITTEN : Fld := ⟨.tile, 0x86908, 16, 16, 20, 20, 0, .ro⟩
/-- R237. T_WIN_BASE.BASE [19:0]. -/
def T_WIN_BASE_BASE : Fld := ⟨.tile, 0x86800, 16, 8, 0, 20, 0, .rw⟩
/-- R237. T_WIN_BASE.TASK [26:20]. -/
def T_WIN_BASE_TASK : Fld := ⟨.tile, 0x86800, 16, 8, 20, 7, 0, .rw⟩
/-- R237. T_WIN_BASE.READ [27]. -/
def T_WIN_BASE_READ : Fld := ⟨.tile, 0x86800, 16, 8, 27, 1, 0, .rw⟩
/-- R237. T_WIN_BASE.WRITE [28]. -/
def T_WIN_BASE_WRITE : Fld := ⟨.tile, 0x86800, 16, 8, 28, 1, 0, .rw⟩
/-- R237. T_WIN_BASE.EN [31]. -/
def T_WIN_BASE_EN : Fld := ⟨.tile, 0x86800, 16, 8, 31, 1, 0, .rw⟩
/-- R237. T_WIN_BOUND.BOUND [19:0]. -/
def T_WIN_BOUND_BOUND : Fld := ⟨.tile, 0x86808, 16, 8, 0, 20, 0, .rw⟩
/-- R238. DBG_CTL.EN [0]. -/
def DBG_CTL_EN : Fld := ⟨.dev, 0x9000, 8, 1, 0, 1, 0, .ro⟩
/-- R238. DBG_CTL.GO [1]. -/
def DBG_CTL_GO : Fld := ⟨.dev, 0x9000, 8, 1, 1, 1, 0, .wo⟩
/-- R238. DBG_CTL.WRITE [2]. -/
def DBG_CTL_WRITE : Fld := ⟨.dev, 0x9000, 8, 1, 2, 1, 0, .rw⟩
/-- R238. DBG_CTL.DONE [3]. -/
def DBG_CTL_DONE : Fld := ⟨.dev, 0x9000, 8, 1, 3, 1, 1, .ro⟩
/-- R238. DBG_CTL.RESULT [7:4]. -/
def DBG_CTL_RESULT : Fld := ⟨.dev, 0x9000, 8, 1, 4, 4, 0, .ro⟩
/-- R238. DBG_ADDR.ADDR [47:0]. -/
def DBG_ADDR_ADDR : Fld := ⟨.dev, 0x9008, 8, 1, 0, 48, 0, .rw⟩
/-- R238. DBG_DATA.DATA [63:0]. -/
def DBG_DATA_DATA : Fld := ⟨.dev, 0x9010, 8, 1, 0, 64, 0, .rw⟩
/-- R245. T_ECC_CORR.WORDS [47:0]. -/
def T_ECC_CORR_WORDS : Fld := ⟨.tile, 0x86a00, 8, 1, 0, 48, 0, .ro⟩
/-- R245. T_ECC_UNCORR.WORDS [47:0]. -/
def T_ECC_UNCORR_WORDS : Fld := ⟨.tile, 0x86a08, 8, 1, 0, 48, 0, .ro⟩
/-- R245. T_ECC_LAST.OFFSET [18:0]. -/
def T_ECC_LAST_OFFSET : Fld := ⟨.tile, 0x86a10, 8, 1, 0, 19, 0, .ro⟩
/-- R245. T_ECC_LAST.SYNDROME [26:19]. -/
def T_ECC_LAST_SYNDROME : Fld := ⟨.tile, 0x86a10, 8, 1, 19, 8, 0, .ro⟩
/-- R245. T_ECC_LAST.UNCORR [27]. -/
def T_ECC_LAST_UNCORR : Fld := ⟨.tile, 0x86a10, 8, 1, 27, 1, 0, .ro⟩
/-- R245. T_ECC_LAST.READER [30:28]. -/
def T_ECC_LAST_READER : Fld := ⟨.tile, 0x86a10, 8, 1, 28, 3, 0, .ro⟩
/-- R245. T_ECC_LAST.VALID [31]. -/
def T_ECC_LAST_VALID : Fld := ⟨.tile, 0x86a10, 8, 1, 31, 1, 0, .rc⟩
/-- R245. T_BANK_EXT_WAIT.TC [47:0]. -/
def T_BANK_EXT_WAIT_TC : Fld := ⟨.tile, 0x86a18, 8, 1, 0, 48, 0, .ro⟩
/-- R245. T_BANK_PREEMPT.TC [47:0]. -/
def T_BANK_PREEMPT_TC : Fld := ⟨.tile, 0x86a20, 8, 1, 0, 48, 0, .ro⟩
/-- R265. XT_RSTATUS.RUN [0]. -/
def XT_RSTATUS_RUN : Fld := ⟨.tile, 0x87000, 8, 1, 0, 1, 0, .ro⟩
/-- R265. XT_RSTATUS.CROSSING [8:1]. -/
def XT_RSTATUS_CROSSING : Fld := ⟨.tile, 0x87000, 8, 1, 1, 8, 0, .ro⟩
/-- R265. XT_RSTATUS.CYCLE [26:9]. -/
def XT_RSTATUS_CYCLE : Fld := ⟨.tile, 0x87000, 8, 1, 9, 18, 0, .ro⟩
/-- R265. XT_RSTATUS.CLOSED [27]. -/
def XT_RSTATUS_CLOSED : Fld := ⟨.tile, 0x87000, 8, 1, 27, 1, 0, .ro⟩
/-- R265. XT_RSTATUS.BADSEL [28]. -/
def XT_RSTATUS_BADSEL : Fld := ⟨.tile, 0x87000, 8, 1, 28, 1, 0, .w1c⟩
/-- R265. XT_RCFG.PART [1:0]. -/
def XT_RCFG_PART : Fld := ⟨.tile, 0x87008, 8, 1, 0, 2, 0, .rw⟩
/-- R265. XT_RCFG.EN [2]. -/
def XT_RCFG_EN : Fld := ⟨.tile, 0x87008, 8, 1, 2, 1, 0, .rw⟩
/-- R265. XT_CUR.CROSSING [7:0]. -/
def XT_CUR_CROSSING : Fld := ⟨.tile, 0x87010, 8, 1, 0, 8, 0, .rw⟩
/-- R265. XT_CUR.VALID [8]. -/
def XT_CUR_VALID : Fld := ⟨.tile, 0x87010, 8, 1, 8, 1, 0, .rw⟩
/-- R265. XT_INJ_FLITS.FLITS [47:0]. -/
def XT_INJ_FLITS_FLITS : Fld := ⟨.tile, 0x87018, 8, 1, 0, 48, 0, .ro⟩
/-- R265. XT_EJ_FLITS.FLITS [47:0]. -/
def XT_EJ_FLITS_FLITS : Fld := ⟨.tile, 0x87020, 8, 1, 0, 48, 0, .ro⟩
/-- R265. XT_PASS_FLITS.FLITS [47:0]. -/
def XT_PASS_FLITS_FLITS : Fld := ⟨.tile, 0x87028, 8, 1, 0, 48, 0, .ro⟩
/-- R265. XT_DROPPED.FLITS [47:0]. -/
def XT_DROPPED_FLITS : Fld := ⟨.tile, 0x87030, 8, 1, 0, 48, 0, .ro⟩
/-- R265. XT_LINK_ECC.CORR [23:0]. -/
def XT_LINK_ECC_CORR : Fld := ⟨.tile, 0x87038, 8, 1, 0, 24, 0, .ro⟩
/-- R265. XT_LINK_ECC.UNCORR [47:24]. -/
def XT_LINK_ECC_UNCORR : Fld := ⟨.tile, 0x87038, 8, 1, 24, 24, 0, .ro⟩
/-- R265. XT_MISSES.COUNT [31:0]. -/
def XT_MISSES_COUNT : Fld := ⟨.tile, 0x87040, 8, 1, 0, 32, 0, .ro⟩
/-- R271. XT_BAR.EXPECT [12:0]. -/
def XT_BAR_EXPECT : Fld := ⟨.dev, 0x4000, 8, 256, 0, 13, 0, .rw⟩
/-- R271. XT_BAR.ARRIVED [25:13]. -/
def XT_BAR_ARRIVED : Fld := ⟨.dev, 0x4000, 8, 256, 13, 13, 0, .ro⟩
/-- R271. XT_BAR.CROSSING [33:26]. -/
def XT_BAR_CROSSING : Fld := ⟨.dev, 0x4000, 8, 256, 26, 8, 0, .rw⟩
/-- R271. XT_BAR.PART [35:34]. -/
def XT_BAR_PART : Fld := ⟨.dev, 0x4000, 8, 256, 34, 2, 0, .rw⟩
/-- R271. XT_BAR.ALLOC [36]. -/
def XT_BAR_ALLOC : Fld := ⟨.dev, 0x4000, 8, 256, 36, 1, 0, .rw⟩
/-- R271. XT_BAR_ARRIVE.BARRIER [7:0]. -/
def XT_BAR_ARRIVE_BARRIER : Fld := ⟨.dev, 0x4800, 8, 1, 0, 8, 0, .wo⟩
/-- R271. XT_BAR_DONE.COUNT [47:0]. -/
def XT_BAR_DONE_COUNT : Fld := ⟨.dev, 0x4808, 8, 1, 0, 48, 0, .ro⟩
/-- R278. SO_STATE.COUNT [31:0]. -/
def SO_STATE_COUNT : Fld := ⟨.dev, 0x100000, 16, 8192, 0, 32, 0, .ro⟩
/-- R278. SO_STATE.TARGET [63:32]. -/
def SO_STATE_TARGET : Fld := ⟨.dev, 0x100000, 16, 8192, 32, 32, 0, .ro⟩
/-- R278. SO_CTL.OWNER [15:0]. -/
def SO_CTL_OWNER : Fld := ⟨.dev, 0x100008, 16, 8192, 0, 16, 0, .rw⟩
/-- R278. SO_CTL.PART [17:16]. -/
def SO_CTL_PART : Fld := ⟨.dev, 0x100008, 16, 8192, 16, 2, 0, .rw⟩
/-- R278. SO_CTL.ALLOC [18]. -/
def SO_CTL_ALLOC : Fld := ⟨.dev, 0x100008, 16, 8192, 18, 1, 0, .rw⟩
/-- R278. SO_CTL.BROKEN [19]. -/
def SO_CTL_BROKEN : Fld := ⟨.dev, 0x100008, 16, 8192, 19, 1, 0, .w1c⟩
/-- R278. SO_CTL.WAITERS [32:20]. -/
def SO_CTL_WAITERS : Fld := ⟨.dev, 0x100008, 16, 8192, 20, 13, 0, .ro⟩
/-- R278. SO_OP.OBJ [12:0]. -/
def SO_OP_OBJ : Fld := ⟨.dev, 0x120000, 8, 1, 0, 13, 0, .wo⟩
/-- R278. SO_OP.OP [14:13]. -/
def SO_OP_OP : Fld := ⟨.dev, 0x120000, 8, 1, 13, 2, 0, .wo⟩
/-- R278. SO_OP.VALUE [63:32]. -/
def SO_OP_VALUE : Fld := ⟨.dev, 0x120000, 8, 1, 32, 32, 0, .wo⟩
/-- R278. SO_DISCARDS.COUNT [47:0]. -/
def SO_DISCARDS_COUNT : Fld := ⟨.dev, 0x120008, 8, 1, 0, 48, 0, .ro⟩
/-- R307. MF_STATUS.SBUSY [0]. -/
def MF_STATUS_SBUSY : Fld := ⟨.tile, 0x86b00, 8, 1, 0, 1, 0, .ro⟩
/-- R307. MF_STATUS.MBUSY [1]. -/
def MF_STATUS_MBUSY : Fld := ⟨.tile, 0x86b00, 8, 1, 1, 1, 0, .ro⟩
/-- R307. MF_STATUS.SQUEUE [4:2]. -/
def MF_STATUS_SQUEUE : Fld := ⟨.tile, 0x86b00, 8, 1, 2, 3, 0, .ro⟩
/-- R307. MF_STATUS.MQUEUE [7:5]. -/
def MF_STATUS_MQUEUE : Fld := ⟨.tile, 0x86b00, 8, 1, 5, 3, 0, .ro⟩
/-- R307. MF_STATUS.MNUM [12:8]. -/
def MF_STATUS_MNUM : Fld := ⟨.tile, 0x86b00, 8, 1, 8, 5, 0, .ro⟩
/-- R307. MF_CARRY.COUNT [31:0]. -/
def MF_CARRY_COUNT : Fld := ⟨.tile, 0x86b08, 8, 1, 0, 32, 0, .ro⟩
/-- R307. MF_CARRY.RUN [39:32]. -/
def MF_CARRY_RUN : Fld := ⟨.tile, 0x86b08, 8, 1, 32, 8, 0, .ro⟩
/-- R307. MF_CARRY_MAX.COUNT [31:0]. -/
def MF_CARRY_MAX_COUNT : Fld := ⟨.tile, 0x86b10, 8, 1, 0, 32, 0, .rc⟩
/-- R307. MF_SAMP_RECORDS.RECORDS [47:0]. -/
def MF_SAMP_RECORDS_RECORDS : Fld := ⟨.tile, 0x86b18, 8, 1, 0, 48, 0, .ro⟩
/-- R307. MF_SAMP_PADS.RECORDS [47:0]. -/
def MF_SAMP_PADS_RECORDS : Fld := ⟨.tile, 0x86b20, 8, 1, 0, 48, 0, .ro⟩
/-- R307. MF_SAMP_READS.READS [47:0]. -/
def MF_SAMP_READS_READS : Fld := ⟨.tile, 0x86b28, 8, 1, 0, 48, 0, .ro⟩
/-- R307. MF_REQS.REQUESTS [47:0]. -/
def MF_REQS_REQUESTS : Fld := ⟨.tile, 0x86b30, 8, 1, 0, 48, 0, .ro⟩
/-- R307. MF_CARRIED.REQUESTS [47:0]. -/
def MF_CARRIED_REQUESTS : Fld := ⟨.tile, 0x86b38, 8, 1, 0, 48, 0, .ro⟩
/-- R307. MF_CARRY_RUNS.RUNS [47:0]. -/
def MF_CARRY_RUNS_RUNS : Fld := ⟨.tile, 0x86b40, 8, 1, 0, 48, 0, .ro⟩
/-- R307. MF_REV_ROWS.ROWS [47:0]. -/
def MF_REV_ROWS_ROWS : Fld := ⟨.tile, 0x86b48, 8, 1, 0, 48, 0, .ro⟩
/-- R307. MF_SERVED.ROWS [47:0]. -/
def MF_SERVED_ROWS : Fld := ⟨.tile, 0x86b50, 8, 1, 0, 48, 0, .ro⟩
/-- R307. MF_ADDS.FLITS [47:0]. -/
def MF_ADDS_FLITS : Fld := ⟨.tile, 0x86b58, 8, 1, 0, 48, 0, .ro⟩
/-- R307. MF_WAIT_TC.TC [47:0]. -/
def MF_WAIT_TC_TC : Fld := ⟨.tile, 0x86b60, 8, 1, 0, 48, 0, .ro⟩
/-- R307. MF_MT_CTL.FX [7:0]. -/
def MF_MT_CTL_FX : Fld := ⟨.tile, 0x86c00, 32, 32, 0, 8, 0, .rw⟩
/-- R307. MF_MT_CTL.RX [15:8]. -/
def MF_MT_CTL_RX : Fld := ⟨.tile, 0x86c00, 32, 32, 8, 8, 0, .rw⟩
/-- R307. MF_MT_CTL.VALID [16]. -/
def MF_MT_CTL_VALID : Fld := ⟨.tile, 0x86c00, 32, 32, 16, 1, 0, .rw⟩
/-- R307. MF_MT_CTL.KIND [17]. -/
def MF_MT_CTL_KIND : Fld := ⟨.tile, 0x86c00, 32, 32, 17, 1, 0, .rw⟩
/-- R307. MF_MT_CTL.REV [18]. -/
def MF_MT_CTL_REV : Fld := ⟨.tile, 0x86c00, 32, 32, 18, 1, 0, .rw⟩
/-- R307. MF_MT_CTL.REQ [19]. -/
def MF_MT_CTL_REQ : Fld := ⟨.tile, 0x86c00, 32, 32, 19, 1, 0, .rw⟩
/-- R307. MF_MT_CTL.DST [20]. -/
def MF_MT_CTL_DST : Fld := ⟨.tile, 0x86c00, 32, 32, 20, 1, 0, .rw⟩
/-- R307. MF_MT_CTL.DIDX [43:32]. -/
def MF_MT_CTL_DIDX : Fld := ⟨.tile, 0x86c00, 32, 32, 32, 12, 0, .rw⟩
/-- R307. MF_MT_GEOM.SLOTS [12:0]. -/
def MF_MT_GEOM_SLOTS : Fld := ⟨.tile, 0x86c08, 32, 32, 0, 13, 0, .rw⟩
/-- R307. MF_MT_GEOM.ROWBYTES [25:13]. -/
def MF_MT_GEOM_ROWBYTES : Fld := ⟨.tile, 0x86c08, 32, 32, 13, 13, 0, .rw⟩
/-- R307. MF_MT_GEOM.RBYTES [38:26]. -/
def MF_MT_GEOM_RBYTES : Fld := ⟨.tile, 0x86c08, 32, 32, 26, 13, 0, .rw⟩
/-- R307. MF_MT_GEOM.NDST [50:39]. -/
def MF_MT_GEOM_NDST : Fld := ⟨.tile, 0x86c08, 32, 32, 39, 12, 0, .rw⟩
/-- R307. MF_MT_BOUND.PER [31:0]. -/
def MF_MT_BOUND_PER : Fld := ⟨.tile, 0x86c10, 32, 32, 0, 32, 0, .rw⟩
/-- R307. MF_MT_BOUND.CARRY_BOUND [63:32]. -/
def MF_MT_BOUND_CARRY_BOUND : Fld := ⟨.tile, 0x86c10, 32, 32, 32, 32, 0, .rw⟩
/-- R307. MF_MT_AREA.SERVE [12:0]. -/
def MF_MT_AREA_SERVE : Fld := ⟨.tile, 0x86c18, 32, 32, 0, 13, 0, .rw⟩
/-- R307. MF_MT_AREA.GRAD [25:13]. -/
def MF_MT_AREA_GRAD : Fld := ⟨.tile, 0x86c18, 32, 32, 13, 13, 0, .rw⟩
/-- R307. MF_MT_AREA.STAGE [38:26]. -/
def MF_MT_AREA_STAGE : Fld := ⟨.tile, 0x86c18, 32, 32, 26, 13, 0, .rw⟩
/-- R307. MF_MT_AREA.SSTAGE [51:39]. -/
def MF_MT_AREA_SSTAGE : Fld := ⟨.tile, 0x86c18, 32, 32, 39, 13, 0, .rw⟩
/-- R336. QR_PIN_A.BANDS [11:0]. -/
def QR_PIN_A_BANDS : Fld := ⟨.dev, 0x5000, 16, 4, 0, 12, 0, .rw⟩
/-- R336. QR_PIN_A.EN [12]. -/
def QR_PIN_A_EN : Fld := ⟨.dev, 0x5000, 16, 4, 12, 1, 0, .rw⟩
/-- R336. QR_PIN_A.REFUSED [13]. -/
def QR_PIN_A_REFUSED : Fld := ⟨.dev, 0x5000, 16, 4, 13, 1, 0, .ro⟩
/-- R336. QR_PIN_A.PBASE [40:16]. -/
def QR_PIN_A_PBASE : Fld := ⟨.dev, 0x5000, 16, 4, 16, 25, 0, .rw⟩
/-- R336. QR_PIN_B.SBASE [19:0]. -/
def QR_PIN_B_SBASE : Fld := ⟨.dev, 0x5008, 16, 4, 0, 20, 0, .rw⟩
/-- R336. QR_PIN_B.NSTRIPES [39:20]. -/
def QR_PIN_B_NSTRIPES : Fld := ⟨.dev, 0x5008, 16, 4, 20, 20, 0, .rw⟩
/-- R337. Q_STATUS.TRAINED [0]. -/
def Q_STATUS_TRAINED : Fld := ⟨.quay, 0x0, 8, 1, 0, 1, 0, .ro⟩
/-- R337. Q_STATUS.SELFREF [1]. -/
def Q_STATUS_SELFREF : Fld := ⟨.quay, 0x0, 8, 1, 1, 1, 0, .ro⟩
/-- R337. Q_STATUS.TIMED [2]. -/
def Q_STATUS_TIMED : Fld := ⟨.quay, 0x0, 8, 1, 2, 1, 0, .ro⟩
/-- R337. Q_STATUS.DEBT [6:3]. -/
def Q_STATUS_DEBT : Fld := ⟨.quay, 0x0, 8, 1, 3, 4, 0, .ro⟩
/-- R337. Q_STATUS.HOT [7]. -/
def Q_STATUS_HOT : Fld := ⟨.quay, 0x0, 8, 1, 7, 1, 0, .ro⟩
/-- R337. Q_STATUS.TEMP [15:8]. -/
def Q_STATUS_TEMP : Fld := ⟨.quay, 0x0, 8, 1, 8, 8, 0, .ro⟩
/-- R337. Q_RD_BYTES.BYTES [47:0]. -/
def Q_RD_BYTES_BYTES : Fld := ⟨.quay, 0x8, 8, 1, 0, 48, 0, .ro⟩
/-- R337. Q_WR_BYTES.BYTES [47:0]. -/
def Q_WR_BYTES_BYTES : Fld := ⟨.quay, 0x10, 8, 1, 0, 48, 0, .ro⟩
/-- R337. Q_TIMED_BYTES.BYTES [47:0]. -/
def Q_TIMED_BYTES_BYTES : Fld := ⟨.quay, 0x18, 8, 1, 0, 48, 0, .ro⟩
/-- R337. Q_PUSH_BYTES.BYTES [47:0]. -/
def Q_PUSH_BYTES_BYTES : Fld := ⟨.quay, 0x20, 8, 1, 0, 48, 0, .ro⟩
/-- R337. Q_RING_BYTES.BYTES [47:0]. -/
def Q_RING_BYTES_BYTES : Fld := ⟨.quay, 0x28, 8, 1, 0, 48, 0, .ro⟩
/-- R337. Q_ADD_FLITS.FLITS [47:0]. -/
def Q_ADD_FLITS_FLITS : Fld := ⟨.quay, 0x30, 8, 1, 0, 48, 0, .ro⟩
/-- R337. Q_REFRESH_WIN.COUNT [47:0]. -/
def Q_REFRESH_WIN_COUNT : Fld := ⟨.quay, 0x38, 8, 1, 0, 48, 0, .ro⟩
/-- R337. Q_REFRESH_FORCED.COUNT [47:0]. -/
def Q_REFRESH_FORCED_COUNT : Fld := ⟨.quay, 0x40, 8, 1, 0, 48, 0, .ro⟩
/-- R337. Q_STAGE_SHORT.COUNT [47:0]. -/
def Q_STAGE_SHORT_COUNT : Fld := ⟨.quay, 0x48, 8, 1, 0, 48, 0, .ro⟩
/-- R337. Q_WAB_FILL.BLOCKS [11:0]. -/
def Q_WAB_FILL_BLOCKS : Fld := ⟨.quay, 0x50, 8, 1, 0, 12, 0, .ro⟩
/-- R337. Q_WAB_FILL.FULL [12]. -/
def Q_WAB_FILL_FULL : Fld := ⟨.quay, 0x50, 8, 1, 12, 1, 0, .ro⟩
/-- R337. Q_WAB_MAX.BLOCKS [11:0]. -/
def Q_WAB_MAX_BLOCKS : Fld := ⟨.quay, 0x58, 8, 1, 0, 12, 0, .rc⟩
/-- R337. Q_WAB_MAX.FULL [12]. -/
def Q_WAB_MAX_FULL : Fld := ⟨.quay, 0x58, 8, 1, 12, 1, 0, .rc⟩
/-- R337. Q_ECC_CORR.BLOCKS [47:0]. -/
def Q_ECC_CORR_BLOCKS : Fld := ⟨.quay, 0x60, 8, 1, 0, 48, 0, .ro⟩
/-- R337. Q_ECC_UNCORR.BLOCKS [47:0]. -/
def Q_ECC_UNCORR_BLOCKS : Fld := ⟨.quay, 0x68, 8, 1, 0, 48, 0, .ro⟩
/-- R337. Q_ECC_LAST.BLOCK [25:0]. -/
def Q_ECC_LAST_BLOCK : Fld := ⟨.quay, 0x70, 8, 1, 0, 26, 0, .ro⟩
/-- R337. Q_ECC_LAST.UNCORR [26]. -/
def Q_ECC_LAST_UNCORR : Fld := ⟨.quay, 0x70, 8, 1, 26, 1, 0, .ro⟩
/-- R337. Q_ECC_LAST.READER [29:27]. -/
def Q_ECC_LAST_READER : Fld := ⟨.quay, 0x70, 8, 1, 27, 3, 0, .ro⟩
/-- R337. Q_ECC_LAST.VALID [31]. -/
def Q_ECC_LAST_VALID : Fld := ⟨.quay, 0x70, 8, 1, 31, 1, 0, .rc⟩
/-- R337. Q_ECC_LAST.SYNDROME [47:32]. -/
def Q_ECC_LAST_SYNDROME : Fld := ⟨.quay, 0x70, 8, 1, 32, 16, 0, .ro⟩
/-- R337. Q_EDC_RETRY.COUNT [47:0]. -/
def Q_EDC_RETRY_COUNT : Fld := ⟨.quay, 0x78, 8, 1, 0, 48, 0, .ro⟩
/-- R337. Q_PUSH_CREDIT_WAIT.QC [47:0]. -/
def Q_PUSH_CREDIT_WAIT_QC : Fld := ⟨.quay, 0x80, 8, 1, 0, 48, 0, .ro⟩
/-- R337. Q_TPL.RBASE [5:0]. -/
def Q_TPL_RBASE : Fld := ⟨.quay, 0x1000, 32, 256, 0, 6, 0, .rw⟩
/-- R337. Q_TPL.RSIZE [11:6]. -/
def Q_TPL_RSIZE : Fld := ⟨.quay, 0x1000, 32, 256, 6, 6, 0, .rw⟩
/-- R337. Q_TPL.VALID [15]. -/
def Q_TPL_VALID : Fld := ⟨.quay, 0x1000, 32, 256, 15, 1, 0, .rw⟩
/-- R337. Q_TPL.TEMPLATE [255:16]. -/
def Q_TPL_TEMPLATE : Fld := ⟨.quay, 0x1000, 32, 256, 16, 240, 0, .rw⟩
/-- R337. Q_RWIN.FIRST [10:0]. -/
def Q_RWIN_FIRST : Fld := ⟨.quay, 0x3000, 8, 256, 0, 11, 0, .rw⟩
/-- R337. Q_RWIN.PERIOD [21:11]. -/
def Q_RWIN_PERIOD : Fld := ⟨.quay, 0x3000, 8, 256, 11, 11, 0, .rw⟩
/-- R337. Q_RWIN.LEN [29:22]. -/
def Q_RWIN_LEN : Fld := ⟨.quay, 0x3000, 8, 256, 22, 8, 0, .rw⟩
/-- R337. Q_RWIN.EN [30]. -/
def Q_RWIN_EN : Fld := ⟨.quay, 0x3000, 8, 256, 30, 1, 0, .rw⟩
/-- R361. L_STATUS.RUN [0]. -/
def L_STATUS_RUN : Fld := ⟨.core, 0x0, 8, 1, 0, 1, 0, .ro⟩
/-- R361. L_STATUS.SUPER [1]. -/
def L_STATUS_SUPER : Fld := ⟨.core, 0x0, 8, 1, 1, 1, 1, .ro⟩
/-- R361. L_STATUS.TASK [7:2]. -/
def L_STATUS_TASK : Fld := ⟨.core, 0x0, 8, 1, 2, 6, 0, .ro⟩
/-- R361. L_STATUS.STALLED [8]. -/
def L_STATUS_STALLED : Fld := ⟨.core, 0x0, 8, 1, 8, 1, 0, .ro⟩
/-- R361. L_FAULT.CODE [7:0]. -/
def L_FAULT_CODE : Fld := ⟨.core, 0x8, 8, 1, 0, 8, 0, .ro⟩
/-- R361. L_FAULT.TASK [13:8]. -/
def L_FAULT_TASK : Fld := ⟨.core, 0x8, 8, 1, 8, 6, 0, .ro⟩
/-- R361. L_FAULT.SUPER [14]. -/
def L_FAULT_SUPER : Fld := ⟨.core, 0x8, 8, 1, 14, 1, 0, .ro⟩
/-- R361. L_FAULT.MORE [15]. -/
def L_FAULT_MORE : Fld := ⟨.core, 0x8, 8, 1, 15, 1, 0, .ro⟩
/-- R361. L_FAULT.DETAIL [31:16]. -/
def L_FAULT_DETAIL : Fld := ⟨.core, 0x8, 8, 1, 16, 16, 0, .ro⟩
/-- R361. L_FAULT.VALID [63]. -/
def L_FAULT_VALID : Fld := ⟨.core, 0x8, 8, 1, 63, 1, 0, .rc⟩
/-- R361. L_FAULT_ADDR.ADDR [63:0]. -/
def L_FAULT_ADDR_ADDR : Fld := ⟨.core, 0x10, 8, 1, 0, 64, 0, .ro⟩
/-- R361. L_SOWAIT.OBJ [12:0]. -/
def L_SOWAIT_OBJ : Fld := ⟨.core, 0x18, 8, 1, 0, 13, 0, .wo⟩
/-- R361. L_SOWAIT_RESULT.RESULT [1:0]. -/
def L_SOWAIT_RESULT_RESULT : Fld := ⟨.core, 0x20, 8, 1, 0, 2, 0, .ro⟩
/-- R361. L_SOWAIT_LIMIT.LC [31:0]. -/
def L_SOWAIT_LIMIT_LC : Fld := ⟨.core, 0x28, 8, 1, 0, 32, 0, .rw⟩
/-- R361. L_CRED_REQ.TILE [11:0]. -/
def L_CRED_REQ_TILE : Fld := ⟨.core, 0x30, 8, 1, 0, 12, 0, .wo⟩
/-- R361. L_CRED_REQ.SLIP [16:12]. -/
def L_CRED_REQ_SLIP : Fld := ⟨.core, 0x30, 8, 1, 12, 5, 0, .wo⟩
/-- R361. L_CRED_REQ.BYTES [36:17]. -/
def L_CRED_REQ_BYTES : Fld := ⟨.core, 0x30, 8, 1, 17, 20, 0, .wo⟩
/-- R361. L_CRED_RESULT.CODE [3:0]. -/
def L_CRED_RESULT_CODE : Fld := ⟨.core, 0x38, 8, 1, 0, 4, 0, .ro⟩
/-- R361. L_CRED_RESULT.RECORD [7:4]. -/
def L_CRED_RESULT_RECORD : Fld := ⟨.core, 0x38, 8, 1, 4, 4, 0, .ro⟩
/-- R361. L_CYCLE.LC [63:0]. -/
def L_CYCLE_LC : Fld := ⟨.core, 0x100, 8, 1, 0, 64, 0, .ro⟩
/-- R361. L_MEM_WAIT_LC.LC [47:0]. -/
def L_MEM_WAIT_LC_LC : Fld := ⟨.core, 0x108, 8, 1, 0, 48, 0, .ro⟩
/-- R361. L_SOWAIT_LC.LC [47:0]. -/
def L_SOWAIT_LC_LC : Fld := ⟨.core, 0x110, 8, 1, 0, 48, 0, .ro⟩
/-- R361. L_PF.COUNT [47:0]. -/
def L_PF_COUNT : Fld := ⟨.core, 0x200, 8, 7, 0, 48, 0, .ro⟩
/-- R361. L_STRM_BASE.BASE [47:0]. -/
def L_STRM_BASE_BASE : Fld := ⟨.core, 0x400, 32, 8, 0, 48, 0, .rw⟩
/-- R361. L_STRM_SHAPE.ROWLINES [15:0]. -/
def L_STRM_SHAPE_ROWLINES : Fld := ⟨.core, 0x408, 32, 8, 0, 16, 0, .rw⟩
/-- R361. L_STRM_SHAPE.ROWS [47:16]. -/
def L_STRM_SHAPE_ROWS : Fld := ⟨.core, 0x408, 32, 8, 16, 32, 0, .rw⟩
/-- R361. L_STRM_STRIDE.STRIDE [39:0]. -/
def L_STRM_STRIDE_STRIDE : Fld := ⟨.core, 0x410, 32, 8, 0, 40, 0, .rw⟩
/-- R361. L_STRM_CTL.GO [0]. -/
def L_STRM_CTL_GO : Fld := ⟨.core, 0x418, 32, 8, 0, 1, 0, .wo⟩
/-- R361. L_STRM_CTL.DIR [1]. -/
def L_STRM_CTL_DIR : Fld := ⟨.core, 0x418, 32, 8, 1, 1, 0, .rw⟩
/-- R361. L_STRM_CTL.ACTIVE [2]. -/
def L_STRM_CTL_ACTIVE : Fld := ⟨.core, 0x418, 32, 8, 2, 1, 0, .ro⟩
/-- R361. L_STRM_CTL.LEAD [11:3]. -/
def L_STRM_CTL_LEAD : Fld := ⟨.core, 0x418, 32, 8, 3, 9, 0, .rw⟩
/-- R361. L_STRM_CTL.CANCEL [12]. -/
def L_STRM_CTL_CANCEL : Fld := ⟨.core, 0x418, 32, 8, 12, 1, 0, .wo⟩
/-- R361. L_RNG_DATA.BITS [63:0]. -/
def L_RNG_DATA_BITS : Fld := ⟨.core, 0xf00, 8, 1, 0, 64, 0, .ro⟩
/-- R362. L_CFG.LSRAM [4:0]. -/
def L_CFG_LSRAM : Fld := ⟨.cluster, 0x0, 8, 1, 0, 5, 0, .rw⟩
/-- R362. L_EPOCH.EPOCH [31:0]. -/
def L_EPOCH_EPOCH : Fld := ⟨.cluster, 0x8, 8, 1, 0, 32, 0, .rw⟩
/-- R362. L_EPOCH.LIVE [32]. -/
def L_EPOCH_LIVE : Fld := ⟨.cluster, 0x8, 8, 1, 32, 1, 0, .rw⟩
/-- R362. L_EPOCH_FLIPS.COUNT [47:0]. -/
def L_EPOCH_FLIPS_COUNT : Fld := ⟨.cluster, 0x10, 8, 1, 0, 48, 0, .ro⟩
/-- R362. L_CACHE_OP_A.BASE [47:6]. -/
def L_CACHE_OP_A_BASE : Fld := ⟨.cluster, 0x18, 8, 1, 6, 42, 0, .rw⟩
/-- R362. L_CACHE_OP_B.LINES [33:0]. -/
def L_CACHE_OP_B_LINES : Fld := ⟨.cluster, 0x20, 8, 1, 0, 34, 0, .rw⟩
/-- R362. L_CACHE_OP_B.OP [35:34]. -/
def L_CACHE_OP_B_OP : Fld := ⟨.cluster, 0x20, 8, 1, 34, 2, 0, .rw⟩
/-- R362. L_CACHE_OP_B.GO [36]. -/
def L_CACHE_OP_B_GO : Fld := ⟨.cluster, 0x20, 8, 1, 36, 1, 0, .wo⟩
/-- R362. L_CACHE_OP_B.DONE [37]. -/
def L_CACHE_OP_B_DONE : Fld := ⟨.cluster, 0x20, 8, 1, 37, 1, 1, .ro⟩
/-- R362. L_ECC_CORR.WORDS [47:0]. -/
def L_ECC_CORR_WORDS : Fld := ⟨.cluster, 0x30, 8, 1, 0, 48, 0, .ro⟩
/-- R362. L_ECC_UNCORR.WORDS [47:0]. -/
def L_ECC_UNCORR_WORDS : Fld := ⟨.cluster, 0x38, 8, 1, 0, 48, 0, .ro⟩
/-- R362. L_ECC_LAST.LINE [47:6]. -/
def L_ECC_LAST_LINE : Fld := ⟨.cluster, 0x40, 8, 1, 6, 42, 0, .ro⟩
/-- R362. L_ECC_LAST.LOCKED [48]. -/
def L_ECC_LAST_LOCKED : Fld := ⟨.cluster, 0x40, 8, 1, 48, 1, 0, .ro⟩
/-- R362. L_ECC_LAST.VALID [63]. -/
def L_ECC_LAST_VALID : Fld := ⟨.cluster, 0x40, 8, 1, 63, 1, 0, .rc⟩
/-- R362. L_WIN_A.VBASE [35:0]. -/
def L_WIN_A_VBASE : Fld := ⟨.cluster, 0x1000, 16, 64, 0, 36, 0, .rw⟩
/-- R362. L_WIN_A.SIZE [63:36]. -/
def L_WIN_A_SIZE : Fld := ⟨.cluster, 0x1000, 16, 64, 36, 28, 0, .rw⟩
/-- R362. L_WIN_B.PBASE [35:0]. -/
def L_WIN_B_PBASE : Fld := ⟨.cluster, 0x1008, 16, 64, 0, 36, 0, .rw⟩
/-- R362. L_WIN_B.TASK [41:36]. -/
def L_WIN_B_TASK : Fld := ⟨.cluster, 0x1008, 16, 64, 36, 6, 0, .rw⟩
/-- R362. L_WIN_B.R [42]. -/
def L_WIN_B_R : Fld := ⟨.cluster, 0x1008, 16, 64, 42, 1, 0, .rw⟩
/-- R362. L_WIN_B.W [43]. -/
def L_WIN_B_W : Fld := ⟨.cluster, 0x1008, 16, 64, 43, 1, 0, .rw⟩
/-- R362. L_WIN_B.X [44]. -/
def L_WIN_B_X : Fld := ⟨.cluster, 0x1008, 16, 64, 44, 1, 0, .rw⟩
/-- R362. L_WIN_B.EN [63]. -/
def L_WIN_B_EN : Fld := ⟨.cluster, 0x1008, 16, 64, 63, 1, 0, .rw⟩
/-- R392. SV_STATUS.BUSY [0]. -/
def SV_STATUS_BUSY : Fld := ⟨.tile, 0x80500, 8, 1, 0, 1, 0, .ro⟩
/-- R392. SV_STATUS.QUEUED [2:1]. -/
def SV_STATUS_QUEUED : Fld := ⟨.tile, 0x80500, 8, 1, 1, 2, 0, .ro⟩
/-- R392. SV_HISTS.COUNT [47:0]. -/
def SV_HISTS_COUNT : Fld := ⟨.tile, 0x80508, 8, 1, 0, 48, 0, .ro⟩
/-- R392. SV_DRAWS.COUNT [47:0]. -/
def SV_DRAWS_COUNT : Fld := ⟨.tile, 0x80510, 8, 1, 0, 48, 0, .ro⟩
/-- R392. SV_POSTED.COUNT [47:0]. -/
def SV_POSTED_COUNT : Fld := ⟨.tile, 0x80518, 8, 1, 0, 48, 0, .ro⟩
/-- R392. SV_TIE.COUNT [47:0]. -/
def SV_TIE_COUNT : Fld := ⟨.tile, 0x80520, 8, 1, 0, 48, 0, .ro⟩
/-- R392. SV_TRUNC.COUNT [47:0]. -/
def SV_TRUNC_COUNT : Fld := ⟨.tile, 0x80528, 8, 1, 0, 48, 0, .ro⟩
/-- R392. SV_NEGINF.COUNT [47:0]. -/
def SV_NEGINF_COUNT : Fld := ⟨.tile, 0x80530, 8, 1, 0, 48, 0, .ro⟩
/-- R392. SV_TC.TC [47:0]. -/
def SV_TC_TC : Fld := ⟨.tile, 0x80538, 8, 1, 0, 48, 0, .ro⟩
/-- R393. ROS_CTL.EN [0]. -/
def ROS_CTL_EN : Fld := ⟨.dev, 0x6000, 8, 1, 0, 1, 0, .rw⟩
/-- R393. ROS_CTL.BUILD [1]. -/
def ROS_CTL_BUILD : Fld := ⟨.dev, 0x6000, 8, 1, 1, 1, 0, .wo⟩
/-- R393. ROS_CTL.FINALIZE [2]. -/
def ROS_CTL_FINALIZE : Fld := ⟨.dev, 0x6000, 8, 1, 2, 1, 0, .wo⟩
/-- R393. ROS_CTL.ESTOP [3]. -/
def ROS_CTL_ESTOP : Fld := ⟨.dev, 0x6000, 8, 1, 3, 1, 0, .rw⟩
/-- R393. ROS_STATUS.PHASE [1:0]. -/
def ROS_STATUS_PHASE : Fld := ⟨.dev, 0x6008, 8, 1, 0, 2, 0, .ro⟩
/-- R393. ROS_STATUS.LOGWAIT [2]. -/
def ROS_STATUS_LOGWAIT : Fld := ⟨.dev, 0x6008, 8, 1, 2, 1, 0, .ro⟩
/-- R393. ROS_STATUS.PENDING [63:32]. -/
def ROS_STATUS_PENDING : Fld := ⟨.dev, 0x6008, 8, 1, 32, 32, 0, .ro⟩
/-- R393. ROS_LISTNO.CURRENT [31:0]. -/
def ROS_LISTNO_CURRENT : Fld := ⟨.dev, 0x6010, 8, 1, 0, 32, 0, .ro⟩
/-- R393. ROS_WL_BASE.BASE [47:0]. -/
def ROS_WL_BASE_BASE : Fld := ⟨.dev, 0x6018, 8, 1, 0, 48, 0, .rw⟩
/-- R393. ROS_WL_GEOM.NLANES [11:0]. -/
def ROS_WL_GEOM_NLANES : Fld := ⟨.dev, 0x6020, 8, 1, 0, 12, 0, .rw⟩
/-- R393. ROS_WL_GEOM.SEQCAP [22:12]. -/
def ROS_WL_GEOM_SEQCAP : Fld := ⟨.dev, 0x6020, 8, 1, 12, 11, 0, .rw⟩
/-- R393. ROS_WL_GEOM.PAGECAP [39:23]. -/
def ROS_WL_GEOM_PAGECAP : Fld := ⟨.dev, 0x6020, 8, 1, 23, 17, 0, .rw⟩
/-- R393. ROS_BUCKET.BOUND [63:0]. -/
def ROS_BUCKET_BOUND : Fld := ⟨.dev, 0x6028, 8, 4, 0, 64, 0, .rw⟩
/-- R393. ROS_POOL_BASE.BASE [47:0]. -/
def ROS_POOL_BASE_BASE : Fld := ⟨.dev, 0x6048, 8, 1, 0, 48, 0, .rw⟩
/-- R393. ROS_POOL_CFG.NPAGES [31:0]. -/
def ROS_POOL_CFG_NPAGES : Fld := ⟨.dev, 0x6050, 8, 1, 0, 32, 0, .rw⟩
/-- R393. ROS_POOL_CFG.SIZE [55:32]. -/
def ROS_POOL_CFG_SIZE : Fld := ⟨.dev, 0x6050, 8, 1, 32, 24, 0, .rw⟩
/-- R393. ROS_POOL_FILL.FILL [23:0]. -/
def ROS_POOL_FILL_FILL : Fld := ⟨.dev, 0x6058, 8, 1, 0, 24, 0, .ro⟩
/-- R393. ROS_POOL_FILL.REJECT [24]. -/
def ROS_POOL_FILL_REJECT : Fld := ⟨.dev, 0x6058, 8, 1, 24, 1, 0, .w1c⟩
/-- R393. ROS_POOL_PUSH.PAGE [31:0]. -/
def ROS_POOL_PUSH_PAGE : Fld := ⟨.dev, 0x6060, 8, 1, 0, 32, 0, .wo⟩
/-- R393. ROS_POOL_POP.PAGE [31:0]. -/
def ROS_POOL_POP_PAGE : Fld := ⟨.dev, 0x6068, 8, 1, 0, 32, 0, .ro⟩
/-- R393. ROS_LOG_BASE.BASE [47:0]. -/
def ROS_LOG_BASE_BASE : Fld := ⟨.dev, 0x6070, 8, 1, 0, 48, 0, .rw⟩
/-- R393. ROS_LOG_CFG.SIZE [23:0]. -/
def ROS_LOG_CFG_SIZE : Fld := ⟨.dev, 0x6078, 8, 1, 0, 24, 0, .rw⟩
/-- R393. ROS_LOG_HEAD.COUNT [31:0]. -/
def ROS_LOG_HEAD_COUNT : Fld := ⟨.dev, 0x6080, 8, 1, 0, 32, 0, .ro⟩
/-- R393. ROS_LOG_TAIL.COUNT [31:0]. -/
def ROS_LOG_TAIL_COUNT : Fld := ⟨.dev, 0x6088, 8, 1, 0, 32, 0, .rw⟩
/-- R393. ROS_DONE_OBJ.OBJ [12:0]. -/
def ROS_DONE_OBJ_OBJ : Fld := ⟨.dev, 0x6090, 8, 1, 0, 13, 0, .rw⟩
/-- R393. ROS_DONE_OBJ.EN [13]. -/
def ROS_DONE_OBJ_EN : Fld := ⟨.dev, 0x6090, 8, 1, 13, 1, 0, .rw⟩
/-- R393. ROS_CMD.SLOT [13:0]. -/
def ROS_CMD_SLOT : Fld := ⟨.dev, 0x6098, 8, 1, 0, 14, 0, .rw⟩
/-- R393. ROS_CMD.OP [16:14]. -/
def ROS_CMD_OP : Fld := ⟨.dev, 0x6098, 8, 1, 14, 3, 0, .rw⟩
/-- R393. ROS_CMD.GO [17]. -/
def ROS_CMD_GO : Fld := ⟨.dev, 0x6098, 8, 1, 17, 1, 0, .wo⟩
/-- R393. ROS_CMD.DONE [18]. -/
def ROS_CMD_DONE : Fld := ⟨.dev, 0x6098, 8, 1, 18, 1, 1, .ro⟩
/-- R393. ROS_CMD.RESULT [21:19]. -/
def ROS_CMD_RESULT : Fld := ⟨.dev, 0x6098, 8, 1, 19, 3, 0, .ro⟩
/-- R393. ROS_LISTS.COUNT [47:0]. -/
def ROS_LISTS_COUNT : Fld := ⟨.dev, 0x60a0, 8, 1, 0, 48, 0, .ro⟩
/-- R393. ROS_COMMITS.COUNT [47:0]. -/
def ROS_COMMITS_COUNT : Fld := ⟨.dev, 0x60a8, 8, 1, 0, 48, 0, .ro⟩
/-- R393. ROS_REFUSED.COUNT [47:0]. -/
def ROS_REFUSED_COUNT : Fld := ⟨.dev, 0x60b0, 8, 1, 0, 48, 0, .ro⟩
/-- R393. ROS_VOIDED.COUNT [47:0]. -/
def ROS_VOIDED_COUNT : Fld := ⟨.dev, 0x60b8, 8, 1, 0, 48, 0, .ro⟩
/-- R393. ROS_DEFERRED.COUNT [47:0]. -/
def ROS_DEFERRED_COUNT : Fld := ⟨.dev, 0x60c0, 8, 1, 0, 48, 0, .ro⟩
/-- R393. ROS_STARVED.COUNT [47:0]. -/
def ROS_STARVED_COUNT : Fld := ⟨.dev, 0x60c8, 8, 1, 0, 48, 0, .ro⟩
/-- R393. ROS_PAGES_ALLOC.COUNT [47:0]. -/
def ROS_PAGES_ALLOC_COUNT : Fld := ⟨.dev, 0x60d0, 8, 1, 0, 48, 0, .ro⟩
/-- R393. ROS_BUILD_QC.QC [31:0]. -/
def ROS_BUILD_QC_QC : Fld := ⟨.dev, 0x60d8, 8, 1, 0, 32, 0, .ro⟩
/-- R393. ROS_LOG_WAIT_QC.QC [47:0]. -/
def ROS_LOG_WAIT_QC_QC : Fld := ⟨.dev, 0x60e0, 8, 1, 0, 48, 0, .ro⟩
/-- R426. CF_STATUS.BUSY [0]. -/
def CF_STATUS_BUSY : Fld := ⟨.eng, 0x0, 8, 1, 0, 1, 0, .ro⟩
/-- R426. CF_STATUS.PHASE [3:1]. -/
def CF_STATUS_PHASE : Fld := ⟨.eng, 0x0, 8, 1, 1, 3, 0, .ro⟩
/-- R426. CF_STATUS.QUEUED [7:4]. -/
def CF_STATUS_QUEUED : Fld := ⟨.eng, 0x0, 8, 1, 4, 4, 0, .ro⟩
/-- R426. CF_STATUS.DROPPED [8]. -/
def CF_STATUS_DROPPED : Fld := ⟨.eng, 0x0, 8, 1, 8, 1, 0, .w1c⟩
/-- R426. CF_POST.ADDR [47:0]. -/
def CF_POST_ADDR : Fld := ⟨.eng, 0x8, 8, 1, 0, 48, 0, .wo⟩
/-- R426. CF_CUR.COLLID [31:0]. -/
def CF_CUR_COLLID : Fld := ⟨.eng, 0x10, 8, 1, 0, 32, 0, .ro⟩
/-- R426. CF_CUR.RERUN [34:32]. -/
def CF_CUR_RERUN : Fld := ⟨.eng, 0x10, 8, 1, 32, 3, 0, .ro⟩
/-- R426. CF_LAST.VERDICT [7:0]. -/
def CF_LAST_VERDICT : Fld := ⟨.eng, 0x18, 8, 1, 0, 8, 0, .ro⟩
/-- R426. CF_LAST.RERUNS [10:8]. -/
def CF_LAST_RERUNS : Fld := ⟨.eng, 0x18, 8, 1, 8, 3, 0, .ro⟩
/-- R426. CF_LAST.EXCESS [13:11]. -/
def CF_LAST_EXCESS : Fld := ⟨.eng, 0x18, 8, 1, 11, 3, 0, .ro⟩
/-- R426. CF_LAST.DETAIL [31:16]. -/
def CF_LAST_DETAIL : Fld := ⟨.eng, 0x18, 8, 1, 16, 16, 0, .ro⟩
/-- R426. CF_LAST.COLLID [63:32]. -/
def CF_LAST_COLLID : Fld := ⟨.eng, 0x18, 8, 1, 32, 32, 0, .ro⟩
/-- R426. CF_ABORT.ABORT [0]. -/
def CF_ABORT_ABORT : Fld := ⟨.eng, 0x20, 8, 1, 0, 1, 0, .wo⟩
/-- R426. CF_CHAN_A.KIND [2:0]. -/
def CF_CHAN_A_KIND : Fld := ⟨.eng, 0x100, 16, 16, 0, 3, 0, .rw⟩
/-- R426. CF_CHAN_A.EN [3]. -/
def CF_CHAN_A_EN : Fld := ⟨.eng, 0x100, 16, 16, 3, 1, 0, .rw⟩
/-- R426. CF_CHAN_A.ERR [7:4]. -/
def CF_CHAN_A_ERR : Fld := ⟨.eng, 0x100, 16, 16, 4, 4, 0, .ro⟩
/-- R426. CF_CHAN_A.PEER [18:8]. -/
def CF_CHAN_A_PEER : Fld := ⟨.eng, 0x100, 16, 16, 8, 11, 0, .rw⟩
/-- R426. CF_CHAN_A.TILE [31:20]. -/
def CF_CHAN_A_TILE : Fld := ⟨.eng, 0x100, 16, 16, 20, 12, 0, .rw⟩
/-- R426. CF_CHAN_A.SLIP [36:32]. -/
def CF_CHAN_A_SLIP : Fld := ⟨.eng, 0x100, 16, 16, 32, 5, 0, .rw⟩
/-- R426. CF_CHAN_A.SIZE [63:40]. -/
def CF_CHAN_A_SIZE : Fld := ⟨.eng, 0x100, 16, 16, 40, 24, 0, .rw⟩
/-- R426. CF_CHAN_B.BASE [47:0]. -/
def CF_CHAN_B_BASE : Fld := ⟨.eng, 0x108, 16, 16, 0, 48, 0, .rw⟩
/-- R426. CF_TX_BYTES.BYTES [47:0]. -/
def CF_TX_BYTES_BYTES : Fld := ⟨.eng, 0x200, 8, 1, 0, 48, 0, .ro⟩
/-- R426. CF_RX_BYTES.BYTES [47:0]. -/
def CF_RX_BYTES_BYTES : Fld := ⟨.eng, 0x208, 8, 1, 0, 48, 0, .ro⟩
/-- R426. CF_GRID_IN_BYTES.BYTES [47:0]. -/
def CF_GRID_IN_BYTES_BYTES : Fld := ⟨.eng, 0x210, 8, 1, 0, 48, 0, .ro⟩
/-- R426. CF_GRID_OUT_BYTES.BYTES [47:0]. -/
def CF_GRID_OUT_BYTES_BYTES : Fld := ⟨.eng, 0x218, 8, 1, 0, 48, 0, .ro⟩
/-- R426. CF_BLOCKS_ADDED.BLOCKS [47:0]. -/
def CF_BLOCKS_ADDED_BLOCKS : Fld := ⟨.eng, 0x220, 8, 1, 0, 48, 0, .ro⟩
/-- R426. CF_OVF_BLOCKS.BLOCKS [47:0]. -/
def CF_OVF_BLOCKS_BLOCKS : Fld := ⟨.eng, 0x228, 8, 1, 0, 48, 0, .ro⟩
/-- R426. CF_RESIDUE_FAILS.COUNT [47:0]. -/
def CF_RESIDUE_FAILS_COUNT : Fld := ⟨.eng, 0x230, 8, 1, 0, 48, 0, .ro⟩
/-- R426. CF_RERUNS.COUNT [47:0]. -/
def CF_RERUNS_COUNT : Fld := ⟨.eng, 0x238, 8, 1, 0, 48, 0, .ro⟩
/-- R426. CF_REPEATS.COUNT [47:0]. -/
def CF_REPEATS_COUNT : Fld := ⟨.eng, 0x240, 8, 1, 0, 48, 0, .ro⟩
/-- R426. CF_PRIMARY_TAKEN.SEGMENTS [47:0]. -/
def CF_PRIMARY_TAKEN_SEGMENTS : Fld := ⟨.eng, 0x248, 8, 1, 0, 48, 0, .ro⟩
/-- R426. CF_BACKUP_TAKEN.SEGMENTS [47:0]. -/
def CF_BACKUP_TAKEN_SEGMENTS : Fld := ⟨.eng, 0x250, 8, 1, 0, 48, 0, .ro⟩
/-- R426. CF_DUPLICATES.SEGMENTS [47:0]. -/
def CF_DUPLICATES_SEGMENTS : Fld := ⟨.eng, 0x258, 8, 1, 0, 48, 0, .ro⟩
/-- R426. CF_STRAY.SEGMENTS [47:0]. -/
def CF_STRAY_SEGMENTS : Fld := ⟨.eng, 0x260, 8, 1, 0, 48, 0, .ro⟩
/-- R426. CF_CRED_WAIT_FC.FC [47:0]. -/
def CF_CRED_WAIT_FC_FC : Fld := ⟨.eng, 0x268, 8, 1, 0, 48, 0, .ro⟩
/-- R426. CF_RNG_DRAWN.BITS [47:0]. -/
def CF_RNG_DRAWN_BITS : Fld := ⟨.eng, 0x270, 8, 1, 0, 48, 0, .ro⟩
/-- R426. CF_COLLECTIVES.COUNT [47:0]. -/
def CF_COLLECTIVES_COUNT : Fld := ⟨.eng, 0x278, 8, 1, 0, 48, 0, .ro⟩
/-- R448. FL_STATUS.STATE [2:0]. -/
def FL_STATUS_STATE : Fld := ⟨.port, 0x0, 8, 1, 0, 3, 1, .ro⟩
/-- R448. FL_STATUS.TXREPLAY [3]. -/
def FL_STATUS_TXREPLAY : Fld := ⟨.port, 0x0, 8, 1, 3, 1, 0, .ro⟩
/-- R448. FL_STATUS.RXREPLAY [4]. -/
def FL_STATUS_RXREPLAY : Fld := ⟨.port, 0x0, 8, 1, 4, 1, 0, .ro⟩
/-- R448. FL_STATUS.CABLE [5]. -/
def FL_STATUS_CABLE : Fld := ⟨.port, 0x0, 8, 1, 5, 1, 0, .ro⟩
/-- R448. FL_STATUS.LOWPOWER [6]. -/
def FL_STATUS_LOWPOWER : Fld := ⟨.port, 0x0, 8, 1, 6, 1, 0, .ro⟩
/-- R448. FL_STATUS.PEER [18:7]. -/
def FL_STATUS_PEER : Fld := ⟨.port, 0x0, 8, 1, 7, 12, 0, .ro⟩
/-- R448. FL_STATUS.PEERPORT [22:19]. -/
def FL_STATUS_PEERPORT : Fld := ⟨.port, 0x0, 8, 1, 19, 4, 0, .ro⟩
/-- R448. FL_STATUS.LASTDOWN [26:23]. -/
def FL_STATUS_LASTDOWN : Fld := ⟨.port, 0x0, 8, 1, 23, 4, 0, .ro⟩
/-- R448. FL_CTL.EN [0]. -/
def FL_CTL_EN : Fld := ⟨.port, 0x8, 8, 1, 0, 1, 1, .rw⟩
/-- R448. FL_CTL.DOWN [1]. -/
def FL_CTL_DOWN : Fld := ⟨.port, 0x8, 8, 1, 1, 1, 0, .wo⟩
/-- R448. FL_TRANSIT_A.BASE [47:0]. -/
def FL_TRANSIT_A_BASE : Fld := ⟨.port, 0x10, 8, 1, 0, 48, 0, .rw⟩
/-- R448. FL_TRANSIT_B.SIZE [31:0]. -/
def FL_TRANSIT_B_SIZE : Fld := ⟨.port, 0x18, 8, 1, 0, 32, 0, .rw⟩
/-- R448. FL_TX_WORDS.WORDS [47:0]. -/
def FL_TX_WORDS_WORDS : Fld := ⟨.port, 0x20, 8, 1, 0, 48, 0, .ro⟩
/-- R448. FL_RX_WORDS.WORDS [47:0]. -/
def FL_RX_WORDS_WORDS : Fld := ⟨.port, 0x28, 8, 1, 0, 48, 0, .ro⟩
/-- R448. FL_RX_CRC.FRAMES [47:0]. -/
def FL_RX_CRC_FRAMES : Fld := ⟨.port, 0x30, 8, 1, 0, 48, 0, .ro⟩
/-- R448. FL_NAKS.COUNT [47:0]. -/
def FL_NAKS_COUNT : Fld := ⟨.port, 0x38, 8, 1, 0, 48, 0, .ro⟩
/-- R448. FL_REPLAYS.COUNT [47:0]. -/
def FL_REPLAYS_COUNT : Fld := ⟨.port, 0x40, 8, 1, 0, 48, 0, .ro⟩
/-- R448. FL_REPLAY_WORDS.WORDS [47:0]. -/
def FL_REPLAY_WORDS_WORDS : Fld := ⟨.port, 0x48, 8, 1, 0, 48, 0, .ro⟩
/-- R448. FL_TX_WAIT_FC.FC [47:0]. -/
def FL_TX_WAIT_FC_FC : Fld := ⟨.port, 0x50, 8, 1, 0, 48, 0, .ro⟩
/-- R448. FL_CHAN_WAIT_FC.FC [47:0]. -/
def FL_CHAN_WAIT_FC_FC : Fld := ⟨.port, 0x58, 8, 1, 0, 48, 0, .ro⟩
/-- R448. FL_SPILL_BYTES.BYTES [47:0]. -/
def FL_SPILL_BYTES_BYTES : Fld := ⟨.port, 0x60, 8, 1, 0, 48, 0, .ro⟩
/-- R448. FL_DISCARDS.FRAMES [47:0]. -/
def FL_DISCARDS_FRAMES : Fld := ⟨.port, 0x68, 8, 1, 0, 48, 0, .ro⟩
/-- R448. FL_GUARD_DROPS.FRAMES [47:0]. -/
def FL_GUARD_DROPS_FRAMES : Fld := ⟨.port, 0x70, 8, 1, 0, 48, 0, .ro⟩
/-- R448. FL_DOWNS.COUNT [47:0]. -/
def FL_DOWNS_COUNT : Fld := ⟨.port, 0x78, 8, 1, 0, 48, 0, .ro⟩
/-- R448. FL_FEC_CORR.CODEWORDS [47:0]. -/
def FL_FEC_CORR_CODEWORDS : Fld := ⟨.port, 0x80, 8, 1, 0, 48, 0, .ro⟩
/-- R448. FL_FEC_UNCORR.CODEWORDS [47:0]. -/
def FL_FEC_UNCORR_CODEWORDS : Fld := ⟨.port, 0x88, 8, 1, 0, 48, 0, .ro⟩
/-- R456. QR_REG_RING.RATE [21:0]. -/
def QR_REG_RING_RATE : Fld := ⟨.dev, 0x5100, 32, 4, 0, 22, 0, .rw⟩
/-- R456. QR_REG_RING.EN [22]. -/
def QR_REG_RING_EN : Fld := ⟨.dev, 0x5100, 32, 4, 22, 1, 0, .rw⟩
/-- R456. QR_REG_RING.BURST [39:24]. -/
def QR_REG_RING_BURST : Fld := ⟨.dev, 0x5100, 32, 4, 24, 16, 0, .rw⟩
/-- R456. QR_REG_FAB.RATE [21:0]. -/
def QR_REG_FAB_RATE : Fld := ⟨.dev, 0x5108, 32, 4, 0, 22, 0, .rw⟩
/-- R456. QR_REG_FAB.EN [22]. -/
def QR_REG_FAB_EN : Fld := ⟨.dev, 0x5108, 32, 4, 22, 1, 0, .rw⟩
/-- R456. QR_REG_FAB.BURST [39:24]. -/
def QR_REG_FAB_BURST : Fld := ⟨.dev, 0x5108, 32, 4, 24, 16, 0, .rw⟩
/-- R456. QR_REG_WAIT_RING.QC [47:0]. -/
def QR_REG_WAIT_RING_QC : Fld := ⟨.dev, 0x5110, 32, 4, 0, 48, 0, .ro⟩
/-- R456. QR_REG_WAIT_FAB.FC [47:0]. -/
def QR_REG_WAIT_FAB_FC : Fld := ⟨.dev, 0x5118, 32, 4, 0, 48, 0, .ro⟩
/-- R466. PT_PART_A.FIRST [3:0]. -/
def PT_PART_A_FIRST : Fld := ⟨.dev, 0x7000, 16, 4, 0, 4, 0, .rw⟩
/-- R466. PT_PART_A.LAST [7:4]. -/
def PT_PART_A_LAST : Fld := ⟨.dev, 0x7000, 16, 4, 4, 4, 0, .rw⟩
/-- R466. PT_PART_A.EN [8]. -/
def PT_PART_A_EN : Fld := ⟨.dev, 0x7000, 16, 4, 8, 1, 0, .rw⟩
/-- R466. PT_PART_A.CLIENT [12:9]. -/
def PT_PART_A_CLIENT : Fld := ⟨.dev, 0x7000, 16, 4, 9, 4, 0, .rw⟩
/-- R466. PT_PART_A.SWITCHING [13]. -/
def PT_PART_A_SWITCHING : Fld := ⟨.dev, 0x7000, 16, 4, 13, 1, 0, .ro⟩
/-- R466. PT_MEM.BASE [24:0]. -/
def PT_MEM_BASE : Fld := ⟨.dev, 0x7008, 16, 4, 0, 25, 0, .rw⟩
/-- R466. PT_MEM.SIZE [49:25]. -/
def PT_MEM_SIZE : Fld := ⟨.dev, 0x7008, 16, 4, 25, 25, 0, .rw⟩
/-- R466. PT_MODEL.MODEL_ID [63:0]. -/
def PT_MODEL_MODEL_ID : Fld := ⟨.dev, 0x7040, 8, 1, 0, 64, 0, .ro⟩
/-- R466. PT_SWITCH.PHASE [2:0]. -/
def PT_SWITCH_PHASE : Fld := ⟨.dev, 0x7048, 8, 1, 0, 3, 0, .ro⟩
/-- R466. PT_SWITCH.PARTS [6:3]. -/
def PT_SWITCH_PARTS : Fld := ⟨.dev, 0x7048, 8, 1, 3, 4, 0, .ro⟩
/-- R466. PT_SWITCH.DEVICE [7]. -/
def PT_SWITCH_DEVICE : Fld := ⟨.dev, 0x7048, 8, 1, 7, 1, 0, .ro⟩
/-- R466. PT_SWITCH.RESULT [9:8]. -/
def PT_SWITCH_RESULT : Fld := ⟨.dev, 0x7048, 8, 1, 8, 2, 0, .ro⟩
/-- R466. PT_SWITCH_TIME.DRAIN [15:0]. -/
def PT_SWITCH_TIME_DRAIN : Fld := ⟨.dev, 0x7050, 8, 1, 0, 16, 0, .ro⟩
/-- R466. PT_SWITCH_TIME.SAVE [31:16]. -/
def PT_SWITCH_TIME_SAVE : Fld := ⟨.dev, 0x7050, 8, 1, 16, 16, 0, .ro⟩
/-- R466. PT_SWITCH_TIME.SETUP [47:32]. -/
def PT_SWITCH_TIME_SETUP : Fld := ⟨.dev, 0x7050, 8, 1, 32, 16, 0, .ro⟩
/-- R466. PT_SWITCH_TIME.RESTORE [63:48]. -/
def PT_SWITCH_TIME_RESTORE : Fld := ⟨.dev, 0x7050, 8, 1, 48, 16, 0, .ro⟩
/-- R466. PT_SWITCHES.COUNT [47:0]. -/
def PT_SWITCHES_COUNT : Fld := ⟨.dev, 0x7058, 8, 1, 0, 48, 0, .ro⟩
/-- R466. PT_TASKPART.PART [63:0]. -/
def PT_TASKPART_PART : Fld := ⟨.dev, 0x7060, 8, 2, 0, 64, 0, .rw⟩
/-- R466. PT_ACC_TILE_TC.TC [47:0]. -/
def PT_ACC_TILE_TC_TC : Fld := ⟨.dev, 0x10000, 512, 16, 0, 48, 0, .ro⟩
/-- R466. PT_ACC_BUSY_TC.TC [47:0]. -/
def PT_ACC_BUSY_TC_TC : Fld := ⟨.dev, 0x10008, 512, 16, 0, 48, 0, .ro⟩
/-- R466. PT_ACC_LAND_LC.LC [47:0]. -/
def PT_ACC_LAND_LC_LC : Fld := ⟨.dev, 0x10010, 512, 16, 0, 48, 0, .ro⟩
/-- R466. PT_ACC_ENERGY.MJ [47:0]. -/
def PT_ACC_ENERGY_MJ : Fld := ⟨.dev, 0x10018, 512, 16, 0, 48, 0, .ro⟩
/-- R466. PT_ACC_QBYTES.BYTES [47:0]. -/
def PT_ACC_QBYTES_BYTES : Fld := ⟨.dev, 0x10020, 8, 1024, 0, 48, 0, .ro⟩
/-- R466. PT_ACC_FBYTES.BYTES [47:0]. -/
def PT_ACC_FBYTES_BYTES : Fld := ⟨.dev, 0x100e0, 8, 1024, 0, 48, 0, .ro⟩
/-- R482. PW_GRANT.WATTS [9:0]. -/
def PW_GRANT_WATTS : Fld := ⟨.dev, 0x3200, 8, 1, 0, 10, 700, .ro⟩
/-- R482. PW_GRANT.LIMIT [19:10]. -/
def PW_GRANT_LIMIT : Fld := ⟨.dev, 0x3200, 8, 1, 10, 10, 700, .ro⟩
/-- R482. PW_GRANT.LOWV [20]. -/
def PW_GRANT_LOWV : Fld := ⟨.dev, 0x3200, 8, 1, 20, 1, 0, .ro⟩
/-- R482. PW_GRANT.HOT [21]. -/
def PW_GRANT_HOT : Fld := ⟨.dev, 0x3200, 8, 1, 21, 1, 0, .ro⟩
/-- R482. PW_GRANT.SEQ [63:32]. -/
def PW_GRANT_SEQ : Fld := ⟨.dev, 0x3200, 8, 1, 32, 32, 0, .ro⟩
/-- R482. PW_FLOOR.WATTS [9:0]. -/
def PW_FLOOR_WATTS : Fld := ⟨.dev, 0x3208, 8, 1, 0, 10, 410, .rw⟩
/-- R482. PW_HEAVY.UW [19:0]. -/
def PW_HEAVY_UW : Fld := ⟨.dev, 0x3210, 8, 1, 0, 20, 78125, .rw⟩
/-- R482. PW_ROAST.ROAST [7:0]. -/
def PW_ROAST_ROAST : Fld := ⟨.dev, 0x3218, 8, 1, 0, 8, 0, .rw⟩
/-- R482. PW_STATE.STATE [1:0]. -/
def PW_STATE_STATE : Fld := ⟨.dev, 0x3220, 8, 1, 0, 2, 0, .ro⟩
/-- R482. PW_STATE.THROTTLE [2]. -/
def PW_STATE_THROTTLE : Fld := ⟨.dev, 0x3220, 8, 1, 2, 1, 0, .ro⟩
/-- R482. PW_STATE.CLAMP [3]. -/
def PW_STATE_CLAMP : Fld := ⟨.dev, 0x3220, 8, 1, 3, 1, 0, .ro⟩
/-- R482. PW_INPUT.POWER [15:0]. -/
def PW_INPUT_POWER : Fld := ⟨.dev, 0x3228, 8, 1, 0, 16, 0, .ro⟩
/-- R482. PW_INPUT.VOLTS [31:16]. -/
def PW_INPUT_VOLTS : Fld := ⟨.dev, 0x3228, 8, 1, 16, 16, 0, .ro⟩
/-- R482. PW_INPUT.AMPS [47:32]. -/
def PW_INPUT_AMPS : Fld := ⟨.dev, 0x3228, 8, 1, 32, 16, 0, .ro⟩
/-- R482. PW_TEMP.DIE [7:0]. -/
def PW_TEMP_DIE : Fld := ⟨.dev, 0x3230, 8, 1, 0, 8, 0, .ro⟩
/-- R482. PW_TEMP.MEM [15:8]. -/
def PW_TEMP_MEM : Fld := ⟨.dev, 0x3230, 8, 1, 8, 8, 0, .ro⟩
/-- R482. PW_CLAMP_EVENTS.COUNT [47:0]. -/
def PW_CLAMP_EVENTS_COUNT : Fld := ⟨.dev, 0x3238, 8, 1, 0, 48, 0, .ro⟩
/-- R482. PW_CLAMP_TC.TC [47:0]. -/
def PW_CLAMP_TC_TC : Fld := ⟨.dev, 0x3240, 8, 1, 0, 48, 0, .ro⟩
/-- R482. PW_THROTTLE_TC.TC [47:0]. -/
def PW_THROTTLE_TC_TC : Fld := ⟨.dev, 0x3248, 8, 1, 0, 48, 0, .ro⟩
/-- R482. PW_ROAST_CHANGES.COUNT [47:0]. -/
def PW_ROAST_CHANGES_COUNT : Fld := ⟨.dev, 0x3250, 8, 1, 0, 48, 0, .ro⟩
/-- R482. PW_ENERGY.MJ [47:0]. -/
def PW_ENERGY_MJ : Fld := ⟨.dev, 0x3258, 8, 1, 0, 48, 0, .ro⟩
/-- R487. CP_ID.STEPID [15:0]. -/
def CP_ID_STEPID : Fld := ⟨.bar, 0x0, 8, 1, 0, 16, 0xB0, .ro⟩
/-- R487. CP_ID.IFVER [31:16]. -/
def CP_ID_IFVER : Fld := ⟨.bar, 0x0, 8, 1, 16, 16, 0x0100, .ro⟩
/-- R487. CP_DOORBELL.RING [0]. -/
def CP_DOORBELL_RING : Fld := ⟨.bar, 0x8, 8, 1, 0, 1, 0, .wo⟩
/-- R487. CP_MB_STATUS.BUSY [0]. -/
def CP_MB_STATUS_BUSY : Fld := ⟨.bar, 0x10, 8, 1, 0, 1, 0, .ro⟩
/-- R487. CP_MB_STATUS.DONE [1]. -/
def CP_MB_STATUS_DONE : Fld := ⟨.bar, 0x10, 8, 1, 1, 1, 0, .ro⟩
/-- R487. CP_MB_STATUS.REJECTED [2]. -/
def CP_MB_STATUS_REJECTED : Fld := ⟨.bar, 0x10, 8, 1, 2, 1, 0, .w1c⟩
/-- R487. CP_MB_STATUS.PILOT [3]. -/
def CP_MB_STATUS_PILOT : Fld := ⟨.bar, 0x10, 8, 1, 3, 1, 0, .ro⟩
/-- R487. CP_MB_STATUS.TAG [31:16]. -/
def CP_MB_STATUS_TAG : Fld := ⟨.bar, 0x10, 8, 1, 16, 16, 0, .ro⟩
/-- R487. CP_MB_STATUS.COUNT [63:32]. -/
def CP_MB_STATUS_COUNT : Fld := ⟨.bar, 0x10, 8, 1, 32, 32, 0, .ro⟩
/-- R487. CP_STATE.STATE [3:0]. -/
def CP_STATE_STATE : Fld := ⟨.bar, 0x18, 8, 1, 0, 4, 1, .ro⟩
/-- R487. CP_LINK.WIDTH [3:0]. -/
def CP_LINK_WIDTH : Fld := ⟨.bar, 0x20, 8, 1, 0, 4, 0, .ro⟩
/-- R487. CP_LINK.RATE [7:4]. -/
def CP_LINK_RATE : Fld := ⟨.bar, 0x20, 8, 1, 4, 4, 0, .ro⟩
/-- R487. CP_LINK.FLIT [8]. -/
def CP_LINK_FLIT : Fld := ⟨.bar, 0x20, 8, 1, 8, 1, 0, .ro⟩
/-- R487. CP_EVENTS.DONE [0]. -/
def CP_EVENTS_DONE : Fld := ⟨.bar, 0x28, 8, 1, 0, 1, 0, .w1c⟩
/-- R487. CP_EVENTS.STATE [1]. -/
def CP_EVENTS_STATE : Fld := ⟨.bar, 0x28, 8, 1, 1, 1, 0, .w1c⟩
/-- R487. CP_EVENTS.FAULT [2]. -/
def CP_EVENTS_FAULT : Fld := ⟨.bar, 0x28, 8, 1, 2, 1, 0, .w1c⟩
/-- R487. CP_EVENTS.GRANT [3]. -/
def CP_EVENTS_GRANT : Fld := ⟨.bar, 0x28, 8, 1, 3, 1, 0, .w1c⟩
/-- R487. CP_EVENTS.REJECT [4]. -/
def CP_EVENTS_REJECT : Fld := ⟨.bar, 0x28, 8, 1, 4, 1, 0, .w1c⟩
/-- R487. CP_EVENT_MASK.EN [4:0]. -/
def CP_EVENT_MASK_EN : Fld := ⟨.bar, 0x30, 8, 1, 0, 5, 0, .rw⟩
/-- R551. FT_STATE.OUT [0]. -/
def FT_STATE_OUT : Fld := ⟨.dev, 0x8000, 8, 1, 0, 1, 0, .ro⟩
/-- R551. FT_STATE.CAUSE [31:16]. -/
def FT_STATE_CAUSE : Fld := ⟨.dev, 0x8000, 8, 1, 16, 16, 0, .ro⟩
/-- R551. FT_FENCE_GEN.GEN [31:0]. -/
def FT_FENCE_GEN_GEN : Fld := ⟨.dev, 0x8008, 8, 1, 0, 32, 0, .ro⟩
/-- R551. FT_FENCE_REQ.KIND [1:0]. -/
def FT_FENCE_REQ_KIND : Fld := ⟨.dev, 0x8010, 8, 1, 0, 2, 0, .wo⟩
/-- R551. FT_FENCE_REQ.OP [3:2]. -/
def FT_FENCE_REQ_OP : Fld := ⟨.dev, 0x8010, 8, 1, 2, 2, 0, .wo⟩
/-- R551. FT_FENCE_REQ.UNIT [15:4]. -/
def FT_FENCE_REQ_UNIT : Fld := ⟨.dev, 0x8010, 8, 1, 4, 12, 0, .wo⟩
/-- R551. FT_WALK.BUSY [0]. -/
def FT_WALK_BUSY : Fld := ⟨.dev, 0x8018, 8, 1, 0, 1, 0, .ro⟩
/-- R551. FT_WALK.QUEUED [3:1]. -/
def FT_WALK_QUEUED : Fld := ⟨.dev, 0x8018, 8, 1, 1, 3, 0, .ro⟩
/-- R551. FT_WALK.RESULT [7:4]. -/
def FT_WALK_RESULT : Fld := ⟨.dev, 0x8018, 8, 1, 4, 4, 0, .ro⟩
/-- R551. FT_FENCED_UNITS.CORES [15:0]. -/
def FT_FENCED_UNITS_CORES : Fld := ⟨.dev, 0x8020, 8, 1, 0, 16, 0, .ro⟩
/-- R551. FT_FENCED_UNITS.QUAYS [39:16]. -/
def FT_FENCED_UNITS_QUAYS : Fld := ⟨.dev, 0x8020, 8, 1, 16, 24, 0, .ro⟩
/-- R551. FT_EVQ_STATUS.FILL [10:0]. -/
def FT_EVQ_STATUS_FILL : Fld := ⟨.dev, 0x8028, 8, 1, 0, 11, 0, .ro⟩
/-- R551. FT_EVQ_STATUS.OVERFLOW [11]. -/
def FT_EVQ_STATUS_OVERFLOW : Fld := ⟨.dev, 0x8028, 8, 1, 11, 1, 0, .w1c⟩
/-- R551. FT_EVQ_A.CLASS [3:0]. -/
def FT_EVQ_A_CLASS : Fld := ⟨.dev, 0x8030, 8, 1, 0, 4, 0, .ro⟩
/-- R551. FT_EVQ_A.KIND [7:4]. -/
def FT_EVQ_A_KIND : Fld := ⟨.dev, 0x8030, 8, 1, 4, 4, 0, .ro⟩
/-- R551. FT_EVQ_A.UNIT [19:8]. -/
def FT_EVQ_A_UNIT : Fld := ⟨.dev, 0x8030, 8, 1, 8, 12, 0, .ro⟩
/-- R551. FT_EVQ_A.CODE [35:20]. -/
def FT_EVQ_A_CODE : Fld := ⟨.dev, 0x8030, 8, 1, 20, 16, 0, .ro⟩
/-- R551. FT_EVQ_A.LOGGED [36]. -/
def FT_EVQ_A_LOGGED : Fld := ⟨.dev, 0x8030, 8, 1, 36, 1, 0, .ro⟩
/-- R551. FT_EVQ_B.DATA [63:0]. -/
def FT_EVQ_B_DATA : Fld := ⟨.dev, 0x8038, 8, 1, 0, 64, 0, .rc⟩
/-- R551. FT_EVQ_LOST.COUNT [47:0]. -/
def FT_EVQ_LOST_COUNT : Fld := ⟨.dev, 0x8040, 8, 1, 0, 48, 0, .ro⟩
/-- R551. FT_CORR_LIMIT.COUNT [31:0]. -/
def FT_CORR_LIMIT_COUNT : Fld := ⟨.dev, 0x8048, 8, 1, 0, 32, 0, .rw⟩
/-- R551. FT_SOFT_DATA.DATA [63:0]. -/
def FT_SOFT_DATA_DATA : Fld := ⟨.dev, 0x8050, 8, 1, 0, 64, 0, .rw⟩
/-- R551. FT_SOFT_CODE.CODE [14:0]. -/
def FT_SOFT_CODE_CODE : Fld := ⟨.dev, 0x8058, 8, 1, 0, 15, 0, .wo⟩
/-- R551. FT_WALK_CREDITS.COUNT [47:0]. -/
def FT_WALK_CREDITS_COUNT : Fld := ⟨.dev, 0x8060, 8, 1, 0, 48, 0, .ro⟩
/-- R551. FT_WALK_OBJECTS.COUNT [47:0]. -/
def FT_WALK_OBJECTS_COUNT : Fld := ⟨.dev, 0x8068, 8, 1, 0, 48, 0, .ro⟩
/-- R551. FT_FENCED_TILE.MAP [63:0]. -/
def FT_FENCED_TILE_MAP : Fld := ⟨.dev, 0x8100, 8, 48, 0, 64, 0, .ro⟩
/-- R551. FT_HALTED.MAP [63:0]. -/
def FT_HALTED_MAP : Fld := ⟨.dev, 0x8280, 8, 48, 0, 64, 0, .w1c⟩
/-- R551. FT_LEASE_CTL.OP [1:0]. -/
def FT_LEASE_CTL_OP : Fld := ⟨.dev, 0x8400, 16, 32, 0, 2, 0, .wo⟩
/-- R551. FT_LEASE_CTL.TERM [21:2]. -/
def FT_LEASE_CTL_TERM : Fld := ⟨.dev, 0x8400, 16, 32, 2, 20, 0, .wo⟩
/-- R551. FT_LEASE_STATE.HELD [0]. -/
def FT_LEASE_STATE_HELD : Fld := ⟨.dev, 0x8408, 16, 32, 0, 1, 0, .ro⟩
/-- R551. FT_LEASE_STATE.REVOKED [1]. -/
def FT_LEASE_STATE_REVOKED : Fld := ⟨.dev, 0x8408, 16, 32, 1, 1, 0, .w1c⟩
/-- R551. FT_LEASE_STATE.HOLDER [5:2]. -/
def FT_LEASE_STATE_HOLDER : Fld := ⟨.dev, 0x8408, 16, 32, 2, 4, 0, .ro⟩
/-- R551. FT_LEASE_STATE.REMAIN [25:6]. -/
def FT_LEASE_STATE_REMAIN : Fld := ⟨.dev, 0x8408, 16, 32, 6, 20, 0, .ro⟩
/-- R551. FT_LEASE_STATE.SEQ [63:32]. -/
def FT_LEASE_STATE_SEQ : Fld := ⟨.dev, 0x8408, 16, 32, 32, 32, 0, .ro⟩
/-- R95. G. -/
def G : Fld := ⟨.tile, 0x81000, 4, 32, 0, 32, 0, .rw⟩
/-- R95. V. -/
def V : Fld := ⟨.tile, 0x81100, 64, 16, 0, 512, 0, .rw⟩
/-- R189. ACC. -/
def ACC : Fld := ⟨.tile, 0x82000, 4, 2048, 0, 32, 0, .rw⟩
/-- R189. CNT. -/
def CNT : Fld := ⟨.tile, 0x84000, 1, 64, 0, 7, 0, .rw⟩
/-- R189. WIMG. -/
def WIMG : Fld := ⟨.tile, 0x84800, 1, 4096, 0, 8, 0, .rw⟩
/-- R258. DIR_FIRST. -/
def DIR_FIRST : Fld := ⟨.tile, 0x87800, 8, 256, 0, 12, 0, .rw⟩
/-- R258. DIR_VALID. -/
def DIR_VALID : Fld := ⟨.tile, 0x87800, 8, 256, 12, 1, 0, .rw⟩
/-- R258. DIR_LOCAL. -/
def DIR_LOCAL : Fld := ⟨.tile, 0x87800, 8, 256, 13, 1, 0, .rw⟩
/-- R258. DIR_BARRIER. -/
def DIR_BARRIER : Fld := ⟨.tile, 0x87800, 8, 256, 14, 8, 0, .rw⟩
/-- R258. DIR_NEXT. -/
def DIR_NEXT : Fld := ⟨.tile, 0x87800, 8, 256, 22, 8, 0, .rw⟩
/-- R258. DIR_NEXTV. -/
def DIR_NEXTV : Fld := ⟨.tile, 0x87800, 8, 256, 30, 1, 0, .rw⟩
/-- R258. DIR_RELEASE. -/
def DIR_RELEASE : Fld := ⟨.tile, 0x87800, 8, 256, 31, 18, 0, .rw⟩
/-- R259. TT_DUR. -/
def TT_DUR : Fld := ⟨.tile, 0x88000, 8, 4096, 0, 12, 0, .rw⟩
/-- R259. TT_OUT. -/
def TT_OUT : Fld := ⟨.tile, 0x88000, 8, 4096, 12, 36, 0, .rw⟩
/-- R259. TT_ISLIP. -/
def TT_ISLIP : Fld := ⟨.tile, 0x88000, 8, 4096, 48, 5, 0, .rw⟩
/-- R259. TT_ESLIP. -/
def TT_ESLIP : Fld := ⟨.tile, 0x88000, 8, 4096, 53, 5, 0, .rw⟩
/-- R259. TT_PACE. -/
def TT_PACE : Fld := ⟨.tile, 0x88000, 8, 4096, 58, 1, 0, .rw⟩
/-- R259. TT_LAST. -/
def TT_LAST : Fld := ⟨.tile, 0x88000, 8, 4096, 59, 1, 0, .rw⟩
/-- R259. TT_RAW. -/
def TT_RAW : Fld := ⟨.tile, 0x88000, 8, 4096, 60, 1, 0, .rw⟩
/-- R363. ROS_ENT. -/
def ROS_ENT : Fld := ⟨.dev, 0x400000, 4, 262144, 0, 32, 0, .rw⟩
/-- R508. SW_WORD. -/
def SW_WORD : Fld := ⟨.bar, 0xE000, 8, 128, 0, 64, 0, .ro⟩
/-- R487. CP_STATE_LOADED. -/
def CP_STATE_LOADED : Fld := ⟨.bar, 0x18, 8, 1, 8, 1, 0, .ro⟩
/-- R487. CP_STATE_RUN. -/
def CP_STATE_RUN : Fld := ⟨.bar, 0x18, 8, 1, 9, 1, 0, .ro⟩
/-- R487. CP_STATE_RESUMABLE. -/
def CP_STATE_RESUMABLE : Fld := ⟨.bar, 0x18, 8, 1, 10, 1, 0, .ro⟩
/-- R487. CP_STATE_SWITCHING. -/
def CP_STATE_SWITCHING : Fld := ⟨.bar, 0x18, 8, 1, 11, 1, 0, .ro⟩
/-- R487. CP_STATE_ROAST. -/
def CP_STATE_ROAST : Fld := ⟨.bar, 0x18, 8, 1, 12, 2, 0, .ro⟩
/-- R486. MSIX_ADDR. -/
def MSIX_ADDR : Fld := ⟨.bar, 0x800, 16, 4, 0, 64, 0, .rw⟩
/-- R486. MSIX_DATA. -/
def MSIX_DATA : Fld := ⟨.bar, 0x808, 16, 4, 0, 32, 0, .rw⟩
/-- R486. MSIX_MASK. -/
def MSIX_MASK : Fld := ⟨.bar, 0x808, 16, 4, 32, 1, 1, .rw⟩
/-- R486. MSIX_PEND. -/
def MSIX_PEND : Fld := ⟨.bar, 0xC00, 8, 1, 0, 4, 0, .ro⟩

end F

/-- Registers of the map, part 0. -/
def regRows0 : List RegRow :=
  [ ⟨"XT_SPINE_CYCLE", .dev, 0x2000, 8, 1, [F.XT_SPINE_CYCLE_COUNT]⟩,
    ⟨"XT_HOLD_STATUS", .dev, 0x2008, 8, 1, [F.XT_HOLD_STATUS_HOLDING, F.XT_HOLD_STATUS_QUAY, F.XT_HOLD_STATUS_LINK, F.XT_HOLD_STATUS_REFRESH, F.XT_HOLD_STATUS_THERMAL, F.XT_HOLD_STATUS_ATTR]⟩,
    ⟨"XT_SLACK_LIMIT", .dev, 0x2010, 8, 1, [F.XT_SLACK_LIMIT_LIMIT]⟩,
    ⟨"XT_SLACK_TOTAL", .dev, 0x2018, 8, 1, [F.XT_SLACK_TOTAL_TC]⟩,
    ⟨"XT_SLACK_TC_QUAY", .dev, 0x2020, 8, 1, [F.XT_SLACK_TC_QUAY_TC]⟩,
    ⟨"XT_SLACK_TC_LINK", .dev, 0x2028, 8, 1, [F.XT_SLACK_TC_LINK_TC]⟩,
    ⟨"XT_SLACK_TC_REFRESH", .dev, 0x2030, 8, 1, [F.XT_SLACK_TC_REFRESH_TC]⟩,
    ⟨"XT_SLACK_TC_THERMAL", .dev, 0x2038, 8, 1, [F.XT_SLACK_TC_THERMAL_TC]⟩,
    ⟨"XT_SLACK_EVENTS", .dev, 0x2040, 8, 1, [F.XT_SLACK_EVENTS_QUAY, F.XT_SLACK_EVENTS_LINK, F.XT_SLACK_EVENTS_REFRESH, F.XT_SLACK_EVENTS_THERMAL]⟩,
    ⟨"XT_SLACK_LONGEST", .dev, 0x2048, 8, 1, [F.XT_SLACK_LONGEST_TC]⟩,
    ⟨"XT_SLACK_SOURCE", .dev, 0x2050, 8, 1, [F.XT_SLACK_SOURCE_QMASK, F.XT_SLACK_SOURCE_FMASK, F.XT_SLACK_SOURCE_CLAMP, F.XT_SLACK_SOURCE_THROTTLE]⟩,
    ⟨"T_CTRL", .tile, 0x80000, 8, 1, [F.T_CTRL_GO, F.T_CTRL_RESUME, F.T_CTRL_STOP, F.T_CTRL_STEP, F.T_CTRL_BP_EN]⟩,
    ⟨"T_STATUS", .tile, 0x80008, 8, 1, [F.T_STATUS_STATE, F.T_STATUS_CROSSING, F.T_STATUS_IDLE]⟩,
    ⟨"T_ENTRY", .tile, 0x80010, 8, 1, [F.T_ENTRY_ADDR]⟩,
    ⟨"T_CODE_STAMP", .tile, 0x80018, 8, 1, [F.T_CODE_STAMP_STAMP]⟩,
    ⟨"T_HALT", .tile, 0x80020, 8, 1, [F.T_HALT_REASON, F.T_HALT_SLOT, F.T_HALT_MORE, F.T_HALT_VALID, F.T_HALT_ADDR, F.T_HALT_DETAIL]⟩,
    ⟨"T_HALT_AUX", .tile, 0x80028, 8, 1, [F.T_HALT_AUX_AUX]⟩,
    ⟨"T_HALT_CYCLE", .tile, 0x80030, 8, 1, [F.T_HALT_CYCLE_TC]⟩,
    ⟨"T_WDOG_LIMIT", .tile, 0x80038, 8, 1, [F.T_WDOG_LIMIT_LIMIT]⟩,
    ⟨"T_WDOG_COUNT", .tile, 0x80040, 8, 1, [F.T_WDOG_COUNT_TC]⟩,
    ⟨"T_BPADDR", .tile, 0x80048, 8, 2, [F.T_BPADDR_ADDR, F.T_BPADDR_EN]⟩,
    ⟨"T_LOOP", .tile, 0x80058, 16, 2, [F.T_LOOP_COUNT, F.T_LOOP_ACTIVE]⟩,
    ⟨"T_LOOP_RANGE", .tile, 0x80060, 16, 2, [F.T_LOOP_RANGE_START, F.T_LOOP_RANGE_END]⟩,
    ⟨"T_PC", .tile, 0x80078, 8, 1, [F.T_PC_ADDR]⟩,
    ⟨"T_CYCLE", .tile, 0x80100, 8, 1, [F.T_CYCLE_TC]⟩,
    ⟨"T_CROSS_TC", .tile, 0x80108, 8, 1, [F.T_CROSS_TC_TC]⟩,
    ⟨"T_IDLE", .tile, 0x80110, 8, 13, [F.T_IDLE_TC]⟩,
    ⟨"T_BAR_PENDING", .tile, 0x80178, 8, 1, [F.T_BAR_PENDING_TC]⟩,
    ⟨"T_EVLOG", .tile, 0x80200, 8, 8, [F.T_EVLOG_CODE, F.T_EVLOG_SOURCE, F.T_EVLOG_CLASS, F.T_EVLOG_TC]⟩,
    ⟨"T_EVLOG_PTR", .tile, 0x80240, 8, 1, [F.T_EVLOG_PTR_NEXT, F.T_EVLOG_PTR_TOTAL]⟩ ]

/-- Registers of the map, part 1. -/
def regRows1 : List RegRow :=
  [ ⟨"T_RNG_STATUS", .tile, 0x80300, 8, 1, [F.T_RNG_STATUS_SEEDED]⟩,
    ⟨"T_RNG_DRAWN_V", .tile, 0x80308, 8, 1, [F.T_RNG_DRAWN_V_BITS]⟩,
    ⟨"T_RNG_DRAWN_M", .tile, 0x80310, 8, 1, [F.T_RNG_DRAWN_M_BITS]⟩,
    ⟨"T_RNG_DRAWN_MF", .tile, 0x80318, 8, 1, [F.T_RNG_DRAWN_MF_BITS]⟩,
    ⟨"PW_TOKEN_CAP", .dev, 0x3000, 8, 12, [F.PW_TOKEN_CAP_CAP]⟩,
    ⟨"PW_TOKEN_HELD", .dev, 0x3060, 8, 12, [F.PW_TOKEN_HELD_HELD]⟩,
    ⟨"PW_TOKEN_WAIT", .dev, 0x30c0, 8, 12, [F.PW_TOKEN_WAIT_TC]⟩,
    ⟨"T_MSTATUS", .tile, 0x80400, 8, 1, [F.T_MSTATUS_IDLE, F.T_MSTATUS_QUEUED, F.T_MSTATUS_TOKEN]⟩,
    ⟨"T_MBUF_FMT", .tile, 0x80408, 8, 1, [F.T_MBUF_FMT_FMT0, F.T_MBUF_FMT_FMT1]⟩,
    ⟨"T_MSPILL_CFG", .tile, 0x80410, 8, 1, [F.T_MSPILL_CFG_BASE, F.T_MSPILL_CFG_INTERVAL]⟩,
    ⟨"T_MEPI_CFG", .tile, 0x80418, 8, 1, [F.T_MEPI_CFG_OP, F.T_MEPI_CFG_EFMT, F.T_MEPI_CFG_RND, F.T_MEPI_CFG_SLIP, F.T_MEPI_CFG_OFFSET, F.T_MEPI_CFG_STRIDE]⟩,
    ⟨"T_MSKIP", .tile, 0x80420, 8, 1, [F.T_MSKIP_MASK]⟩,
    ⟨"T_MAUDIT", .tile, 0x80428, 8, 1, [F.T_MAUDIT_AUDIT]⟩,
    ⟨"T_LOOK_THRESH", .tile, 0x80430, 8, 1, [F.T_LOOK_THRESH_THRESH]⟩,
    ⟨"T_LOOK_ROWS", .tile, 0x80438, 8, 1, [F.T_LOOK_ROWS_ROWS]⟩,
    ⟨"T_CUP_INACTIVE", .tile, 0x80440, 8, 1, [F.T_CUP_INACTIVE_ROWS]⟩,
    ⟨"T_CUP_AUDITED", .tile, 0x80448, 8, 1, [F.T_CUP_AUDITED_ROWS]⟩,
    ⟨"T_CUP_MISSED", .tile, 0x80450, 8, 1, [F.T_CUP_MISSED_OUTPUTS]⟩,
    ⟨"T_CUP_SKIPPED_OUT", .tile, 0x80458, 8, 1, [F.T_CUP_SKIPPED_OUT_OUTPUTS]⟩,
    ⟨"T_SKIP_ROWS", .tile, 0x80460, 8, 1, [F.T_SKIP_ROWS_CHUNKS]⟩,
    ⟨"T_BLK_PRESENT", .tile, 0x80468, 8, 1, [F.T_BLK_PRESENT_BLOCKS]⟩,
    ⟨"T_BLK_ABSENT", .tile, 0x80470, 8, 1, [F.T_BLK_ABSENT_BLOCKS]⟩,
    ⟨"T_SPARSE_PRUNED", .tile, 0x80478, 8, 1, [F.T_SPARSE_PRUNED_VALUES]⟩,
    ⟨"SLIP_BASE", .tile, 0x86000, 64, 32, [F.SLIP_BASE_BASE]⟩,
    ⟨"SLIP_SIZE", .tile, 0x86008, 64, 32, [F.SLIP_SIZE_SIZE]⟩,
    ⟨"SLIP_ATTR", .tile, 0x86010, 64, 32, [F.SLIP_ATTR_EXEC, F.SLIP_ATTR_CLASS, F.SLIP_ATTR_STUCK]⟩,
    ⟨"SLIP_HEAD", .tile, 0x86018, 64, 32, [F.SLIP_HEAD_COUNT]⟩,
    ⟨"SLIP_TAIL", .tile, 0x86020, 64, 32, [F.SLIP_TAIL_COUNT]⟩,
    ⟨"SLIP_RSV", .tile, 0x86028, 64, 32, [F.SLIP_RSV_BYTES, F.SLIP_RSV_CREDITS]⟩,
    ⟨"SLIP_FILL", .tile, 0x86030, 64, 32, [F.SLIP_FILL_FILL, F.SLIP_FILL_FREE, F.SLIP_FILL_WAITERS]⟩ ]

/-- Registers of the map, part 2. -/
def regRows2 : List RegRow :=
  [ ⟨"T_CRED_A", .tile, 0x86900, 16, 16, [F.T_CRED_A_SLIP, F.T_CRED_A_CLASS, F.T_CRED_A_UNIT, F.T_CRED_A_STATE, F.T_CRED_A_START]⟩,
    ⟨"T_CRED_B", .tile, 0x86908, 16, 16, [F.T_CRED_B_BYTES, F.T_CRED_B_WRITTEN]⟩,
    ⟨"T_WIN_BASE", .tile, 0x86800, 16, 8, [F.T_WIN_BASE_BASE, F.T_WIN_BASE_TASK, F.T_WIN_BASE_READ, F.T_WIN_BASE_WRITE, F.T_WIN_BASE_EN]⟩,
    ⟨"T_WIN_BOUND", .tile, 0x86808, 16, 8, [F.T_WIN_BOUND_BOUND]⟩,
    ⟨"DBG_CTL", .dev, 0x9000, 8, 1, [F.DBG_CTL_EN, F.DBG_CTL_GO, F.DBG_CTL_WRITE, F.DBG_CTL_DONE, F.DBG_CTL_RESULT]⟩,
    ⟨"DBG_ADDR", .dev, 0x9008, 8, 1, [F.DBG_ADDR_ADDR]⟩,
    ⟨"DBG_DATA", .dev, 0x9010, 8, 1, [F.DBG_DATA_DATA]⟩,
    ⟨"T_ECC_CORR", .tile, 0x86a00, 8, 1, [F.T_ECC_CORR_WORDS]⟩,
    ⟨"T_ECC_UNCORR", .tile, 0x86a08, 8, 1, [F.T_ECC_UNCORR_WORDS]⟩,
    ⟨"T_ECC_LAST", .tile, 0x86a10, 8, 1, [F.T_ECC_LAST_OFFSET, F.T_ECC_LAST_SYNDROME, F.T_ECC_LAST_UNCORR, F.T_ECC_LAST_READER, F.T_ECC_LAST_VALID]⟩,
    ⟨"T_BANK_EXT_WAIT", .tile, 0x86a18, 8, 1, [F.T_BANK_EXT_WAIT_TC]⟩,
    ⟨"T_BANK_PREEMPT", .tile, 0x86a20, 8, 1, [F.T_BANK_PREEMPT_TC]⟩,
    ⟨"XT_RSTATUS", .tile, 0x87000, 8, 1, [F.XT_RSTATUS_RUN, F.XT_RSTATUS_CROSSING, F.XT_RSTATUS_CYCLE, F.XT_RSTATUS_CLOSED, F.XT_RSTATUS_BADSEL]⟩,
    ⟨"XT_RCFG", .tile, 0x87008, 8, 1, [F.XT_RCFG_PART, F.XT_RCFG_EN]⟩,
    ⟨"XT_CUR", .tile, 0x87010, 8, 1, [F.XT_CUR_CROSSING, F.XT_CUR_VALID]⟩,
    ⟨"XT_INJ_FLITS", .tile, 0x87018, 8, 1, [F.XT_INJ_FLITS_FLITS]⟩,
    ⟨"XT_EJ_FLITS", .tile, 0x87020, 8, 1, [F.XT_EJ_FLITS_FLITS]⟩,
    ⟨"XT_PASS_FLITS", .tile, 0x87028, 8, 1, [F.XT_PASS_FLITS_FLITS]⟩,
    ⟨"XT_DROPPED", .tile, 0x87030, 8, 1, [F.XT_DROPPED_FLITS]⟩,
    ⟨"XT_LINK_ECC", .tile, 0x87038, 8, 1, [F.XT_LINK_ECC_CORR, F.XT_LINK_ECC_UNCORR]⟩,
    ⟨"XT_MISSES", .tile, 0x87040, 8, 1, [F.XT_MISSES_COUNT]⟩,
    ⟨"XT_BAR", .dev, 0x4000, 8, 256, [F.XT_BAR_EXPECT, F.XT_BAR_ARRIVED, F.XT_BAR_CROSSING, F.XT_BAR_PART, F.XT_BAR_ALLOC]⟩,
    ⟨"XT_BAR_ARRIVE", .dev, 0x4800, 8, 1, [F.XT_BAR_ARRIVE_BARRIER]⟩,
    ⟨"XT_BAR_DONE", .dev, 0x4808, 8, 1, [F.XT_BAR_DONE_COUNT]⟩,
    ⟨"SO_STATE", .dev, 0x100000, 16, 8192, [F.SO_STATE_COUNT, F.SO_STATE_TARGET]⟩,
    ⟨"SO_CTL", .dev, 0x100008, 16, 8192, [F.SO_CTL_OWNER, F.SO_CTL_PART, F.SO_CTL_ALLOC, F.SO_CTL_BROKEN, F.SO_CTL_WAITERS]⟩,
    ⟨"SO_OP", .dev, 0x120000, 8, 1, [F.SO_OP_OBJ, F.SO_OP_OP, F.SO_OP_VALUE]⟩,
    ⟨"SO_DISCARDS", .dev, 0x120008, 8, 1, [F.SO_DISCARDS_COUNT]⟩,
    ⟨"MF_STATUS", .tile, 0x86b00, 8, 1, [F.MF_STATUS_SBUSY, F.MF_STATUS_MBUSY, F.MF_STATUS_SQUEUE, F.MF_STATUS_MQUEUE, F.MF_STATUS_MNUM]⟩,
    ⟨"MF_CARRY", .tile, 0x86b08, 8, 1, [F.MF_CARRY_COUNT, F.MF_CARRY_RUN]⟩ ]

/-- Registers of the map, part 3. -/
def regRows3 : List RegRow :=
  [ ⟨"MF_CARRY_MAX", .tile, 0x86b10, 8, 1, [F.MF_CARRY_MAX_COUNT]⟩,
    ⟨"MF_SAMP_RECORDS", .tile, 0x86b18, 8, 1, [F.MF_SAMP_RECORDS_RECORDS]⟩,
    ⟨"MF_SAMP_PADS", .tile, 0x86b20, 8, 1, [F.MF_SAMP_PADS_RECORDS]⟩,
    ⟨"MF_SAMP_READS", .tile, 0x86b28, 8, 1, [F.MF_SAMP_READS_READS]⟩,
    ⟨"MF_REQS", .tile, 0x86b30, 8, 1, [F.MF_REQS_REQUESTS]⟩,
    ⟨"MF_CARRIED", .tile, 0x86b38, 8, 1, [F.MF_CARRIED_REQUESTS]⟩,
    ⟨"MF_CARRY_RUNS", .tile, 0x86b40, 8, 1, [F.MF_CARRY_RUNS_RUNS]⟩,
    ⟨"MF_REV_ROWS", .tile, 0x86b48, 8, 1, [F.MF_REV_ROWS_ROWS]⟩,
    ⟨"MF_SERVED", .tile, 0x86b50, 8, 1, [F.MF_SERVED_ROWS]⟩,
    ⟨"MF_ADDS", .tile, 0x86b58, 8, 1, [F.MF_ADDS_FLITS]⟩,
    ⟨"MF_WAIT_TC", .tile, 0x86b60, 8, 1, [F.MF_WAIT_TC_TC]⟩,
    ⟨"MF_MT_CTL", .tile, 0x86c00, 32, 32, [F.MF_MT_CTL_FX, F.MF_MT_CTL_RX, F.MF_MT_CTL_VALID, F.MF_MT_CTL_KIND, F.MF_MT_CTL_REV, F.MF_MT_CTL_REQ, F.MF_MT_CTL_DST, F.MF_MT_CTL_DIDX]⟩,
    ⟨"MF_MT_GEOM", .tile, 0x86c08, 32, 32, [F.MF_MT_GEOM_SLOTS, F.MF_MT_GEOM_ROWBYTES, F.MF_MT_GEOM_RBYTES, F.MF_MT_GEOM_NDST]⟩,
    ⟨"MF_MT_BOUND", .tile, 0x86c10, 32, 32, [F.MF_MT_BOUND_PER, F.MF_MT_BOUND_CARRY_BOUND]⟩,
    ⟨"MF_MT_AREA", .tile, 0x86c18, 32, 32, [F.MF_MT_AREA_SERVE, F.MF_MT_AREA_GRAD, F.MF_MT_AREA_STAGE, F.MF_MT_AREA_SSTAGE]⟩,
    ⟨"QR_PIN_A", .dev, 0x5000, 16, 4, [F.QR_PIN_A_BANDS, F.QR_PIN_A_EN, F.QR_PIN_A_REFUSED, F.QR_PIN_A_PBASE]⟩,
    ⟨"QR_PIN_B", .dev, 0x5008, 16, 4, [F.QR_PIN_B_SBASE, F.QR_PIN_B_NSTRIPES]⟩,
    ⟨"Q_STATUS", .quay, 0x0, 8, 1, [F.Q_STATUS_TRAINED, F.Q_STATUS_SELFREF, F.Q_STATUS_TIMED, F.Q_STATUS_DEBT, F.Q_STATUS_HOT, F.Q_STATUS_TEMP]⟩,
    ⟨"Q_RD_BYTES", .quay, 0x8, 8, 1, [F.Q_RD_BYTES_BYTES]⟩,
    ⟨"Q_WR_BYTES", .quay, 0x10, 8, 1, [F.Q_WR_BYTES_BYTES]⟩,
    ⟨"Q_TIMED_BYTES", .quay, 0x18, 8, 1, [F.Q_TIMED_BYTES_BYTES]⟩,
    ⟨"Q_PUSH_BYTES", .quay, 0x20, 8, 1, [F.Q_PUSH_BYTES_BYTES]⟩,
    ⟨"Q_RING_BYTES", .quay, 0x28, 8, 1, [F.Q_RING_BYTES_BYTES]⟩,
    ⟨"Q_ADD_FLITS", .quay, 0x30, 8, 1, [F.Q_ADD_FLITS_FLITS]⟩,
    ⟨"Q_REFRESH_WIN", .quay, 0x38, 8, 1, [F.Q_REFRESH_WIN_COUNT]⟩,
    ⟨"Q_REFRESH_FORCED", .quay, 0x40, 8, 1, [F.Q_REFRESH_FORCED_COUNT]⟩,
    ⟨"Q_STAGE_SHORT", .quay, 0x48, 8, 1, [F.Q_STAGE_SHORT_COUNT]⟩,
    ⟨"Q_WAB_FILL", .quay, 0x50, 8, 1, [F.Q_WAB_FILL_BLOCKS, F.Q_WAB_FILL_FULL]⟩,
    ⟨"Q_WAB_MAX", .quay, 0x58, 8, 1, [F.Q_WAB_MAX_BLOCKS, F.Q_WAB_MAX_FULL]⟩,
    ⟨"Q_ECC_CORR", .quay, 0x60, 8, 1, [F.Q_ECC_CORR_BLOCKS]⟩ ]

/-- Registers of the map, part 4. -/
def regRows4 : List RegRow :=
  [ ⟨"Q_ECC_UNCORR", .quay, 0x68, 8, 1, [F.Q_ECC_UNCORR_BLOCKS]⟩,
    ⟨"Q_ECC_LAST", .quay, 0x70, 8, 1, [F.Q_ECC_LAST_BLOCK, F.Q_ECC_LAST_UNCORR, F.Q_ECC_LAST_READER, F.Q_ECC_LAST_VALID, F.Q_ECC_LAST_SYNDROME]⟩,
    ⟨"Q_EDC_RETRY", .quay, 0x78, 8, 1, [F.Q_EDC_RETRY_COUNT]⟩,
    ⟨"Q_PUSH_CREDIT_WAIT", .quay, 0x80, 8, 1, [F.Q_PUSH_CREDIT_WAIT_QC]⟩,
    ⟨"Q_TPL", .quay, 0x1000, 32, 256, [F.Q_TPL_RBASE, F.Q_TPL_RSIZE, F.Q_TPL_VALID, F.Q_TPL_TEMPLATE]⟩,
    ⟨"Q_RWIN", .quay, 0x3000, 8, 256, [F.Q_RWIN_FIRST, F.Q_RWIN_PERIOD, F.Q_RWIN_LEN, F.Q_RWIN_EN]⟩,
    ⟨"L_STATUS", .core, 0x0, 8, 1, [F.L_STATUS_RUN, F.L_STATUS_SUPER, F.L_STATUS_TASK, F.L_STATUS_STALLED]⟩,
    ⟨"L_FAULT", .core, 0x8, 8, 1, [F.L_FAULT_CODE, F.L_FAULT_TASK, F.L_FAULT_SUPER, F.L_FAULT_MORE, F.L_FAULT_DETAIL, F.L_FAULT_VALID]⟩,
    ⟨"L_FAULT_ADDR", .core, 0x10, 8, 1, [F.L_FAULT_ADDR_ADDR]⟩,
    ⟨"L_SOWAIT", .core, 0x18, 8, 1, [F.L_SOWAIT_OBJ]⟩,
    ⟨"L_SOWAIT_RESULT", .core, 0x20, 8, 1, [F.L_SOWAIT_RESULT_RESULT]⟩,
    ⟨"L_SOWAIT_LIMIT", .core, 0x28, 8, 1, [F.L_SOWAIT_LIMIT_LC]⟩,
    ⟨"L_CRED_REQ", .core, 0x30, 8, 1, [F.L_CRED_REQ_TILE, F.L_CRED_REQ_SLIP, F.L_CRED_REQ_BYTES]⟩,
    ⟨"L_CRED_RESULT", .core, 0x38, 8, 1, [F.L_CRED_RESULT_CODE, F.L_CRED_RESULT_RECORD]⟩,
    ⟨"L_CYCLE", .core, 0x100, 8, 1, [F.L_CYCLE_LC]⟩,
    ⟨"L_MEM_WAIT_LC", .core, 0x108, 8, 1, [F.L_MEM_WAIT_LC_LC]⟩,
    ⟨"L_SOWAIT_LC", .core, 0x110, 8, 1, [F.L_SOWAIT_LC_LC]⟩,
    ⟨"L_PF", .core, 0x200, 8, 7, [F.L_PF_COUNT]⟩,
    ⟨"L_STRM_BASE", .core, 0x400, 32, 8, [F.L_STRM_BASE_BASE]⟩,
    ⟨"L_STRM_SHAPE", .core, 0x408, 32, 8, [F.L_STRM_SHAPE_ROWLINES, F.L_STRM_SHAPE_ROWS]⟩,
    ⟨"L_STRM_STRIDE", .core, 0x410, 32, 8, [F.L_STRM_STRIDE_STRIDE]⟩,
    ⟨"L_STRM_CTL", .core, 0x418, 32, 8, [F.L_STRM_CTL_GO, F.L_STRM_CTL_DIR, F.L_STRM_CTL_ACTIVE, F.L_STRM_CTL_LEAD, F.L_STRM_CTL_CANCEL]⟩,
    ⟨"L_RNG_DATA", .core, 0xf00, 8, 1, [F.L_RNG_DATA_BITS]⟩,
    ⟨"L_CFG", .cluster, 0x0, 8, 1, [F.L_CFG_LSRAM]⟩,
    ⟨"L_EPOCH", .cluster, 0x8, 8, 1, [F.L_EPOCH_EPOCH, F.L_EPOCH_LIVE]⟩,
    ⟨"L_EPOCH_FLIPS", .cluster, 0x10, 8, 1, [F.L_EPOCH_FLIPS_COUNT]⟩,
    ⟨"L_CACHE_OP_A", .cluster, 0x18, 8, 1, [F.L_CACHE_OP_A_BASE]⟩,
    ⟨"L_CACHE_OP_B", .cluster, 0x20, 8, 1, [F.L_CACHE_OP_B_LINES, F.L_CACHE_OP_B_OP, F.L_CACHE_OP_B_GO, F.L_CACHE_OP_B_DONE]⟩,
    ⟨"L_ECC_CORR", .cluster, 0x30, 8, 1, [F.L_ECC_CORR_WORDS]⟩,
    ⟨"L_ECC_UNCORR", .cluster, 0x38, 8, 1, [F.L_ECC_UNCORR_WORDS]⟩ ]

/-- Registers of the map, part 5. -/
def regRows5 : List RegRow :=
  [ ⟨"L_ECC_LAST", .cluster, 0x40, 8, 1, [F.L_ECC_LAST_LINE, F.L_ECC_LAST_LOCKED, F.L_ECC_LAST_VALID]⟩,
    ⟨"L_WIN_A", .cluster, 0x1000, 16, 64, [F.L_WIN_A_VBASE, F.L_WIN_A_SIZE]⟩,
    ⟨"L_WIN_B", .cluster, 0x1008, 16, 64, [F.L_WIN_B_PBASE, F.L_WIN_B_TASK, F.L_WIN_B_R, F.L_WIN_B_W, F.L_WIN_B_X, F.L_WIN_B_EN]⟩,
    ⟨"SV_STATUS", .tile, 0x80500, 8, 1, [F.SV_STATUS_BUSY, F.SV_STATUS_QUEUED]⟩,
    ⟨"SV_HISTS", .tile, 0x80508, 8, 1, [F.SV_HISTS_COUNT]⟩,
    ⟨"SV_DRAWS", .tile, 0x80510, 8, 1, [F.SV_DRAWS_COUNT]⟩,
    ⟨"SV_POSTED", .tile, 0x80518, 8, 1, [F.SV_POSTED_COUNT]⟩,
    ⟨"SV_TIE", .tile, 0x80520, 8, 1, [F.SV_TIE_COUNT]⟩,
    ⟨"SV_TRUNC", .tile, 0x80528, 8, 1, [F.SV_TRUNC_COUNT]⟩,
    ⟨"SV_NEGINF", .tile, 0x80530, 8, 1, [F.SV_NEGINF_COUNT]⟩,
    ⟨"SV_TC", .tile, 0x80538, 8, 1, [F.SV_TC_TC]⟩,
    ⟨"ROS_CTL", .dev, 0x6000, 8, 1, [F.ROS_CTL_EN, F.ROS_CTL_BUILD, F.ROS_CTL_FINALIZE, F.ROS_CTL_ESTOP]⟩,
    ⟨"ROS_STATUS", .dev, 0x6008, 8, 1, [F.ROS_STATUS_PHASE, F.ROS_STATUS_LOGWAIT, F.ROS_STATUS_PENDING]⟩,
    ⟨"ROS_LISTNO", .dev, 0x6010, 8, 1, [F.ROS_LISTNO_CURRENT]⟩,
    ⟨"ROS_WL_BASE", .dev, 0x6018, 8, 1, [F.ROS_WL_BASE_BASE]⟩,
    ⟨"ROS_WL_GEOM", .dev, 0x6020, 8, 1, [F.ROS_WL_GEOM_NLANES, F.ROS_WL_GEOM_SEQCAP, F.ROS_WL_GEOM_PAGECAP]⟩,
    ⟨"ROS_BUCKET", .dev, 0x6028, 8, 4, [F.ROS_BUCKET_BOUND]⟩,
    ⟨"ROS_POOL_BASE", .dev, 0x6048, 8, 1, [F.ROS_POOL_BASE_BASE]⟩,
    ⟨"ROS_POOL_CFG", .dev, 0x6050, 8, 1, [F.ROS_POOL_CFG_NPAGES, F.ROS_POOL_CFG_SIZE]⟩,
    ⟨"ROS_POOL_FILL", .dev, 0x6058, 8, 1, [F.ROS_POOL_FILL_FILL, F.ROS_POOL_FILL_REJECT]⟩,
    ⟨"ROS_POOL_PUSH", .dev, 0x6060, 8, 1, [F.ROS_POOL_PUSH_PAGE]⟩,
    ⟨"ROS_POOL_POP", .dev, 0x6068, 8, 1, [F.ROS_POOL_POP_PAGE]⟩,
    ⟨"ROS_LOG_BASE", .dev, 0x6070, 8, 1, [F.ROS_LOG_BASE_BASE]⟩,
    ⟨"ROS_LOG_CFG", .dev, 0x6078, 8, 1, [F.ROS_LOG_CFG_SIZE]⟩,
    ⟨"ROS_LOG_HEAD", .dev, 0x6080, 8, 1, [F.ROS_LOG_HEAD_COUNT]⟩,
    ⟨"ROS_LOG_TAIL", .dev, 0x6088, 8, 1, [F.ROS_LOG_TAIL_COUNT]⟩,
    ⟨"ROS_DONE_OBJ", .dev, 0x6090, 8, 1, [F.ROS_DONE_OBJ_OBJ, F.ROS_DONE_OBJ_EN]⟩,
    ⟨"ROS_CMD", .dev, 0x6098, 8, 1, [F.ROS_CMD_SLOT, F.ROS_CMD_OP, F.ROS_CMD_GO, F.ROS_CMD_DONE, F.ROS_CMD_RESULT]⟩,
    ⟨"ROS_LISTS", .dev, 0x60a0, 8, 1, [F.ROS_LISTS_COUNT]⟩,
    ⟨"ROS_COMMITS", .dev, 0x60a8, 8, 1, [F.ROS_COMMITS_COUNT]⟩ ]

/-- Registers of the map, part 6. -/
def regRows6 : List RegRow :=
  [ ⟨"ROS_REFUSED", .dev, 0x60b0, 8, 1, [F.ROS_REFUSED_COUNT]⟩,
    ⟨"ROS_VOIDED", .dev, 0x60b8, 8, 1, [F.ROS_VOIDED_COUNT]⟩,
    ⟨"ROS_DEFERRED", .dev, 0x60c0, 8, 1, [F.ROS_DEFERRED_COUNT]⟩,
    ⟨"ROS_STARVED", .dev, 0x60c8, 8, 1, [F.ROS_STARVED_COUNT]⟩,
    ⟨"ROS_PAGES_ALLOC", .dev, 0x60d0, 8, 1, [F.ROS_PAGES_ALLOC_COUNT]⟩,
    ⟨"ROS_BUILD_QC", .dev, 0x60d8, 8, 1, [F.ROS_BUILD_QC_QC]⟩,
    ⟨"ROS_LOG_WAIT_QC", .dev, 0x60e0, 8, 1, [F.ROS_LOG_WAIT_QC_QC]⟩,
    ⟨"CF_STATUS", .eng, 0x0, 8, 1, [F.CF_STATUS_BUSY, F.CF_STATUS_PHASE, F.CF_STATUS_QUEUED, F.CF_STATUS_DROPPED]⟩,
    ⟨"CF_POST", .eng, 0x8, 8, 1, [F.CF_POST_ADDR]⟩,
    ⟨"CF_CUR", .eng, 0x10, 8, 1, [F.CF_CUR_COLLID, F.CF_CUR_RERUN]⟩,
    ⟨"CF_LAST", .eng, 0x18, 8, 1, [F.CF_LAST_VERDICT, F.CF_LAST_RERUNS, F.CF_LAST_EXCESS, F.CF_LAST_DETAIL, F.CF_LAST_COLLID]⟩,
    ⟨"CF_ABORT", .eng, 0x20, 8, 1, [F.CF_ABORT_ABORT]⟩,
    ⟨"CF_CHAN_A", .eng, 0x100, 16, 16, [F.CF_CHAN_A_KIND, F.CF_CHAN_A_EN, F.CF_CHAN_A_ERR, F.CF_CHAN_A_PEER, F.CF_CHAN_A_TILE, F.CF_CHAN_A_SLIP, F.CF_CHAN_A_SIZE]⟩,
    ⟨"CF_CHAN_B", .eng, 0x108, 16, 16, [F.CF_CHAN_B_BASE]⟩,
    ⟨"CF_TX_BYTES", .eng, 0x200, 8, 1, [F.CF_TX_BYTES_BYTES]⟩,
    ⟨"CF_RX_BYTES", .eng, 0x208, 8, 1, [F.CF_RX_BYTES_BYTES]⟩,
    ⟨"CF_GRID_IN_BYTES", .eng, 0x210, 8, 1, [F.CF_GRID_IN_BYTES_BYTES]⟩,
    ⟨"CF_GRID_OUT_BYTES", .eng, 0x218, 8, 1, [F.CF_GRID_OUT_BYTES_BYTES]⟩,
    ⟨"CF_BLOCKS_ADDED", .eng, 0x220, 8, 1, [F.CF_BLOCKS_ADDED_BLOCKS]⟩,
    ⟨"CF_OVF_BLOCKS", .eng, 0x228, 8, 1, [F.CF_OVF_BLOCKS_BLOCKS]⟩,
    ⟨"CF_RESIDUE_FAILS", .eng, 0x230, 8, 1, [F.CF_RESIDUE_FAILS_COUNT]⟩,
    ⟨"CF_RERUNS", .eng, 0x238, 8, 1, [F.CF_RERUNS_COUNT]⟩,
    ⟨"CF_REPEATS", .eng, 0x240, 8, 1, [F.CF_REPEATS_COUNT]⟩,
    ⟨"CF_PRIMARY_TAKEN", .eng, 0x248, 8, 1, [F.CF_PRIMARY_TAKEN_SEGMENTS]⟩,
    ⟨"CF_BACKUP_TAKEN", .eng, 0x250, 8, 1, [F.CF_BACKUP_TAKEN_SEGMENTS]⟩,
    ⟨"CF_DUPLICATES", .eng, 0x258, 8, 1, [F.CF_DUPLICATES_SEGMENTS]⟩,
    ⟨"CF_STRAY", .eng, 0x260, 8, 1, [F.CF_STRAY_SEGMENTS]⟩,
    ⟨"CF_CRED_WAIT_FC", .eng, 0x268, 8, 1, [F.CF_CRED_WAIT_FC_FC]⟩,
    ⟨"CF_RNG_DRAWN", .eng, 0x270, 8, 1, [F.CF_RNG_DRAWN_BITS]⟩,
    ⟨"CF_COLLECTIVES", .eng, 0x278, 8, 1, [F.CF_COLLECTIVES_COUNT]⟩ ]

/-- Registers of the map, part 7. -/
def regRows7 : List RegRow :=
  [ ⟨"FL_STATUS", .port, 0x0, 8, 1, [F.FL_STATUS_STATE, F.FL_STATUS_TXREPLAY, F.FL_STATUS_RXREPLAY, F.FL_STATUS_CABLE, F.FL_STATUS_LOWPOWER, F.FL_STATUS_PEER, F.FL_STATUS_PEERPORT, F.FL_STATUS_LASTDOWN]⟩,
    ⟨"FL_CTL", .port, 0x8, 8, 1, [F.FL_CTL_EN, F.FL_CTL_DOWN]⟩,
    ⟨"FL_TRANSIT_A", .port, 0x10, 8, 1, [F.FL_TRANSIT_A_BASE]⟩,
    ⟨"FL_TRANSIT_B", .port, 0x18, 8, 1, [F.FL_TRANSIT_B_SIZE]⟩,
    ⟨"FL_TX_WORDS", .port, 0x20, 8, 1, [F.FL_TX_WORDS_WORDS]⟩,
    ⟨"FL_RX_WORDS", .port, 0x28, 8, 1, [F.FL_RX_WORDS_WORDS]⟩,
    ⟨"FL_RX_CRC", .port, 0x30, 8, 1, [F.FL_RX_CRC_FRAMES]⟩,
    ⟨"FL_NAKS", .port, 0x38, 8, 1, [F.FL_NAKS_COUNT]⟩,
    ⟨"FL_REPLAYS", .port, 0x40, 8, 1, [F.FL_REPLAYS_COUNT]⟩,
    ⟨"FL_REPLAY_WORDS", .port, 0x48, 8, 1, [F.FL_REPLAY_WORDS_WORDS]⟩,
    ⟨"FL_TX_WAIT_FC", .port, 0x50, 8, 1, [F.FL_TX_WAIT_FC_FC]⟩,
    ⟨"FL_CHAN_WAIT_FC", .port, 0x58, 8, 1, [F.FL_CHAN_WAIT_FC_FC]⟩,
    ⟨"FL_SPILL_BYTES", .port, 0x60, 8, 1, [F.FL_SPILL_BYTES_BYTES]⟩,
    ⟨"FL_DISCARDS", .port, 0x68, 8, 1, [F.FL_DISCARDS_FRAMES]⟩,
    ⟨"FL_GUARD_DROPS", .port, 0x70, 8, 1, [F.FL_GUARD_DROPS_FRAMES]⟩,
    ⟨"FL_DOWNS", .port, 0x78, 8, 1, [F.FL_DOWNS_COUNT]⟩,
    ⟨"FL_FEC_CORR", .port, 0x80, 8, 1, [F.FL_FEC_CORR_CODEWORDS]⟩,
    ⟨"FL_FEC_UNCORR", .port, 0x88, 8, 1, [F.FL_FEC_UNCORR_CODEWORDS]⟩,
    ⟨"QR_REG_RING", .dev, 0x5100, 32, 4, [F.QR_REG_RING_RATE, F.QR_REG_RING_EN, F.QR_REG_RING_BURST]⟩,
    ⟨"QR_REG_FAB", .dev, 0x5108, 32, 4, [F.QR_REG_FAB_RATE, F.QR_REG_FAB_EN, F.QR_REG_FAB_BURST]⟩,
    ⟨"QR_REG_WAIT_RING", .dev, 0x5110, 32, 4, [F.QR_REG_WAIT_RING_QC]⟩,
    ⟨"QR_REG_WAIT_FAB", .dev, 0x5118, 32, 4, [F.QR_REG_WAIT_FAB_FC]⟩,
    ⟨"PT_PART_A", .dev, 0x7000, 16, 4, [F.PT_PART_A_FIRST, F.PT_PART_A_LAST, F.PT_PART_A_EN, F.PT_PART_A_CLIENT, F.PT_PART_A_SWITCHING]⟩,
    ⟨"PT_MEM", .dev, 0x7008, 16, 4, [F.PT_MEM_BASE, F.PT_MEM_SIZE]⟩,
    ⟨"PT_MODEL", .dev, 0x7040, 8, 1, [F.PT_MODEL_MODEL_ID]⟩,
    ⟨"PT_SWITCH", .dev, 0x7048, 8, 1, [F.PT_SWITCH_PHASE, F.PT_SWITCH_PARTS, F.PT_SWITCH_DEVICE, F.PT_SWITCH_RESULT]⟩,
    ⟨"PT_SWITCH_TIME", .dev, 0x7050, 8, 1, [F.PT_SWITCH_TIME_DRAIN, F.PT_SWITCH_TIME_SAVE, F.PT_SWITCH_TIME_SETUP, F.PT_SWITCH_TIME_RESTORE]⟩,
    ⟨"PT_SWITCHES", .dev, 0x7058, 8, 1, [F.PT_SWITCHES_COUNT]⟩,
    ⟨"PT_TASKPART", .dev, 0x7060, 8, 2, [F.PT_TASKPART_PART]⟩,
    ⟨"PT_ACC_TILE_TC", .dev, 0x10000, 512, 16, [F.PT_ACC_TILE_TC_TC]⟩ ]

/-- Registers of the map, part 8. -/
def regRows8 : List RegRow :=
  [ ⟨"PT_ACC_BUSY_TC", .dev, 0x10008, 512, 16, [F.PT_ACC_BUSY_TC_TC]⟩,
    ⟨"PT_ACC_LAND_LC", .dev, 0x10010, 512, 16, [F.PT_ACC_LAND_LC_LC]⟩,
    ⟨"PT_ACC_ENERGY", .dev, 0x10018, 512, 16, [F.PT_ACC_ENERGY_MJ]⟩,
    ⟨"PT_ACC_QBYTES", .dev, 0x10020, 8, 1024, [F.PT_ACC_QBYTES_BYTES]⟩,
    ⟨"PT_ACC_FBYTES", .dev, 0x100e0, 8, 1024, [F.PT_ACC_FBYTES_BYTES]⟩,
    ⟨"PW_GRANT", .dev, 0x3200, 8, 1, [F.PW_GRANT_WATTS, F.PW_GRANT_LIMIT, F.PW_GRANT_LOWV, F.PW_GRANT_HOT, F.PW_GRANT_SEQ]⟩,
    ⟨"PW_FLOOR", .dev, 0x3208, 8, 1, [F.PW_FLOOR_WATTS]⟩,
    ⟨"PW_HEAVY", .dev, 0x3210, 8, 1, [F.PW_HEAVY_UW]⟩,
    ⟨"PW_ROAST", .dev, 0x3218, 8, 1, [F.PW_ROAST_ROAST]⟩,
    ⟨"PW_STATE", .dev, 0x3220, 8, 1, [F.PW_STATE_STATE, F.PW_STATE_THROTTLE, F.PW_STATE_CLAMP]⟩,
    ⟨"PW_INPUT", .dev, 0x3228, 8, 1, [F.PW_INPUT_POWER, F.PW_INPUT_VOLTS, F.PW_INPUT_AMPS]⟩,
    ⟨"PW_TEMP", .dev, 0x3230, 8, 1, [F.PW_TEMP_DIE, F.PW_TEMP_MEM]⟩,
    ⟨"PW_CLAMP_EVENTS", .dev, 0x3238, 8, 1, [F.PW_CLAMP_EVENTS_COUNT]⟩,
    ⟨"PW_CLAMP_TC", .dev, 0x3240, 8, 1, [F.PW_CLAMP_TC_TC]⟩,
    ⟨"PW_THROTTLE_TC", .dev, 0x3248, 8, 1, [F.PW_THROTTLE_TC_TC]⟩,
    ⟨"PW_ROAST_CHANGES", .dev, 0x3250, 8, 1, [F.PW_ROAST_CHANGES_COUNT]⟩,
    ⟨"PW_ENERGY", .dev, 0x3258, 8, 1, [F.PW_ENERGY_MJ]⟩,
    ⟨"CP_ID", .bar, 0x0, 8, 1, [F.CP_ID_STEPID, F.CP_ID_IFVER]⟩,
    ⟨"CP_DOORBELL", .bar, 0x8, 8, 1, [F.CP_DOORBELL_RING]⟩,
    ⟨"CP_MB_STATUS", .bar, 0x10, 8, 1, [F.CP_MB_STATUS_BUSY, F.CP_MB_STATUS_DONE, F.CP_MB_STATUS_REJECTED, F.CP_MB_STATUS_PILOT, F.CP_MB_STATUS_TAG, F.CP_MB_STATUS_COUNT]⟩,
    ⟨"CP_STATE", .bar, 0x18, 8, 1, [F.CP_STATE_STATE]⟩,
    ⟨"CP_LINK", .bar, 0x20, 8, 1, [F.CP_LINK_WIDTH, F.CP_LINK_RATE, F.CP_LINK_FLIT]⟩,
    ⟨"CP_EVENTS", .bar, 0x28, 8, 1, [F.CP_EVENTS_DONE, F.CP_EVENTS_STATE, F.CP_EVENTS_FAULT, F.CP_EVENTS_GRANT, F.CP_EVENTS_REJECT]⟩,
    ⟨"CP_EVENT_MASK", .bar, 0x30, 8, 1, [F.CP_EVENT_MASK_EN]⟩,
    ⟨"FT_STATE", .dev, 0x8000, 8, 1, [F.FT_STATE_OUT, F.FT_STATE_CAUSE]⟩,
    ⟨"FT_FENCE_GEN", .dev, 0x8008, 8, 1, [F.FT_FENCE_GEN_GEN]⟩,
    ⟨"FT_FENCE_REQ", .dev, 0x8010, 8, 1, [F.FT_FENCE_REQ_KIND, F.FT_FENCE_REQ_OP, F.FT_FENCE_REQ_UNIT]⟩,
    ⟨"FT_WALK", .dev, 0x8018, 8, 1, [F.FT_WALK_BUSY, F.FT_WALK_QUEUED, F.FT_WALK_RESULT]⟩,
    ⟨"FT_FENCED_UNITS", .dev, 0x8020, 8, 1, [F.FT_FENCED_UNITS_CORES, F.FT_FENCED_UNITS_QUAYS]⟩,
    ⟨"FT_EVQ_STATUS", .dev, 0x8028, 8, 1, [F.FT_EVQ_STATUS_FILL, F.FT_EVQ_STATUS_OVERFLOW]⟩ ]

/-- Registers of the map, part 9. -/
def regRows9 : List RegRow :=
  [ ⟨"FT_EVQ_A", .dev, 0x8030, 8, 1, [F.FT_EVQ_A_CLASS, F.FT_EVQ_A_KIND, F.FT_EVQ_A_UNIT, F.FT_EVQ_A_CODE, F.FT_EVQ_A_LOGGED]⟩,
    ⟨"FT_EVQ_B", .dev, 0x8038, 8, 1, [F.FT_EVQ_B_DATA]⟩,
    ⟨"FT_EVQ_LOST", .dev, 0x8040, 8, 1, [F.FT_EVQ_LOST_COUNT]⟩,
    ⟨"FT_CORR_LIMIT", .dev, 0x8048, 8, 1, [F.FT_CORR_LIMIT_COUNT]⟩,
    ⟨"FT_SOFT_DATA", .dev, 0x8050, 8, 1, [F.FT_SOFT_DATA_DATA]⟩,
    ⟨"FT_SOFT_CODE", .dev, 0x8058, 8, 1, [F.FT_SOFT_CODE_CODE]⟩,
    ⟨"FT_WALK_CREDITS", .dev, 0x8060, 8, 1, [F.FT_WALK_CREDITS_COUNT]⟩,
    ⟨"FT_WALK_OBJECTS", .dev, 0x8068, 8, 1, [F.FT_WALK_OBJECTS_COUNT]⟩,
    ⟨"FT_FENCED_TILE", .dev, 0x8100, 8, 48, [F.FT_FENCED_TILE_MAP]⟩,
    ⟨"FT_HALTED", .dev, 0x8280, 8, 48, [F.FT_HALTED_MAP]⟩,
    ⟨"FT_LEASE_CTL", .dev, 0x8400, 16, 32, [F.FT_LEASE_CTL_OP, F.FT_LEASE_CTL_TERM]⟩,
    ⟨"FT_LEASE_STATE", .dev, 0x8408, 16, 32, [F.FT_LEASE_STATE_HELD, F.FT_LEASE_STATE_REVOKED, F.FT_LEASE_STATE_HOLDER, F.FT_LEASE_STATE_REMAIN, F.FT_LEASE_STATE_SEQ]⟩,
    ⟨"G", .tile, 0x81000, 4, 32, [F.G]⟩,
    ⟨"V", .tile, 0x81100, 64, 16, [F.V]⟩,
    ⟨"ACC", .tile, 0x82000, 4, 2048, [F.ACC]⟩,
    ⟨"CNT", .tile, 0x84000, 1, 64, [F.CNT]⟩,
    ⟨"WIMG", .tile, 0x84800, 1, 4096, [F.WIMG]⟩,
    ⟨"DIR", .tile, 0x87800, 8, 256, [F.DIR_FIRST, F.DIR_VALID, F.DIR_LOCAL, F.DIR_BARRIER, F.DIR_NEXT, F.DIR_NEXTV, F.DIR_RELEASE]⟩,
    ⟨"TT", .tile, 0x88000, 8, 4096, [F.TT_DUR, F.TT_OUT, F.TT_ISLIP, F.TT_ESLIP, F.TT_PACE, F.TT_LAST, F.TT_RAW]⟩,
    ⟨"ROS", .dev, 0x400000, 4, 262144, [F.ROS_ENT]⟩,
    ⟨"SW_WORD", .bar, 0xe000, 8, 128, [F.SW_WORD]⟩,
    ⟨"MSIX_ADDR", .bar, 0x800, 16, 4, [F.MSIX_ADDR]⟩,
    ⟨"MSIX_DATA", .bar, 0x808, 16, 4, [F.MSIX_DATA, F.MSIX_MASK]⟩,
    ⟨"MSIX_PEND", .bar, 0xc00, 8, 1, [F.MSIX_PEND]⟩ ]

/-- Every register of the device map. -/
def regRows : List RegRow :=
  regRows0 ++ regRows1 ++ regRows2 ++ regRows3 ++ regRows4 ++ regRows5 ++ regRows6 ++ regRows7 ++ regRows8 ++ regRows9

end Sys2Proof.Machine
end

