-- ==== Sys2Proof/Machine/Ops.lean ====
section
/-! DEFINITION. The named operations on the state that every meaning is built from: the sparse maps, register fields,
bytes of memory, the units, and the report path of an error (R96, R97, R488, R527, R538–R542). -/

namespace Sys2Proof.Machine

/-! ## Sparse maps -/

/-- The value at a key of a sparse map whose unlisted keys read d. -/
def aget {α : Type} (d : α) : List (Nat × α) → Nat → α
  | [], _ => d
  | (k, v) :: r, x => if x = k then v else aget d r x

/-- The sparse map with one key set: keys stay rising, and a value equal to the default is not listed. -/
def aput {α : Type} [DecidableEq α] (d : α) (m : List (Nat × α)) (x : Nat) (v : α) : List (Nat × α) :=
  (m.filter fun e => decide (e.1 < x)) ++ (if v = d then [] else [(x, v)]) ++ m.filter fun e => decide (x < e.1)

/-- The canonical form of a sparse map above a bound: keys rising from it, no entry equal to the default. -/
def awfFrom {α : Type} [DecidableEq α] (d : α) : Nat → List (Nat × α) → Bool
  | _, [] => true
  | b, (k, v) :: r => decide (b ≤ k) && decide (v ≠ d) && awfFrom d (k + 1) r

/-- The canonical form of a sparse map. -/
def awf {α : Type} [DecidableEq α] (d : α) (m : List (Nat × α)) : Bool := awfFrom d 0 m

/-- Add to the value at a key of a map of naturals. -/
def aadd (m : Cells) (k n : Nat) : Cells := aput 0 m k (aget 0 m k + n)

/-- Subtract from a cell, to no less than 0. -/
def asub (m : Cells) (k n : Nat) : Cells := aput 0 m k (aget 0 m k - n)

/-- What stands under the keys that a test names moves d keys up. -/
def amove (m : Cells) (p : Nat → Bool) (d : Nat) : Cells :=
  (m.filter fun e => p e.1).foldl (fun m e => aput 0 (aput 0 m e.1 0) (e.1 + d) e.2) m

/-! ## Register fields -/

/-- First device address of a register block's unit (R70, R93, R337, R361, R362, R426, R448). BAR0 is no part of the
device address space: its base lies beyond it. -/
def Blk.base : Blk → Nat → Nat
  | .tile, t => 0x2000_0000_0000 + 0x10_0000 * t
  | .dev, _ => 0x3800_0000_0000
  | .core, c => 0x3000_0000_0000 + 0x10_0000 * c
  | .cluster, _ => 0x3000_0100_0000
  | .quay, q => 0x3800_0020_0000 + 0x1_0000 * q
  | .eng, k => 0x3800_0060_0000 + 0x1_0000 * k
  | .port, k => 0x3800_0070_0000 + 0x1_0000 * k
  | .bar, _ => 0x1_0000_0000_0000

/-- The key of a field of unit u, index i, in the register file map. -/
def Fld.key (f : Fld) (u i : Nat) : Nat := (f.blk.base u + f.off + f.stride * i) * 64 + f.lo

/-- A register field's value, as wide as the field is. The map holds the difference from the reset value, so unlisted
is reset. -/
def State.rd (s : State) (f : Fld) (u : Nat := 0) (i : Nat := 0) : Nat :=
  (aget 0 s.rf (f.key u i) ^^^ f.rst) % 2 ^ f.width

/-- The state with a register field set, as wide as the field is. -/
def State.wr (s : State) (f : Fld) (v : Nat) (u : Nat := 0) (i : Nat := 0) : State :=
  { s with rf := aput 0 s.rf (f.key u i) ((v % 2 ^ f.width) ^^^ f.rst) }

/-- Add to a counter field, which wraps. -/
def State.inc (s : State) (f : Fld) (n : Nat) (u : Nat := 0) (i : Nat := 0) : State :=
  s.wr f (s.rd f u i + n) u i

/-- p0–p7 (R95): bit n of the byte at 0x8_1500. -/
def F.P (n : Nat) : Fld := ⟨.tile, 0x81500, 0, 1, n, 1, 0, .rw⟩

/-- A register's value, its fields at their places. -/
def State.reg (s : State) (fs : List Fld) (u : Nat := 0) (i : Nat := 0) : Nat :=
  fs.foldl (fun a f => a ||| (s.rd f u i) <<< f.lo) 0

/-- Clear every register field whose key fails a test (counters at a clock start, a unit at its reset). -/
def State.dropRf (s : State) (p : Nat → Bool) : State := { s with rf := s.rf.filter fun e => !p e.1 }

/-! ## Memory -/

/-- One byte of memory: GDDR7, scratchpad or landing SRAM, by device address. -/
def State.byte (s : State) (a : Nat) : Byte := aget 0 s.mem a

/-- The state with one byte of memory written. -/
def State.setByte (s : State) (a : Nat) (b : Byte) : State := { s with mem := aput 0 s.mem a b }

/-- n bytes from an address. -/
def State.bytes (s : State) (a : Nat) : Nat → List Byte
  | 0 => []
  | n + 1 => s.byte a :: s.bytes (a + 1) n

/-- Bytes written from an address up. -/
def State.setBytes (s : State) (a : Nat) : List Byte → State
  | [] => s
  | b :: r => (s.setByte a b).setBytes (a + 1) r

/-- The little-endian value of bytes (R8). -/
def leVal : List Byte → Nat
  | [] => 0
  | b :: r => b.toNat + 256 * leVal r

/-- n bytes of a value, little-endian (R8). -/
def leBytes (v : Nat) : Nat → List Byte
  | 0 => []
  | n + 1 => BitVec.ofNat 8 v :: leBytes (v / 256) n

/-- An n-byte little-endian value in memory. -/
def State.ldn (s : State) (a n : Nat) : Nat := leVal (s.bytes a n)

/-- Store an n-byte little-endian value. -/
def State.stn (s : State) (a n v : Nat) : State := s.setBytes a (leBytes v n)

/-- Clear the bytes of memory whose address passes a test. -/
def State.dropMem (s : State) (p : Nat → Bool) : State := { s with mem := s.mem.filter fun e => !p e.1 }

/-- Scratchpad offset to device address. -/
def spad (t off : Nat) : Nat := 0x2000_0000_0000 + 0x10_0000 * t + off

/-! ## Units -/

/-- A tile's state beside its registers. -/
def State.tile (s : State) (t : Nat) : TileX := aget {} s.tiles t

/-- Change a tile's state beside its registers. -/
def State.upTile (s : State) (t : Nat) (f : TileX → TileX) : State :=
  { s with tiles := aput {} s.tiles t (f (s.tile t)) }

/-- Change every tile's state that is not the default one. -/
def State.mapTiles (s : State) (f : Nat → TileX → TileX) : State :=
  { s with tiles := (s.tiles.map fun e => (e.1, f e.1 e.2)).filter fun e => e.2 != {} }

/-- A quay's state beside its registers. -/
def State.quay (s : State) (q : Nat) : QuayX := aget {} s.quays q

/-- Change a quay's state beside its registers. -/
def State.upQuay (s : State) (q : Nat) (f : QuayX → QuayX) : State :=
  { s with quays := aput {} s.quays q (f (s.quay q)) }

/-- A landing core's state beside its registers. -/
def State.core (s : State) (c : Nat) : CoreX := aget {} s.cores c

/-- Change a landing core's state beside its registers. -/
def State.upCore (s : State) (c : Nat) (f : CoreX → CoreX) : State :=
  { s with cores := aput {} s.cores c (f (s.core c)) }

/-- A confluence engine's state beside its registers. -/
def State.eng (s : State) (k : Nat) : EngX := aget {} s.engs k

/-- Change a confluence engine's state beside its registers. -/
def State.upEng (s : State) (k : Nat) (f : EngX → EngX) : State :=
  { s with engs := aput {} s.engs k (f (s.eng k)) }

/-- A fabric port's state beside its registers. -/
def State.port (s : State) (k : Nat) : PortX := aget {} s.ports k

/-- Change a fabric port's state beside its registers. -/
def State.upPort (s : State) (k : Nat) (f : PortX → PortX) : State :=
  { s with ports := aput {} s.ports k (f (s.port k)) }

/-- Draw the next free value: the state with the counter advanced. -/
def State.drawn (s : State) : State := { s with free := s.free + 1 }

/-- STEPID of this module (R1). -/
def State.stepid (s : State) : Nat := s.stepping.id

/-- Whether the module is stepping B0. -/
def State.isB0 (s : State) : Bool := s.stepping == .B0

/-- Change the hub. -/
def State.upHub (s : State) (f : Hub → Hub) : State := { s with hub := f s.hub }
/-- Change the fault path. -/
def State.upFault (s : State) (f : FaultX → FaultX) : State := { s with fault := f s.fault }
/-- Change the pins. -/
def State.upPins (s : State) (f : Pins → Pins) : State := { s with pins := f s.pins }
/-- Change the power logic. -/
def State.upPower (s : State) (f : PowerX → PowerX) : State := { s with power := f s.power }
/-- Change the control plane's record. -/
def State.upCtl (s : State) (f : CtlX → CtlX) : State := { s with ctl := f s.ctl }
/-- Change the boot and trust state. -/
def State.upBoot (s : State) (f : BootX → BootX) : State := { s with boot := f s.boot }
/-- Change the roster. -/
def State.upRos (s : State) (f : Roster → Roster) : State := { s with roster := f s.roster }

/-! ## Messages, alerts and events -/

/-- The vector of an event of CP_EVENTS (R488): DONE, STATE, FAULT, GRANT, REJECT. -/
def eventVector : Nat → Nat
  | 1 => 1
  | 2 => 2
  | 3 => 3
  | _ => 0

/-- The field of an event of CP_EVENTS (R487). -/
def eventField : Nat → Fld
  | 0 => F.CP_EVENTS_DONE
  | 1 => F.CP_EVENTS_STATE
  | 2 => F.CP_EVENTS_FAULT
  | 3 => F.CP_EVENTS_GRANT
  | _ => F.CP_EVENTS_REJECT

/-- Send a vector's message, or hold it pending (R488). -/
def State.msix (s : State) (v : Nat) : State :=
  if s.ctl.msixEn && s.ctl.bme && s.rd F.MSIX_MASK 0 v == 0 then
    s.upCtl fun c => { c with msgs := c.msgs ++ [v] }
  else s.wr F.MSIX_PEND (s.rd F.MSIX_PEND ||| 2 ^ v)

/-- Send what is pending on vectors that may now send (R488). -/
def State.msixFlush (s : State) : State :=
  [0, 1, 2, 3].foldl (fun s v =>
    if (s.rd F.MSIX_PEND).testBit v && s.ctl.msixEn && s.ctl.bme && s.rd F.MSIX_MASK 0 v == 0 then
      (s.wr F.MSIX_PEND (s.rd F.MSIX_PEND ^^^ 2 ^ v)).upCtl fun c => { c with msgs := c.msgs ++ [v] }
    else s) s

/-- An event sets its bit; a bit that rises while its mask bit is 1 makes a message due (R488). -/
def State.cpEvent (s : State) (n : Nat) : State :=
  if s.rd (eventField n) = 1 then s
  else
    let s1 := s.wr (eventField n) 1
    if (s.rd F.CP_EVENT_MASK_EN).testBit n then s1.msix (eventVector n) else s1

/-- Whether a management event is unread (R527). -/
def State.unread (s : State) : Bool :=
  s.ctl.mgState || s.fault.log.any fun r => s.ctl.mgNext ≤ r.seq

/-- ALERT_N follows the unread management events, on an I3C bus with an in-band interrupt at each rise (R21, R527). -/
def State.alertSync (s : State) : State :=
  let u := s.unread
  s.upPins fun p => { p with alert := u, ibi := if u && !p.alert && p.bus == some true then p.ibi + 1 else p.ibi }

/-- Whether a class of R538 is logged. -/
def logged (cls : Nat) : Bool := cls != 0 && cls != 11

/-- The records the fault log holds (R542). -/
def logCap : Nat := 4096

/-- A record enters the fault log (R542): the next sequence number, the oldest record overwritten when 4,096 stand. -/
def State.logRec (s : State) (e : Event) (actor : Nat) : State :=
  let r : FaultRec := { seq := s.fault.nextSeq, time := s.tick / 600, cls := e.cls, kind := e.kind, unit := e.unit,
                        code := e.code, actor := actor, data := e.data }
  let s := s.upFault fun x => { x with log := (x.log ++ [r]).drop (x.log.length + 1 - logCap), nextSeq := x.nextSeq + 1 }
  (s.cpEvent 2).alertSync

/-- An event reaches the fault block (R541): it enters the queue or is counted lost, and a logged class enters the log. -/
def State.event (s : State) (cls kind unit code data : Nat) (actor : Nat := 0) : State :=
  let e : Event := { cls := cls, kind := kind, unit := unit, code := code, data := data % 2 ^ 64 }
  let s := if s.fault.events.length < 1024 then s.upFault fun x => { x with events := x.events ++ [e] }
           else (s.inc F.FT_EVQ_LOST_COUNT 1).wr F.FT_EVQ_STATUS_OVERFLOW 1
  if logged cls then s.logRec e actor else s

/-! ## Halts of a tile -/

/-- The fields of T_HALT. -/
def haltFields : List Fld :=
  [F.T_HALT_REASON, F.T_HALT_SLOT, F.T_HALT_MORE, F.T_HALT_VALID, F.T_HALT_ADDR, F.T_HALT_DETAIL]

/-- T_STATUS.STATE of a tile: 0 STOPPED, 1 RUNNING, 2 HALTED, 3 DONE, 4 FENCED. -/
def State.tstate (s : State) (t : Nat) : Nat := s.rd F.T_STATUS_STATE t

/-- Whether a tile is in crossing. -/
def State.inCrossing (s : State) (t : Nat) : Bool := s.rd F.T_STATUS_CROSSING t == 1

/-- Add tc to an idle counter, by the cause's number of R93 (1–13). -/
def State.addIdle (s : State) (t cause n : Nat) : State := s.inc F.T_IDLE_TC n t (cause - 1)

/-- A barrier wait that ends without its crossing: the pending count goes to a cause (R49). -/
def State.creditBar (s : State) (t cause : Nat) : State :=
  (s.addIdle t cause (s.rd F.T_BAR_PENDING_TC t)).wr F.T_BAR_PENDING_TC 0 t

/-- FT_HALTED's bit of a tile is set (R538). -/
def State.markHalted (s : State) (t : Nat) : State :=
  s.wr F.FT_HALTED_MAP (s.rd F.FT_HALTED_MAP 0 (t / 64) ||| 2 ^ (t % 64)) 0 (t / 64)

/-- Whether an operation at the hub is a wait of a tile. -/
def HubOp.tileWait (t : Nat) (o : HubOp) : Bool := o.cls == 0 && o.unit == t && o.op == 3

/-- A tile's column and row, and its power domain (R7). -/
def tileX (t : Nat) : Nat := t % 64
/-- A tile's row. -/
def tileY (t : Nat) : Nat := t / 64
/-- A tile's power domain (R7). -/
def domainOf (t : Nat) : Nat := tileY t / 16 * 4 + tileX t / 16

/-- A tile's token returns to its domain's pool (R184, R185). -/
def State.returnToken (s : State) (t : Nat) : State :=
  if s.rd F.T_MSTATUS_TOKEN t = 1 then
    (s.wr F.T_MSTATUS_TOKEN 0 t).wr F.PW_TOKEN_HELD_HELD (s.rd F.PW_TOKEN_HELD_HELD 0 (domainOf t) - 1) 0 (domainOf t)
  else s

/-- Whether an instruction is heavy (R184). -/
def MOp.heavy : MOp → Bool
  | .run _ _ _ => true
  | .blk _ _ _ _ => true
  | _ => false

/-- Matrix instructions not finished, in issue order: those running, then the queue. -/
def State.mAll (s : State) (t : Nat) : List MInstr :=
  let x := s.tile t
  x.mload.toList ++ x.mstream.toList ++ x.mq

/-- The tile's token returns once no heavy instruction is queued or running (R184). -/
def State.tokenCheck (s : State) (t : Nat) : State :=
  if (s.mAll t).any fun m => m.op.heavy then s else s.returnToken t

/-- The posts of a tile that no quay has accepted are withdrawn. -/
def State.dropPosts (s : State) (t : Nat) : State :=
  { s with quays := (s.quays.map fun e => (e.1, { e.2 with posts := e.2.posts.filter fun p => p.tile != t })).filter fun e =>
      e.2 != {} }

/-! ## The spine -/

/-- The present spine cycle (R52). -/
def State.spine (s : State) : Nat := s.rd F.XT_SPINE_CYCLE_COUNT
/-- Whether the boundary before the present spine cycle is a checkpoint (R52). -/
def State.checkpoint (s : State) : Bool := s.spine % 64 == 0
/-- Whether the crossings stand in a slack (R57, R267). -/
def State.holding (s : State) : Bool := s.rd F.XT_HOLD_STATUS_HOLDING == 1
/-- Whether a hold sampled 16 tc before the present checkpoint takes effect at it (R53). -/
def State.holdDue (s : State) : Bool := s.hub.sampled != 0 && s.hub.sampleAt == some (s.spine - 16) && s.checkpoint
    && decide (16 ≤ s.spine)
/-- Whether routers and tiles in crossing stand still: in a slack, and at the checkpoint at which one begins. -/
def State.frozen (s : State) : Bool := s.holding || s.holdDue
/-- Whether a tile keeps all its state in a slack (R57). -/
def State.stands (s : State) (t : Nat) : Bool := s.inCrossing t && s.frozen

/-! ## Plans of crossings -/

/-- The plans of the images loaded in a partition. -/
def State.plans (s : State) (p : Nat) : List Plan := (s.ctl.images.filter fun i => i.part == p).map Image.plan

/-- The transfer that the translator compiled for the k-th use of a port in a crossing at a tile (R126, R255, R292). -/
def State.xferSlot (s : State) (t c port k : Nat) : XferSlot :=
  (((s.plans (s.rd F.XT_RCFG_PART t)).findSome? fun p =>
    (p.slots.find? fun e => e.1 == (t * 256 + c) * 32 + port).map (·.2)).getD []).getD k default

/-- Whether a quay's template belongs to a crossing of a partition (R317, R320). -/
def State.tplCross (s : State) (q tpl part c : Nat) : Bool := (s.plans part).any fun p => p.tpls.contains (q, tpl, c)

/-- The bytes that a crossing of a partition delivers into a grid channel of an engine, and takes from it (R397). -/
def State.chanUse (s : State) (k chan part c : Nat) : Nat × Nat :=
  (((s.plans part).findSome? fun p => p.chans.find? fun e => e.1 == k && e.2.1 == chan && e.2.2.1 == c).map
    fun e => (e.2.2.2.1, e.2.2.2.2)).getD (0, 0)

/-- The DST list of a QUAY-kind manifest of a tile (R291). -/
def State.mfQuays (s : State) (t m : Nat) : List Nat :=
  (((s.plans (s.rd F.XT_RCFG_PART t)).findSome? fun p => p.dsts.find? fun e => e.1 == t && e.2.1 == m).map
    fun e => e.2.2).getD []

/-- QMASK and FMASK of a crossing of a partition (R253). -/
def State.crossMasks (s : State) (part c : Nat) : Nat × Nat :=
  (((s.plans part).findSome? fun p => p.masks.find? fun e => e.1 == c).map (·.2)).getD (0, 0)

/-! ## Halts -/

/-- The core's waits are abandoned (R49, R101), a wait held at the hub, a post not accepted and a token that no
instruction uses among them. -/
def State.dropWait (s : State) (t : Nat) : State :=
  let s := s.upHub fun h => { h with waits := h.waits.filter (fun o => !o.tileWait t),
                                     inbox := h.inbox.filter fun o => !o.tileWait t }
  let s := if (s.tile t).qpost = some false then s.dropPosts t else s
  let s := (s.creditBar t 1).upTile t fun x => { x with wait := 0, granted := false, soWait := none, qpost := none, qfail := none }
  s.tokenCheck t

/-- The place of a cause among those of one tc (R97), by reason and slot: the lower one the record takes. -/
def haltRank (reason slot : Nat) : Nat :=
  match reason with
  | 0x0F => 0
  | 0x12 => 1
  | 0x10 => 2
  | _ =>
    if slot = 4 then 3
    else if slot < 4 then 4 + slot
    else match reason with
      | 0x0C => 8
      | 0x03 => 9
      | 0x04 => 10
      | 0x02 => 11
      | 0x0A => 12
      | 0x0B => 13
      | 0x11 => 14
      | _ => 15

/-- Whether a cause that comes now belongs to the same tc as the halt on record, before it in the order of R97. -/
def State.outranks (s : State) (t reason slot : Nat) : Bool :=
  s.power.state == .active && s.rd F.T_HALT_CYCLE_TC t == s.tc % 2 ^ 64
    && decide (haltRank reason slot < haltRank (s.rd F.T_HALT_REASON t) (s.rd F.T_HALT_SLOT t))

/-- The fields of the halt record take a cause (R93). -/
def State.haltFill (s : State) (t reason slot addr detail aux : Nat) : State :=
  let s := s.wr F.T_HALT_REASON reason t
  let s := s.wr F.T_HALT_SLOT slot t
  let s := s.wr F.T_HALT_VALID 1 t
  let s := s.wr F.T_HALT_ADDR addr t
  let s := s.wr F.T_HALT_DETAIL detail t
  let s := s.wr F.T_HALT_AUX_AUX aux t
  s.wr F.T_HALT_CYCLE_TC s.tc t

/-- Write the halt record (R97) and report it (R538, R539). The state is left to the caller. A record already held only
gets MORE, and gives its place to a cause of the same tc that R97 puts first (log 18). -/
def State.haltRecord (s : State) (t reason slot addr detail aux : Nat) : State :=
  if s.rd F.T_HALT_VALID t = 1 then
    (if s.outranks t reason slot then s.haltFill t reason slot addr detail aux else s).wr F.T_HALT_MORE 1 t
  else
    let s := s.haltFill t reason slot addr detail aux
    (s.markHalted t).event 0 0 t (0x200 + reason) (s.reg haltFields t)

/-- A tile halts (R96, R97): the first halt writes the record and stops issue, a later cause only sets MORE. A fenced
tile stays FENCED. -/
def State.halt (s : State) (t reason slot addr detail aux : Nat) : State :=
  let v := s.rd F.T_HALT_VALID t
  let s := s.haltRecord t reason slot addr detail aux
  if v = 1 ∨ s.tstate t = 4 then s
  else ((s.dropWait t).wr F.T_STATUS_STATE 2 t).upTile t fun x => { x with stopReq := false }

/-- An entry of T_EVLOG (R93): the log overwrites its oldest entry. -/
def State.evlog (s : State) (t code cls source : Nat) : State :=
  let n := s.rd F.T_EVLOG_PTR_NEXT t
  let s := s.wr F.T_EVLOG_CODE code t n
  let s := s.wr F.T_EVLOG_SOURCE source t n
  let s := s.wr F.T_EVLOG_CLASS cls t n
  let s := s.wr F.T_EVLOG_TC s.tc t n
  (s.inc F.T_EVLOG_PTR_NEXT 1 t).inc F.T_EVLOG_PTR_TOTAL 1 t

/-- T_ECC_LAST and its counters take an error of a scratchpad word (R242, R243, R245). -/
def State.eccNote (s : State) (t off reader syn : Nat) (unc : Bool) : State :=
  let s := if unc then s.inc F.T_ECC_UNCORR_WORDS 1 t else s.inc F.T_ECC_CORR_WORDS 1 t
  let s := s.wr F.T_ECC_LAST_OFFSET (off / 8 * 8) t
  let s := s.wr F.T_ECC_LAST_SYNDROME syn t
  let s := s.wr F.T_ECC_LAST_UNCORR (if unc then 1 else 0) t
  let s := s.wr F.T_ECC_LAST_READER reader t
  let s := s.wr F.T_ECC_LAST_VALID 1 t
  let s := s.upFault fun x => { x with corr := if unc then x.corr else aadd x.corr t 1 }
  if unc then s.event 1 0 t 0x0001 (off / 8 * 8)
  else s.upTile t fun x => { x with eccWb := x.eccWb ++ [(off / 8 * 8, s.ldn (spad t (off / 8 * 8)) 8)] }

/-- The value a SYNDROME field takes of an error (R553): never 0, one value for each bit of a code word of n bits, within
the field's m values. DESIGN CHOICE (log 150): the values of single bits follow one another from a free one. -/
def State.syndrome (s : State) (quay : Bool) (m n : Nat) : Ecc → Nat
  | .ok => 0
  | .corrected _ b => (Config.synBase quay s.stepping + b % n) % (m - 1) + 1
  | .uncorrectable _ p => Config.synPair quay s.stepping p % (m - 1) + 1

/-- The offsets of the 8-byte words that a read of ranges (offset, length) touches. -/
def wordsOf (l : List (Nat × Nat)) : List Nat :=
  l.flatMap fun r => (List.range ((r.1 + r.2 + 7) / 8 - r.1 / 8)).map fun i => (r.1 / 8 + i) * 8

/-- What a unit of the tile makes of the code's report on a read of ranges of scratchpad (R242, R243): the state, and
the offset of the word it cannot correct. The report's word counts the words read; past their number it starts again. -/
def State.readCheck (s : State) (t : Nat) (l : List (Nat × Nat)) (reader : Nat) (ecc : Ecc) : State × Option Nat :=
  let ws := wordsOf l
  let y := s.syndrome false 256 72 ecc
  match ecc with
  | .ok => (s, none)
  | .corrected w _ => if ws = [] then (s, none) else (s.eccNote t (ws.getD (w % ws.length) 0) reader y false, none)
  | .uncorrectable w _ =>
    if ws = [] then (s, none)
    else (s.eccNote t (ws.getD (w % ws.length) 0) reader y true, some (ws.getD (w % ws.length) 0))

/-! ## Lists -/

/-- The first entry with a key, in a list of pairs in no order. -/
def find2 {α : Type} (l : List (Nat × α)) (k : Nat) : Option α := (l.find? fun e => e.1 == k).map (·.2)

/-- The entries of a list but the first that passes a test. -/
def dropFirst {α : Type} (p : α → Bool) : List α → List α
  | [] => []
  | a :: r => if p a then r else a :: dropFirst p r

/-- Change the first entry of a list that passes a test. -/
def mapFirst {α : Type} (p : α → Bool) (f : α → α) : List α → List α
  | [] => []
  | a :: r => if p a then f a :: r else a :: mapFirst p f r

/-- A byte of a byte list, 0 beyond its end. -/
def byteAt (l : List Byte) (i : Nat) : Nat := (l.getD i 0).toNat

/-- An n-byte little-endian field of a byte list, 0 beyond its end. -/
def leAt (l : List Byte) (i n : Nat) : Nat := leVal ((l.drop i).take n)

/-- Bits [lo + w − 1:lo] of a value. -/
def bits (v lo w : Nat) : Nat := (v >>> lo) % 2 ^ w

/-- A value of w bits read as two's complement. -/
def sgn (v w : Nat) : Int := if v % 2 ^ w < 2 ^ (w - 1) then (v % 2 ^ w : Int) else (v % 2 ^ w : Int) - 2 ^ w

/-- An integer narrowed to w bits. -/
def wrap (i : Int) (w : Nat) : Nat := (i % (2 ^ w : Int)).toNat

end Sys2Proof.Machine
end

