-- ==== Sys2Proof/Machine/Float.lean ====
section
/-! DEFINITION. The number formats and their arithmetic (R133–R147): BF16 and FP32 values classified as R135 lays
down, results computed exactly and rounded once (R136), the 8-bit block-scaled conversions, and lanes. -/

namespace Sys2Proof.Machine

/-- A classified operand (R135): a zero, a finite value m × 2^e with m > 0, an infinity, or a NaN. -/
inductive Fp where
  | zero (neg : Bool)
  | fin (neg : Bool) (m : Nat) (e : Int)
  | inf (neg : Bool)
  | nan
deriving DecidableEq, Repr

/-- The sign of a classified operand. -/
def Fp.neg : Fp → Bool
  | .zero n => n
  | .fin n _ _ => n
  | .inf n => n
  | .nan => false

/-- Classify an FP32 pattern (R135): a subnormal reads as a zero of its sign. -/
def fp32 (x : Nat) : Fp :=
  let n := x.testBit 31
  let e := bits x 23 8
  let f := bits x 0 23
  if e = 0 then .zero n
  else if e = 255 then (if f = 0 then .inf n else .nan)
  else .fin n (f + 2 ^ 23) ((e : Int) - 150)

/-- Classify a BF16 pattern: it is the upper half of an FP32 pattern (R133). -/
def bf16 (x : Nat) : Fp := fp32 (x * 65536)

/-- n ÷ 2^k rounded to nearest, ties to even (R140). -/
def rne (n k : Nat) : Nat :=
  let q := n >>> k
  let r := n % 2 ^ k
  if k = 0 then n
  else if 2 * r > 2 ^ k ∨ (2 * r = 2 ^ k ∧ q % 2 = 1) then q + 1 else q

/-- The sign bit at bit 31. -/
def signBit (neg : Bool) : Nat := if neg then 2 ^ 31 else 0

/-- An FP32 pattern, with p bits of precision, of the exact value ±m × 2^e rounded to nearest-even (R136, R140):
overflow to infinity, a rounded magnitude below the smallest normal to zero. p is 24 for FP32 and 8 for BF16, whose
pattern is the upper half. -/
def roundTo (p : Nat) (neg : Bool) (m : Nat) (e : Int) : Nat :=
  if m = 0 then signBit neg
  else
    let len := m.log2 + 1
    let q := if len ≤ p then m * 2 ^ (p - len) else rne m (len - p)
    let e' : Int := e + (len : Int) - (p : Int)
    let (q, e') := if q = 2 ^ p then (2 ^ (p - 1), e' + 1) else (q, e')
    let be : Int := e' + (p : Int) - 1 + 127
    if be > 254 then signBit neg + 255 * 2 ^ 23
    else if be < 1 then signBit neg
    else signBit neg + be.toNat * 2 ^ 23 + (q - 2 ^ (p - 1)) * 2 ^ (24 - p)

/-- The FP32 pattern of a classified operand that is not a NaN, exact. -/
def Fp.pack (p : Nat) : Fp → Nat
  | .zero n => signBit n
  | .inf n => signBit n + 255 * 2 ^ 23
  | .fin n m e => roundTo p n m e
  | .nan => 0x7FC0_0000

/-- A signed significand. -/
def sgnd (n : Bool) (m : Nat) : Int := if n then -(m : Int) else m

/-- The exact sum of two finite values, at the lower exponent. -/
def addExact (n1 : Bool) (m1 : Nat) (e1 : Int) (n2 : Bool) (m2 : Nat) (e2 : Int) : Fp :=
  let e := min e1 e2
  let i := sgnd n1 (m1 * 2 ^ (e1 - e).toNat) + sgnd n2 (m2 * 2 ^ (e2 - e).toNat)
  if i = 0 then .zero false else .fin (decide (i < 0)) i.natAbs e

/-- Exact addition of classified operands; the case is INVALID_ADD (R146). -/
def Fp.add : Fp → Fp → Except Nat Fp
  | .nan, _ => .error 1
  | _, .nan => .error 1
  | .inf a, .inf b => if a = b then .ok (.inf a) else .error 2
  | .inf a, _ => .ok (.inf a)
  | _, .inf b => .ok (.inf b)
  | .zero a, .zero b => .ok (.zero (a && b))
  | .zero _, .fin n m e => .ok (.fin n m e)
  | .fin n m e, .zero _ => .ok (.fin n m e)
  | .fin n1 m1 e1, .fin n2 m2 e2 => .ok (addExact n1 m1 e1 n2 m2 e2)

/-- Exact product of classified operands; the case is INVALID_MUL (R146). -/
def Fp.mul : Fp → Fp → Except Nat Fp
  | .nan, _ => .error 1
  | _, .nan => .error 1
  | .inf _, .zero _ => .error 3
  | .zero _, .inf _ => .error 3
  | .inf a, b => .ok (.inf (a != b.neg))
  | a, .inf b => .ok (.inf (a.neg != b))
  | .zero a, b => .ok (.zero (a != b.neg))
  | a, .zero b => .ok (.zero (a.neg != b))
  | .fin n1 m1 e1, .fin n2 m2 e2 => .ok (.fin (n1 != n2) (m1 * m2) (e1 + e2))

/-- The opposite sign. -/
def Fp.opp : Fp → Fp
  | .zero n => .zero (!n)
  | .fin n m e => .fin (!n) m e
  | .inf n => .inf (!n)
  | .nan => .nan

/-- Whether a < b, of operands that are not NaN; ±0 are equal. -/
def Fp.lt : Fp → Fp → Bool
  | .nan, _ => false
  | _, .nan => false
  | .inf a, .inf b => a && !b
  | .inf a, _ => a
  | _, .inf b => !b
  | .zero _, .zero _ => false
  | .zero _, .fin n _ _ => !n
  | .fin n _ _, .zero _ => n
  | .fin n1 m1 e1, .fin n2 m2 e2 =>
    let e := min e1 e2
    decide (sgnd n1 (m1 * 2 ^ (e1 - e).toNat) < sgnd n2 (m2 * 2 ^ (e2 - e).toNat))

/-- MAX, with +0 above −0 (R146). -/
def Fp.max (a b : Fp) : Except Nat Fp :=
  match a, b with
  | .nan, _ => .error 1
  | _, .nan => .error 1
  | .zero x, .zero y => .ok (.zero (x && y))
  | a, b => .ok (if a.lt b then b else a)

/-- MIN, with −0 below +0 (R146). -/
def Fp.min (a b : Fp) : Except Nat Fp :=
  match a, b with
  | .nan, _ => .error 1
  | _, .nan => .error 1
  | .zero x, .zero y => .ok (.zero (x || y))
  | a, b => .ok (if b.lt a then b else a)

/-- An arithmetic function of the vector unit (R112). -/
inductive FOp where
  | add | sub | mul | fma | max | min
deriving DecidableEq, Repr

/-- The cases of a lane are those of its NaN operands first, then of the multiplication and the addition: the lowest
DETAIL is reported (R145). FMA of an infinite sum after an invalid product keeps the product's case. -/
def FOp.exact (o : FOp) (a b c : Fp) : Except Nat Fp :=
  match o with
  | .add => a.add b
  | .sub => a.add b.opp
  | .mul => a.mul b
  | .max => a.max b
  | .min => a.min b
  | .fma => if a = .nan ∨ b = .nan ∨ c = .nan then .error 1 else (a.mul b).bind fun p => p.add c

/-- One lane of VBF or VF32, rounded once to p bits (R140). -/
def FOp.lane (o : FOp) (p : Nat) (a b c : Fp) : Except Nat Nat := (o.exact a b c).map (Fp.pack p)

/-- floor of the square root of n < 2^(2k). -/
def isqrt (n : Nat) : Nat → Nat → Nat
  | 0, r => r
  | k + 1, r => isqrt n k (if (r + 2 ^ k) * (r + 2 ^ k) ≤ n then r + 2 ^ k else r)

/-- Roots 1–8 of 2 for exp2: 2^(2^−i) in units of 2^−128, rounded down. -/
def exp2Roots0 : List Nat :=
  [0x16A09E667F3BCC908B2FB1366EA957D3E,
   0x1306FE0A31B7152DE8D5A46305C85EDEC,
   0x1172B83C7D517ADCDF7C8C50EB14A7920,
   0x10B5586CF9890F6298B92B71842A98364,
   0x1059B0D31585743AE7C548EB68CA417FE,
   0x102C9A3E778060EE6F7CACA4F7A29BDE9,
   0x10163DA9FB33356D84A66AE336DCDFA40,
   0x100B1AFA5ABCBED6129AB13EC11DC9544]

/-- Roots 9–16 of 2 for exp2: 2^(2^−i) in units of 2^−128, rounded down. -/
def exp2Roots1 : List Nat :=
  [0x10058C86DA1C09EA1FF19D294CF2F679C,
   0x1002C605E2E8CEC506D21BFC89A23A010,
   0x100162F3904051FA128BCA9C55C31E5E0,
   0x1000B175EFFDC76BA38E31671CA939726,
   0x100058BA01FB9F96D6CACD4B180917C3E,
   0x10002C5CC37DA9491D0985C348C68E7B3,
   0x1000162E525EE054754457D5995292026,
   0x10000B17255775C040618BF4A4ADE83FC]

/-- Roots 17–24 of 2 for exp2: 2^(2^−i) in units of 2^−128, rounded down. -/
def exp2Roots2 : List Nat :=
  [0x1000058B91B5BC9AE2EED81E9B7D4CFAC,
   0x100002C5C89D5EC6CA4D7C8ACC017B7C9,
   0x10000162E43F4F831060E02D839A9D16D,
   0x100000B1721BCFC99D9F890EA06911763,
   0x10000058B90CF1E6D97F9CA14DBCC1628,
   0x1000002C5C863B73F016468F6BAC5CA2C,
   0x100000162E430E5A18F6119E3C02282A5,
   0x1000000B1721835514B86E6D96EFD1BFF]

/-- Roots 25–32 of 2 for exp2: 2^(2^−i) in units of 2^−128, rounded down. -/
def exp2Roots3 : List Nat :=
  [0x100000058B90C0B48C6BE5DF846C5B2F0,
   0x10000002C5C8601CC6B9E94213C72737A,
   0x1000000162E42FFF037DF38AA2B219F06,
   0x10000000B17217FBA9C739AA5819F44F9,
   0x1000000058B90BFCDEE5ACD3C1CEDC823,
   0x100000002C5C85FE31F35A6A30DA1BE50,
   0x10000000162E42FF0999CE3541B9FFFCF,
   0x100000000B17217F80F4EF5AADDA45554]

/-- Roots 33–40 of 2 for exp2: 2^(2^−i) in units of 2^−128, rounded down. -/
def exp2Roots4 : List Nat :=
  [0x10000000058B90BFBF8479BD5A81B51AD,
   0x1000000002C5C85FDF84BD62AE30A74CC,
   0x100000000162E42FEFB2FED257559BDAA,
   0x1000000000B17217F7D5A7716BBA4A9AF,
   0x100000000058B90BFBE9DDBAC5E109CCF,
   0x10000000002C5C85FDF4B15DE6F17EB0D,
   0x1000000000162E42FEFA494F1478FDE05,
   0x10000000000B17217F7D20CF927C8E94C]

/-- Roots 41–48 of 2 for exp2: 2^(2^−i) in units of 2^−128, rounded down. -/
def exp2Roots5 : List Nat :=
  [0x1000000000058B90BFBE8F71CB4E4B33E,
   0x100000000002C5C85FDF477B662B26945,
   0x10000000000162E42FEFA3AE53369388C,
   0x100000000000B17217F7D1D351A389D40,
   0x10000000000058B90BFBE8E8B2D3D4EDE,
   0x1000000000002C5C85FDF4741BEA6E77F,
   0x100000000000162E42FEFA39FE95583C3,
   0x1000000000000B17217F7D1CFB72B45E2]

/-- 2^(2^−i) for i = 1 to 48, in units of 2^−128. -/
def exp2Roots : List Nat :=
  exp2Roots0 ++ exp2Roots1 ++ exp2Roots2 ++ exp2Roots3 ++ exp2Roots4 ++ exp2Roots5

/-- 2^f in units of 2^−128, f given by its fraction bits from the highest. -/
def exp2Frac (f : Nat) : Nat → List Nat → Nat → Nat
  | _, [], a => a
  | 0, _, a => a
  | k + 1, r :: rs, a => exp2Frac f k rs (if f.testBit k then a * r / 2 ^ 128 else a)

/-- EXP2 of one FP32 lane: 2^x rounded once (R140, R146). A fraction of more than 48 bits has |x| < 2^−24 and 2^x
rounds to 1; the product of roots is wrong by less than 2^−120, and 2^f is irrational, so its rounding is the exact
one unless 2^x lies within that of a tie. -/
def vExp2 : Fp → Except Nat Nat
  | .nan => .error 1
  | .inf n => .ok (if n then 0 else 0x7F80_0000)
  | .zero _ => .ok 0x3F80_0000
  | .fin n m e =>
    if e < -48 then .ok 0x3F80_0000
    else
      let x := sgnd n (m * 2 ^ (e + 48).toNat)
      let i := x / 2 ^ 48
      let f := (x % 2 ^ 48).toNat
      if i ≥ 128 then .ok 0x7F80_0000
      else if i < -126 ∧ ¬ (x = -126 * 2 ^ 48) then .ok 0
      else
        let v := exp2Frac f 48 exp2Roots (2 ^ 128)
        .ok (roundTo 24 false (if f = 0 then v else 2 * v + 1) (if f = 0 then i - 128 else i - 129))

/-- RCP of one FP32 lane (R140, R146). -/
def vRcp : Fp → Except Nat Nat
  | .nan => .error 1
  | .inf n => .ok (signBit n)
  | .zero n => .ok (signBit n + 0x7F80_0000)
  | .fin n m e =>
    let q := 2 ^ 64 / m
    .ok (roundTo 24 n (if q * m = 2 ^ 64 then 2 * q else 2 * q + 1) (-e - 65))

/-- RSQRT of one FP32 lane (R140, R146). -/
def vRsqrt : Fp → Except Nat Nat
  | .nan => .error 1
  | .zero n => .ok (signBit n + 0x7F80_0000)
  | .inf n => if n then .error 4 else .ok 0
  | .fin n m e =>
    if n then .error 4
    else
      let (m, e) := if e % 2 = 0 then (m, e) else (2 * m, e - 1)
      let r := isqrt (2 ^ 128 / m) 64 0
      .ok (roundTo 24 false (if r * r * m = 2 ^ 128 then 2 * r else 2 * r + 1) (-(e / 2) - 65))

/-- FP32 to BF16, nearest-even (VCVT FN 0), as a 16-bit pattern. -/
def cvtNear (x : Nat) : Except Nat Nat :=
  match fp32 x with
  | .nan => .error 1
  | v => .ok (v.pack 8 / 65536)

/-- FP32 to BF16, stochastic, with the 16 bits drawn (R141, R142). -/
def cvtStoch (x r : Nat) : Except Nat Nat :=
  match fp32 x with
  | .nan => .error 1
  | .zero n => .ok (signBit n / 65536)
  | .inf n => .ok ((signBit n + 0x7F80_0000) / 65536)
  | .fin n _ _ =>
    let mag := x % 2 ^ 31
    .ok (signBit n / 65536 + mag / 65536 + (if mag % 65536 + r ≥ 65536 then 1 else 0))

/-- BF16 to FP32 (VCVT FN 2): exact, a subnormal to a zero. -/
def cvtUp (x : Nat) : Except Nat Nat :=
  match bf16 x with
  | .nan => .error 1
  | v => .ok (v.pack 24)

/-- How many bits a VQ8 FN 1 lane draws under scale E (R142). -/
def q8Bits (x scale : Nat) : Nat :=
  match fp32 x with
  | .fin _ _ _ => min (((scale : Int) - (bits x 23 8 : Int) + 17).toNat) 16
  | _ => 0

/-- A mantissa of VQ8 (R143): rounding to nearest-even when no bits are given, stochastic with them. DESIGN CHOICE (log
159): scale 0xFF is a case of every lane, so lane 0 reports it, or its NaN (R145). -/
def q8Lane (x scale : Nat) (r : Option Nat) : Except Nat Nat :=
  match fp32 x with
  | .nan => .error 1
  | .inf _ => .error 5
  | v =>
    if scale = 255 then .error 6
    else match v with
    | .fin n m _ =>
      let sh : Int := (scale : Int) - (bits x 23 8 : Int) + 17
      let q :=
        if sh ≤ 0 then (if sh < -10 then 2 ^ 24 else m * 2 ^ (-sh).toNat)
        else
          let sh := sh.toNat
          match r with
          | none => rne m sh
          | some b =>
            let k := min sh 16
            let f := (m % 2 ^ sh) >>> (sh - k)
            if f + b ≥ 2 ^ k then m >>> sh + 1 else m >>> sh
      .ok (wrap (sgnd n (min q 127)) 8)
    | _ => .ok 0

/-- A lane of VDQ8 (R144): mi × 2^(E − 133). -/
def dq8Lane (m scale : Nat) : Except Nat Nat :=
  if scale = 255 then .error 6
  else
    let i := sgn m 8
    .ok (roundTo 24 (decide (i < 0)) i.natAbs ((scale : Int) - 133))

/-! ## Lanes -/

/-- Lane i of w bits. -/
def lane (v w i : Nat) : Nat := bits v (w * i) w

/-- The results of lanes 0 to n − 1, or the first lane that meets a case and its DETAIL. -/
def lanes (f : Nat → Except Nat Nat) : Nat → Nat → Except (Nat × Nat) (List Nat)
  | 0, _ => .ok []
  | n + 1, i => match f i with
    | .error d => .error (d, i)
    | .ok x => match lanes f n (i + 1) with
      | .error e => .error e
      | .ok xs => .ok (x :: xs)

/-- Lanes of w bits joined, lane 0 lowest. -/
def joinLanes (w : Nat) : List Nat → Nat
  | [] => 0
  | x :: xs => x + 2 ^ w * joinLanes w xs

/-- The sum of one pair in the tree of VRED SUM (R112, R145): a value, or nothing where a lane or addition below it
met a case; with the DETAIL and lane of the case that this addition raises. Each value carries its lowest lane. -/
def redPairs : List (Nat × Option Fp) → List (Nat × Option Fp) × List (Nat × Nat)
  | (i, a) :: (_, b) :: r =>
    let (xs, cs) := redPairs r
    match a, b with
    | some a, some b => match a.add b with
      | .ok x => ((i, some (fp32 (x.pack 24))) :: xs, cs)
      | .error d => ((i, none) :: xs, (i, d) :: cs)
    | _, _ => ((i, none) :: xs, cs)
  | l => (l, [])

/-- VRED SUM's tree: its result and the cases met. -/
def redTree : Nat → List (Nat × Option Fp) → List (Nat × Option Fp) × List (Nat × Nat)
  | 0, l => (l, [])
  | k + 1, l =>
    let (l', cs) := redPairs l
    let (l'', cs') := redTree k l'
    (l'', cs ++ cs')

/-- The case reported: the lowest lane, and the lowest DETAIL there (R145). -/
def lowCase (l : List (Nat × Nat)) : Option (Nat × Nat) :=
  l.foldl (fun a c => match a with
    | none => some c
    | some b => if c.1 < b.1 || (c.1 == b.1 && c.2 < b.2) then some c else some b) none

/-- VRED SUM over 16 FP32 lanes (R112): the FP32 pattern, or the case as (DETAIL, lane). -/
def redSum (v : Nat) : Except (Nat × Nat) Nat :=
  let ls := (List.range 16).map fun i => (i, match fp32 (lane v 32 i) with
    | .nan => (none : Option Fp)
    | x => some x)
  let nans := (ls.filter fun e => e.2.isNone).map fun e => (e.1, 1)
  let (r, cs) := redTree 4 ls
  match lowCase (nans ++ cs) with
  | some (i, d) => .error (d, i)
  | none => match r with
    | (_, some x) :: _ => .ok (x.pack 24)
    | _ => .ok 0

/-- VRED MAX or MIN over 16 FP32 lanes. -/
def redMinMax (mx : Bool) (v : Nat) : Except (Nat × Nat) Nat :=
  match lanes (fun i => match fp32 (lane v 32 i) with | .nan => .error 1 | _ => .ok 0) 16 0 with
  | .error e => .error e
  | .ok _ =>
    let r := (List.range 15).foldl (fun (a : Fp) i =>
      match (if mx then a.max (fp32 (lane v 32 (i + 1))) else a.min (fp32 (lane v 32 (i + 1)))) with
      | .ok x => x
      | .error _ => a) (fp32 (lane v 32 0))
    .ok (r.pack 24)

end Sys2Proof.Machine
end

