-- ==== Sys2Proof/Machine/Operands.lean ====
section
/-! DEFINITION. The slots of a native long word (R77–R82, R87, R111–R114, R143, R144, R159–R175, R192, R201, R206,
R227, R381, R552): what each names, its encoding, its decoding, the registers it reads and writes, its latency. -/

namespace Sys2Proof.Machine

/-- ALU functions, FN 0x00–0x0C in order (R111). -/
inductive AluOp where
  | add | sub | and | or | xor | shl | shr | sra | mul | min | max | minu | maxu
deriving DecidableEq, Repr

/-- Immediate functions other than SHI (R111). -/
inductive ImmOp where
  | addi | andi | ori | xori | cati
deriving DecidableEq, Repr

/-- Shift functions of SHI (R111). -/
inductive ShOp where
  | shl | shr | sra
deriving DecidableEq, Repr

/-- Comparisons, FN 0–5 in order (R111). -/
inductive CmpOp where
  | eq | ne | lt | ltu | ge | geu
deriving DecidableEq, Repr

/-- Comparisons with an immediate (R111). -/
inductive CmpiOp where
  | eq | lt | ltu
deriving DecidableEq, Repr

/-- Predicate logic, FN 0–3 in order (R111). -/
inductive PlogOp where
  | and | or | xor | andn
deriving DecidableEq, Repr

/-- Scalar loads and stores (R111). -/
inductive MemOp where
  | ld | st | ldh | sth
deriving DecidableEq, Repr

/-- Horizontal reductions (R112). -/
inductive RedOp where
  | sum | max | min | any | all
deriving DecidableEq, Repr

/-- Element functions of VFUN (R112). -/
inductive FunOp where
  | exp2 | rcp | rsqrt
deriving DecidableEq, Repr

/-- Sieve operations (R381). -/
inductive SvOp where
  | hist0 | hist1 | cut0 | cut1 | cut2 | draw
deriving DecidableEq, Repr

/-- Manifest-engine posts (R114). -/
inductive MfOp where
  | post | samp | rev
deriving DecidableEq, Repr

/-- What one slot of a word does, its operand fields as numbers. -/
inductive SlotOp where
  | alu (o : AluOp) (d a b : Nat)
  | imm (o : ImmOp) (d a i : Nat)
  | shi (o : ShOp) (d a sh : Nat)
  | cmp (o : CmpOp) (d a b : Nat)
  | cmpi (o : CmpiOp) (d a i : Nat)
  | plog (o : PlogOp) (d a b : Nat)
  | mem (o : MemOp) (d a i : Nat)
  | br (off : Nat)
  | brr (a : Nat)
  | loop (level a len : Nat)
  | endp
  | rdspec (d sel : Nat)
  | vbf (o : FOp) (d a b c : Nat)
  | vf32 (o : FOp) (w : Bool) (d a b c : Nat)
  | vcvt (fn d a : Nat)
  | vfun (o : FunOp) (d a : Nat)
  | vred (o : RedOp) (d a : Nat)
  | vld (d a off : Nat)
  | vst (d a off : Nat)
  | vbcast (d a : Nat)
  | vq8 (st : Bool) (d a b h : Nat)
  | vdq8 (d a b h : Nat)
  | vrand (d : Nat)
  | pack24 (prune : Bool) (d a b c : Nat)
  | sv (o : SvOp) (a : Nat)
  | vmov (d a : Nat)
  | mzero (acc nrows : Nat) (pair : Bool)
  | mldw (fmt a wbuf : Nat)
  | mrun (a acc nrows wbuf : Nat)
  | mblk (a acc nrb half wbuf : Nat)
  | mspill (a interval : Nat)
  | mepi (a op efmt rnd : Nat)
  | mout (a acc nrows : Nat) (fold keep : Bool)
  | mrda (d acc : Nat)
  | mlook (a pacc nrows wbuf : Nat)
  | xwait (a slip : Nat)
  | xtake (a slip : Nat)
  | xput (a slip : Nat)
  | qpost (a : Nat)
  | soadd (a obj : Nat)
  | sowait (a obj : Nat)
  | soset (a obj : Nat)
  | mf (o : MfOp) (a : Nat)
deriving DecidableEq, Repr

/-- A slot: its predicate (R80, R81) and what it does. -/
structure Slot where
  pred : Nat
  neg  : Bool
  op   : SlotOp
deriving DecidableEq, Repr

/-- The class of a slot: 0 S, 1 V, 2 M, 3 X. -/
def SlotOp.cls : SlotOp → Nat
  | .alu .. | .imm .. | .shi .. | .cmp .. | .cmpi .. | .plog .. | .mem .. | .br _ | .brr _ | .loop .. | .endp
  | .rdspec .. => 0
  | .vbf .. | .vf32 .. | .vcvt .. | .vfun .. | .vred .. | .vld .. | .vst .. | .vbcast .. | .vq8 .. | .vdq8 ..
  | .vrand _ | .pack24 .. | .sv .. | .vmov .. => 1
  | .mzero .. | .mldw .. | .mrun .. | .mblk .. | .mspill .. | .mepi .. | .mout .. | .mrda .. | .mlook .. => 2
  | .xwait .. | .xtake .. | .xput .. | .qpost _ | .soadd .. | .sowait .. | .soset .. | .mf .. => 3

/-- The FN code of an ALU function. -/
def AluOp.fn : AluOp → Nat
  | .add => 0 | .sub => 1 | .and => 2 | .or => 3 | .xor => 4 | .shl => 5 | .shr => 6 | .sra => 7 | .mul => 8
  | .min => 9 | .max => 10 | .minu => 11 | .maxu => 12

/-- The function of an ALU FN code. -/
def aluOf : Nat → Option AluOp
  | 0 => some .add | 1 => some .sub | 2 => some .and | 3 => some .or | 4 => some .xor | 5 => some .shl
  | 6 => some .shr | 7 => some .sra | 8 => some .mul | 9 => some .min | 10 => some .max | 11 => some .minu
  | 12 => some .maxu | _ => none

/-- The code of a VBF or VF32 function. -/
def FOp.fn : FOp → Nat
  | .add => 0 | .sub => 1 | .mul => 2 | .fma => 3 | .max => 4 | .min => 5

/-- The function of a VBF or VF32 code. -/
def fopOf : Nat → Option FOp
  | 0 => some .add | 1 => some .sub | 2 => some .mul | 3 => some .fma | 4 => some .max | 5 => some .min | _ => none

/-- The FN code of a comparison. -/
def CmpOp.fn : CmpOp → Nat
  | .eq => 0 | .ne => 1 | .lt => 2 | .ltu => 3 | .ge => 4 | .geu => 5

/-- The comparison of an FN code. -/
def cmpOf : Nat → Option CmpOp
  | 0 => some .eq | 1 => some .ne | 2 => some .lt | 3 => some .ltu | 4 => some .ge | 5 => some .geu | _ => none

/-- The S register layout (R82). -/
def encS (op d a b fn : Nat) : Nat := op * 2 ^ 25 + d * 2 ^ 16 + a * 2 ^ 11 + b * 2 ^ 6 + fn
/-- The S immediate layout (R82). -/
def encI (op d a i : Nat) : Nat := op * 2 ^ 25 + d * 2 ^ 16 + a * 2 ^ 11 + i
/-- The V layout (R82). -/
def encV (op d a b c fn : Nat) : Nat := op * 2 ^ 25 + d * 2 ^ 17 + a * 2 ^ 13 + b * 2 ^ 9 + c * 2 ^ 5 + fn
/-- A slot with a field at bit 16 and lower operand bits: the M and X layouts. -/
def encM (op a low : Nat) : Nat := op * 2 ^ 25 + a * 2 ^ 16 + low

/-- One bit of a Boolean field. -/
def b2n (b : Bool) : Nat := if b then 1 else 0

/-- The encoding of a slot's opcode and operands, its predicate field 0. -/
def SlotOp.enc : SlotOp → Nat
  | .alu o d a b => encS 0x01 d a b o.fn
  | .imm .addi d a i => encI 0x02 d a i
  | .imm .andi d a i => encI 0x03 d a i
  | .imm .ori d a i => encI 0x04 d a i
  | .imm .xori d a i => encI 0x05 d a i
  | .shi .shl d a sh => encI 0x06 d a sh
  | .shi .shr d a sh => encI 0x06 d a (32 + sh)
  | .shi .sra d a sh => encI 0x06 d a (64 + sh)
  | .imm .cati d a i => encI 0x07 d a i
  | .cmp o d a b => encS 0x09 d a b o.fn
  | .cmpi .eq d a i => encI 0x0A d a i
  | .cmpi .lt d a i => encI 0x0B d a i
  | .cmpi .ltu d a i => encI 0x0C d a i
  | .plog .and d a b => encS 0x0D d a b 0
  | .plog .or d a b => encS 0x0D d a b 1
  | .plog .xor d a b => encS 0x0D d a b 2
  | .plog .andn d a b => encS 0x0D d a b 3
  | .mem .ld d a i => encI 0x10 d a i
  | .mem .st d a i => encI 0x11 d a i
  | .mem .ldh d a i => encI 0x12 d a i
  | .mem .sth d a i => encI 0x13 d a i
  | .br off => encI 0x70 0 0 off
  | .brr a => encI 0x71 0 a 0
  | .loop l a n => encI 0x72 0 0 (l * 2 ^ 20 + a * 2 ^ 15 + n)
  | .endp => encI 0x73 0 0 0
  | .rdspec d sel => encI 0x74 d 0 sel
  | .vbf o d a b c => encV 0x01 d a b c o.fn
  | .vf32 o w d a b c => encV 0x02 d a b c (2 * o.fn + b2n w)
  | .vcvt fn d a => encV 0x03 d a 0 0 fn
  | .vfun .exp2 d a => encV 0x04 d a 0 0 0
  | .vfun .rcp d a => encV 0x04 d a 0 0 1
  | .vfun .rsqrt d a => encV 0x04 d a 0 0 2
  | .vred .sum d a => encV 0x05 d a 0 0 0
  | .vred .max d a => encV 0x05 d a 0 0 1
  | .vred .min d a => encV 0x05 d a 0 0 2
  | .vred .any d a => encV 0x05 d a 0 0 3
  | .vred .all d a => encV 0x05 d a 0 0 4
  | .vld d a off => encV 0x06 d a 0 0 off
  | .vst d a off => encV 0x07 d a 0 0 off
  | .vbcast d a => encV 0x08 d a 0 0 0
  | .vq8 st d a b h => encV 0x09 d a b h (b2n st)
  | .vdq8 d a b h => encV 0x0A d a b h 0
  | .vrand d => encV 0x0B d 0 0 0 0
  | .pack24 pr d a b c => encV 0x0C d a b c (b2n pr)
  | .sv .hist0 a => encV 0x0D 0 a 0 0 0
  | .sv .hist1 a => encV 0x0D 0 a 0 0 1
  | .sv .cut0 a => encV 0x0E 0 a 0 0 0
  | .sv .cut1 a => encV 0x0E 0 a 0 0 1
  | .sv .cut2 a => encV 0x0E 0 a 0 0 2
  | .sv .draw a => encV 0x0F 0 a 0 0 0
  | .vmov d a => encV 0x10 d a 0 0 0
  | .mzero acc n pr => encM 0x01 0 (acc * 2 ^ 10 + n * 2 ^ 4 + b2n pr * 8)
  | .mldw 1 a w => encM 0x02 a (w * 2 ^ 15)
  | .mldw 2 a w => encM 0x03 a (w * 2 ^ 15)
  | .mldw 3 a w => encM 0x04 a (w * 2 ^ 15)
  | .mldw _ a w => encM 0x04 a (w * 2 ^ 15 + 2 ^ 14)
  | .mrun a acc n w => encM 0x05 a (acc * 2 ^ 10 + n * 2 ^ 4 + w * 8)
  | .mblk a acc nrb half w => encM 0x06 a (acc * 2 ^ 10 + nrb * 2 ^ 9 + half * 2 ^ 8 + w * 8)
  | .mspill a i => encM 0x07 a (i * 2 ^ 9)
  | .mepi a op ef r => encM 0x08 a (op * 2 ^ 14 + ef * 2 ^ 13 + r * 2 ^ 11)
  | .mout a acc n f k => encM 0x09 a (acc * 2 ^ 10 + n * 2 ^ 4 + b2n f * 8 + b2n k * 4)
  | .mrda d acc => encM 0x0A 0 (d * 2 ^ 17 + acc * 2 ^ 10)
  | .mlook a acc n w => encM 0x0B a (acc * 2 ^ 10 + n * 2 ^ 4 + w * 8)
  | .xwait a sl => encM 0x01 a (sl * 2 ^ 11)
  | .xtake a sl => encM 0x02 a (sl * 2 ^ 11)
  | .xput a sl => encM 0x03 a (sl * 2 ^ 11)
  | .qpost a => encM 0x05 a 0
  | .soadd a o => encM 0x08 a o
  | .sowait a o => encM 0x09 a o
  | .soset a o => encM 0x0A a o
  | .mf .post a => encM 0x0C a 0
  | .mf .samp a => encM 0x0D a 0
  | .mf .rev a => encM 0x0E a 0

/-- A slot's 32 bits (R80). -/
def Slot.enc (s : Slot) : Nat := s.op.enc + s.pred * 2 ^ 22 + b2n s.neg * 2 ^ 21

/-- Choose when the reserved bits are 0; a reserved opcode is 1, a reserved field value 2 (R11, R102, R552). -/
def fieldsOk (b : Bool) (o : SlotOp) : Except Nat SlotOp := if b then .ok o else .error 2

/-- The S slot of 21 operand bits and an opcode (R82, R87, R111). -/
def decS (op x : Nat) : Except Nat SlotOp :=
  let d := bits x 16 5
  let a := bits x 11 5
  let b := bits x 6 5
  let fn := bits x 0 6
  let i := bits x 0 11
  match op with
  | 0x01 => match aluOf fn with
    | some o => .ok (.alu o d a b)
    | none => .error 2
  | 0x02 => .ok (.imm .addi d a i)
  | 0x03 => .ok (.imm .andi d a i)
  | 0x04 => .ok (.imm .ori d a i)
  | 0x05 => .ok (.imm .xori d a i)
  | 0x06 => match i / 32 with
    | 0 => .ok (.shi .shl d a (i % 32))
    | 1 => .ok (.shi .shr d a (i % 32))
    | 2 => .ok (.shi .sra d a (i % 32))
    | _ => .error 2
  | 0x07 => .ok (.imm .cati d a i)
  | 0x09 => match cmpOf fn with
    | some o => fieldsOk (d < 8) (.cmp o d a b)
    | none => .error 2
  | 0x0A => fieldsOk (d < 8) (.cmpi .eq d a i)
  | 0x0B => fieldsOk (d < 8) (.cmpi .lt d a i)
  | 0x0C => fieldsOk (d < 8) (.cmpi .ltu d a i)
  | 0x0D =>
    let ok := decide (d < 8) && decide (a < 8) && decide (b < 8)
    match fn with
    | 0 => fieldsOk ok (.plog .and d a b)
    | 1 => fieldsOk ok (.plog .or d a b)
    | 2 => fieldsOk ok (.plog .xor d a b)
    | 3 => fieldsOk ok (.plog .andn d a b)
    | _ => .error 2
  | 0x10 => .ok (.mem .ld d a i)
  | 0x11 => .ok (.mem .st d a i)
  | 0x12 => .ok (.mem .ldh d a i)
  | 0x13 => .ok (.mem .sth d a i)
  | 0x70 => .ok (.br x)
  | 0x71 => fieldsOk (d == 0 && i == 0) (.brr a)
  | 0x72 => .ok (.loop (bits x 20 1) (bits x 15 5) (bits x 0 15))
  | 0x73 => fieldsOk (x == 0) .endp
  | 0x74 => fieldsOk (bits x 2 14 == 0) (.rdspec d (bits x 0 5))
  | _ => .error 1

/-- Whether a register number is even. -/
def ev (n : Nat) : Bool := n % 2 == 0

/-- The V slot (R82, R112, R143, R144, R192, R381, R552). -/
def decV (op x : Nat) : Except Nat SlotOp :=
  let d := bits x 17 4
  let a := bits x 13 4
  let b := bits x 9 4
  let c := bits x 5 4
  let fn := bits x 0 5
  let bc := b == 0 && c == 0
  match op with
  | 0x01 => match fopOf fn with
    | some o => fieldsOk (o == .fma || c == 0) (.vbf o d a b c)
    | none => .error 2
  | 0x02 => match fopOf (fn / 2) with
    | some o =>
      let w := fn % 2 == 1
      fieldsOk ((o == .fma || c == 0) && (!w || (ev d && ev a && ev b && ev c))) (.vf32 o w d a b c)
    | none => .error 2
  | 0x03 => fieldsOk (bc && decide (fn < 3) && (if fn = 2 then ev d else ev a)) (.vcvt fn d a)
  | 0x04 => match fn with
    | 0 => fieldsOk bc (.vfun .exp2 d a)
    | 1 => fieldsOk bc (.vfun .rcp d a)
    | 2 => fieldsOk bc (.vfun .rsqrt d a)
    | _ => .error 2
  | 0x05 => match fn with
    | 0 => fieldsOk bc (.vred .sum d a)
    | 1 => fieldsOk bc (.vred .max d a)
    | 2 => fieldsOk bc (.vred .min d a)
    | 3 => fieldsOk (bc && decide (d < 8)) (.vred .any d a)
    | 4 => fieldsOk (bc && decide (d < 8)) (.vred .all d a)
    | _ => .error 2
  | 0x06 => .ok (.vld d a (bits x 0 13))
  | 0x07 => .ok (.vst d a (bits x 0 13))
  | 0x08 => fieldsOk (bc && fn == 0) (.vbcast d a)
  | 0x09 => fieldsOk (decide (fn < 2) && ev a && decide (c < 2)) (.vq8 (fn == 1) d a b c)
  | 0x0A => fieldsOk (fn == 0 && ev d && decide (c < 2)) (.vdq8 d a b c)
  | 0x0B => fieldsOk (fn == 0 && a == 0 && bc) (.vrand d)
  | 0x0C => fieldsOk (decide (fn < 2) && (c % 2 == 1 || decide (c < 4))) (.pack24 (fn == 1) d a b c)
  | 0x0D => match fn with
    | 0 => fieldsOk (bc && d == 0) (.sv .hist0 a)
    | 1 => fieldsOk (bc && d == 0) (.sv .hist1 a)
    | _ => .error 2
  | 0x0E => match fn with
    | 0 => fieldsOk (bc && d == 0) (.sv .cut0 a)
    | 1 => fieldsOk (bc && d == 0) (.sv .cut1 a)
    | 2 => fieldsOk (bc && d == 0) (.sv .cut2 a)
    | _ => .error 2
  | 0x0F => fieldsOk (fn == 0 && bc && d == 0) (.sv .draw a)
  | 0x10 => fieldsOk (fn == 0 && bc) (.vmov d a)
  | _ => .error 1

/-- The M slot (R159, R162, R170–R175, R201, R206); register numbers beyond a limit are reserved. -/
def decM (op x : Nat) : Except Nat SlotOp :=
  let a := bits x 16 5
  let acc := bits x 10 6
  let n := bits x 4 6
  let w := bits x 3 1
  let wl := bits x 15 1
  match op with
  | 0x01 => fieldsOk (a == 0 && bits x 0 3 == 0) (.mzero acc n (w == 1))
  | 0x02 => fieldsOk (decide (a < 30) && bits x 0 15 == 0) (.mldw 1 a wl)
  | 0x03 => fieldsOk (decide (a < 30) && bits x 0 15 == 0) (.mldw 2 a wl)
  | 0x04 => fieldsOk (decide (a < 30) && bits x 0 14 == 0) (.mldw (3 + bits x 14 1) a wl)
  | 0x05 => fieldsOk (decide (a < 30) && bits x 0 3 == 0) (.mrun a acc n w)
  | 0x06 => fieldsOk (decide (a < 31) && bits x 4 4 == 0 && bits x 0 3 == 0 && acc % 32 == 0)
      (.mblk a acc (bits x 9 1) (bits x 8 1) w)
  | 0x07 => fieldsOk (bits x 0 9 == 0 && decide (bits x 9 7 ≤ 64)) (.mspill a (bits x 9 7))
  | 0x08 => fieldsOk (decide (a < 31) && bits x 0 11 == 0 && bits x 14 2 != 3 && bits x 11 2 != 3)
      (.mepi a (bits x 14 2) (bits x 13 1) (bits x 11 2))
  | 0x09 => fieldsOk (decide (a < 31) && bits x 0 2 == 0) (.mout a acc n (w == 1) (bits x 2 1 == 1))
  | 0x0A => fieldsOk (bits x 16 1 == 0 && bits x 0 10 == 0 && ev (bits x 17 4)) (.mrda (bits x 17 4) acc)
  | 0x0B => fieldsOk (decide (a < 31) && bits x 0 3 == 0) (.mlook a acc n w)
  | _ => .error 1

/-- The X slot (R114, R227). -/
def decX (op x : Nat) : Except Nat SlotOp :=
  let a := bits x 16 5
  let sl := bits x 11 5
  let slipOk := bits x 0 11 == 0
  let syncOk := bits x 13 3 == 0
  let postOk := bits x 0 16 == 0
  match op with
  | 0x01 => fieldsOk slipOk (.xwait a sl)
  | 0x02 => fieldsOk slipOk (.xtake a sl)
  | 0x03 => fieldsOk slipOk (.xput a sl)
  | 0x05 => fieldsOk postOk (.qpost a)
  | 0x08 => fieldsOk syncOk (.soadd a (bits x 0 13))
  | 0x09 => fieldsOk syncOk (.sowait a (bits x 0 13))
  | 0x0A => fieldsOk syncOk (.soset a (bits x 0 13))
  | 0x0C => fieldsOk postOk (.mf .post a)
  | 0x0D => fieldsOk postOk (.mf .samp a)
  | 0x0E => fieldsOk postOk (.mf .rev a)
  | _ => .error 1

/-- A slot's operation from its class and 32 bits. -/
def decOp (cls raw : Nat) : Except Nat SlotOp :=
  match cls with
  | 0 => decS (bits raw 25 7) (bits raw 0 21)
  | 1 => decV (bits raw 25 7) (bits raw 0 21)
  | 2 => decM (bits raw 25 7) (bits raw 0 21)
  | _ => decX (bits raw 25 7) (bits raw 0 21)

/-- A slot of a class decoded, or the DETAIL of its ILLEGAL_OP. PRED = 0 with PNEG = 1 is reserved (R81). -/
def decodeSlot (cls raw : Nat) : Except Nat Slot :=
  match decOp cls raw with
  | .error d => .error d
  | .ok o =>
    if bits raw 22 3 = 0 ∧ bits raw 21 1 = 1 then .error 2
    else .ok { pred := bits raw 22 3, neg := bits raw 21 1 == 1, op := o }

/-- Whether an operation is a control instruction. -/
def SlotOp.isCtl : SlotOp → Bool
  | .br _ => true
  | .brr _ => true
  | .loop .. => true
  | .endp => true
  | _ => false

/-- Registers without those whose writes are discarded and whose reads are constant: g0 and p0 (R75). -/
def realRegs (l : List Dst) : List Dst := l.filter fun r => r != .g 0 && r != .p 0

/-- A pair of v registers. -/
def vpair (n : Nat) : List Dst := [.v n, .v (n + 1)]

/-- The registers an operation reads. -/
def SlotOp.reads : SlotOp → List Dst
  | .alu _ _ a b => [.g a, .g b]
  | .imm _ _ a _ => [.g a]
  | .shi _ _ a _ => [.g a]
  | .cmp _ _ a b => [.g a, .g b]
  | .cmpi _ _ a _ => [.g a]
  | .plog _ _ a b => [.p a, .p b]
  | .mem .ld _ a _ => [.g a]
  | .mem .ldh _ a _ => [.g a]
  | .mem _ d a _ => [.g a, .g d]
  | .br _ => []
  | .brr a => [.g a]
  | .loop _ a _ => [.g a]
  | .endp => []
  | .rdspec _ _ => []
  | .vbf o _ a b c => [.v a, .v b] ++ if o = .fma then [.v c] else []
  | .vf32 o false _ a b c => [.v a, .v b] ++ if o = .fma then [.v c] else []
  | .vf32 o true _ a b c => vpair a ++ vpair b ++ if o = .fma then vpair c else []
  | .vcvt fn _ a => if fn = 2 then [.v a] else vpair a
  | .vfun _ _ a => [.v a]
  | .vred _ _ a => [.v a]
  | .vld _ a _ => [.g a]
  | .vst d a _ => [.g a, .v d]
  | .vbcast _ a => [.g a]
  | .vq8 _ d a b _ => vpair a ++ [.v b, .v d]
  | .vdq8 _ a b _ => [.v a, .v b]
  | .vrand _ => []
  | .pack24 _ d a _ _ => [.v a, .v d]
  | .sv _ a => [.v a]
  | .vmov _ a => [.v a]
  | .mzero .. => []
  | .mldw _ a _ => [.g a, .g (a + 1), .g (a + 2)]
  | .mrun a _ _ _ => [.g a, .g (a + 1), .g (a + 2)]
  | .mblk a _ _ _ _ => [.g a, .g (a + 1)]
  | .mspill a _ => [.g a]
  | .mepi a _ _ _ => [.g a, .g (a + 1)]
  | .mout a _ _ _ _ => [.g a, .g (a + 1)]
  | .mrda _ _ => []
  | .mlook a _ _ _ => [.g a, .g (a + 1)]
  | .xwait a _ => [.g a]
  | .xtake a _ => [.g a]
  | .xput a _ => [.g a]
  | .qpost a => [.g a]
  | .soadd a _ => [.g a]
  | .sowait a _ => [.g a]
  | .soset a _ => [.g a]
  | .mf _ a => [.g a]

/-- The registers an operation writes. -/
def SlotOp.writes : SlotOp → List Dst
  | .alu _ d _ _ => [.g d]
  | .imm _ d _ _ => [.g d]
  | .shi _ d _ _ => [.g d]
  | .cmp _ d _ _ => [.p d]
  | .cmpi _ d _ _ => [.p d]
  | .plog _ d _ _ => [.p d]
  | .mem .ld d _ _ => [.g d]
  | .mem .ldh d _ _ => [.g d]
  | .rdspec d _ => [.g d]
  | .vbf _ d _ _ _ => [.v d]
  | .vf32 _ false d _ _ _ => [.v d]
  | .vf32 _ true d _ _ _ => vpair d
  | .vcvt fn d _ => if fn = 2 then vpair d else [.v d]
  | .vfun _ d _ => [.v d]
  | .vred .any d _ => [.p d]
  | .vred .all d _ => [.p d]
  | .vred _ d _ => [.g d]
  | .vld d _ _ => [.v d]
  | .vbcast d _ => [.v d]
  | .vq8 _ d _ _ _ => [.v d]
  | .vdq8 d _ _ _ => vpair d
  | .vrand d => [.v d]
  | .pack24 _ d _ b _ => [.v d, .g b]
  | .vmov d _ => [.v d]
  | .mrda d _ => vpair d
  | _ => []

/-- The registers a slot reads, its predicate register among them (R81). -/
def Slot.reads (s : Slot) : List Dst := realRegs (.p s.pred :: s.op.reads)
/-- The registers a slot writes. -/
def Slot.writes (s : Slot) : List Dst := realRegs s.op.writes

/-- The number of a register, as T_HALT_AUX[39:32] holds it (R102). -/
def Dst.num : Dst → Nat
  | .g n => n
  | .v n => n
  | .p n => n

/-- Latency by bank group (R86): base for banks 0–3, one more for each four banks. -/
def bankLat (base off : Nat) : Nat := base + off / 0x6000 / 4

/-- The latency of an operation's register results (R86, R115); off is the scratchpad offset a load reads. -/
def SlotOp.lat (b0 : Bool) (off : Nat) : SlotOp → Nat
  | .alu .mul _ _ _ => if b0 then 2 else 3
  | .mem _ _ _ _ => bankLat 2 off
  | .rdspec _ _ => 2
  | .vbf .. => 3
  | .vf32 .fma .. => if b0 then 4 else 5
  | .vf32 .. => if b0 then 3 else 4
  | .vcvt .. => if b0 then 2 else 3
  | .vfun .. => if b0 then 6 else 8
  | .vred .. => if b0 then 5 else 6
  | .vld .. => bankLat 3 off
  | .vbcast .. => 3
  | .vq8 .. => if b0 then 2 else 3
  | .vdq8 .. => if b0 then 2 else 3
  | .vrand .. => 3
  | .pack24 .. => if b0 then 2 else 3
  | .vmov .. => 3
  | .mrda .. => if b0 then 3 else 4
  | _ => 1

end Sys2Proof.Machine
end

