-- ==== Sys2Proof/Machine/Scratch.lean ====
section
/-! DEFINITION. Scratchpad, slips and credits (R215–R234): where a count of a slip lies, what a slip holds, which
bytes are code, how a credit is asked for, granted, written under, closed and appended. -/

namespace Sys2Proof.Machine

/-- A slip's size (R220); 0 is off. -/
def State.slipSize (s : State) (t i : Nat) : Nat := s.rd F.SLIP_SIZE_SIZE t i
/-- A slip's producer class. -/
def State.slipClass (s : State) (t i : Nat) : Nat := s.rd F.SLIP_ATTR_CLASS t i
/-- A slip's head count. -/
def State.slipHead (s : State) (t i : Nat) : Nat := s.rd F.SLIP_HEAD_COUNT t i
/-- A slip's tail count. -/
def State.slipTail (s : State) (t i : Nat) : Nat := s.rd F.SLIP_TAIL_COUNT t i
/-- HEAD − TAIL, modulo 2³² (R219). -/
def State.slipHeld (s : State) (t i : Nat) : Nat := (s.slipHead t i + 2 ^ 32 - s.slipTail t i) % 2 ^ 32
/-- The bytes that a reader of a slip may take: none of a restored pair that exceeds the size (R221). -/
def State.slipAvail (s : State) (t i : Nat) : Nat := if s.slipHeld t i ≤ s.slipSize t i then s.slipHeld t i else 0
/-- FREE (R219); negative where a restored pair exceeds the size. -/
def State.slipFree (s : State) (t i : Nat) : Int :=
  (s.slipSize t i : Int) - (s.slipHeld t i : Int) - (s.rd F.SLIP_RSV_BYTES t i : Int)
/-- The scratchpad offset of a count of a slip (R219). -/
def State.slipOff (s : State) (t i c : Nat) : Nat := s.rd F.SLIP_BASE_BASE t i + c % s.slipSize t i

/-- The device addresses of n bytes from a count, wrapping in the ring. -/
def State.slipAddrs (s : State) (t i c n : Nat) : List Nat :=
  (List.range n).map fun j => spad t (s.slipOff t i ((c + j) % 2 ^ 32))

/-- The bytes of a slip from a count. -/
def State.slipBytes (s : State) (t i c n : Nat) : List Byte := (s.slipAddrs t i c n).map s.byte

/-- Write bytes into a slip from a count. -/
def State.putSlip (s : State) (t i c : Nat) (d : List Byte) : State :=
  ((s.slipAddrs t i c d.length).zip d).foldl (fun s e => s.setByte e.1 e.2) s

/-- The scratchpad ranges that n bytes from a count of a slip take, wrapping in the ring. -/
def State.slipSpan (s : State) (t i c n : Nat) : List (Nat × Nat) :=
  let o := s.slipOff t i c
  let e := s.rd F.SLIP_BASE_BASE t i + s.slipSize t i - o
  if n ≤ e then [(o, n)] else [(o, e), (s.rd F.SLIP_BASE_BASE t i, min (n - e) (s.slipSize t i))]

/-- A slip's head advances (R223). -/
def State.headAdd (s : State) (t i n : Nat) : State := s.inc F.SLIP_HEAD_COUNT n t i

/-- Whether any byte of a range lies in a slip with EXEC set (R222). -/
def State.inExec (s : State) (t off n : Nat) : Bool :=
  (List.range 32).any fun i =>
    let b := s.rd F.SLIP_BASE_BASE t i
    s.rd F.SLIP_ATTR_EXEC t i == 1 && decide (0 < s.slipSize t i) && decide (off < b + s.slipSize t i)
      && decide (b < off + n)

/-- Whether every byte of a range lies in a slip with EXEC set (R79): each 2-byte unit does. -/
def State.allExec (s : State) (t off n : Nat) : Bool :=
  (List.range ((n + 1) / 2)).all fun j => s.inExec t (off + 2 * j) 1

/-! ## Credits -/

/-- STATE of a credit record: 0 free, 1 open, 2 closed, 3 REVOKED (R234). -/
def State.credState (s : State) (t c : Nat) : Nat := s.rd F.T_CRED_A_STATE t c

/-- The refusal of a credit request (R229), or none. -/
def State.credRefusal (s : State) (t slip bytes cls : Nat) : Nat :=
  if s.tstate t = 4 then 8
  else if s.slipSize t slip = 0 ∨ s.rd F.SLIP_ATTR_EXEC t slip = 1 then 5
  else if s.slipClass t slip ≠ cls then 5
  else if bytes = 0 ∨ bytes % 64 ≠ 0 ∨ bytes > s.slipSize t slip then 6
  else 0

/-- Queue an accepted credit request (R230). -/
def State.credQueue (s : State) (t slip bytes cls unit : Nat) : State :=
  s.upTile t fun x => { x with creds := x.creds ++ [{ slip := slip, bytes := bytes, cls := cls, unit := unit }] }

/-- The lowest free credit record. -/
def State.freeRec (s : State) (t : Nat) : Option Nat := (List.range 16).find? fun c => s.credState t c == 0

/-- The waiting request granted next (R230): the earliest arrived of those at the front of their slips' queues whose
bytes fit. -/
def nextGrant (s : State) (t : Nat) : List CredReq → List Nat → Option CredReq
  | [], _ => none
  | r :: rs, seen =>
    if seen.contains r.slip then nextGrant s t rs seen
    else if s.slipFree t r.slip ≥ (r.bytes : Int) then some r
    else nextGrant s t rs (r.slip :: seen)

/-- Open a credit in a record (R230): START := HEAD + RSV, and RSV rises by BYTES. -/
def State.openCred (s : State) (t c : Nat) (r : CredReq) : State :=
  let s := s.wr F.T_CRED_A_SLIP r.slip t c
  let s := s.wr F.T_CRED_A_CLASS r.cls t c
  let s := s.wr F.T_CRED_A_UNIT r.unit t c
  let s := s.wr F.T_CRED_A_START (s.slipHead t r.slip + s.rd F.SLIP_RSV_BYTES t r.slip) t c
  let s := s.wr F.T_CRED_A_STATE 1 t c
  let s := s.wr F.T_CRED_B_BYTES r.bytes t c
  let s := s.wr F.T_CRED_B_WRITTEN 0 t c
  let s := s.inc F.SLIP_RSV_BYTES r.bytes t r.slip
  let s := s.inc F.SLIP_RSV_CREDITS 1 t r.slip
  s.upTile t fun x => { x with creds := dropFirst (fun q => q == r) x.creds, credOrd := x.credOrd ++ [c],
                               credDone := x.credDone.filter fun k => k / 65536 != c }

/-- Free a credit record. -/
def State.freeCred (s : State) (t c : Nat) : State :=
  (s.wr F.T_CRED_A_STATE 0 t c).upTile t fun x =>
    { x with credOrd := x.credOrd.filter (fun k => k != c), credDone := x.credDone.filter fun k => k / 65536 != c }

/-- The refusal of a credited write (R231, R233, R239, R544), in the order fenced, revoked, not held, out of range,
code; 0 accepts it. -/
def State.credWriteCode (s : State) (t c cls unit off len : Nat) : Nat :=
  if s.tstate t = 4 then 8
  else
    let held := s.rd F.T_CRED_A_CLASS t c == cls && s.rd F.T_CRED_A_UNIT t c == unit
    if held && s.credState t c == 3 then 7
    else if !held || s.credState t c != 1 then 4
    else if (len ≠ 32 ∧ len ≠ 64) ∨ off % len ≠ 0 ∨ off + len > s.rd F.T_CRED_B_BYTES t c then 4
    else
      let slip := s.rd F.T_CRED_A_SLIP t c
      let o := s.slipOff t slip ((s.rd F.T_CRED_A_START t c + off) % 2 ^ 32)
      if s.tstate t = 1 ∧ s.inExec t o len then 2 else 0

/-- Carry out an accepted credited write (R231): its bytes land at START + offset, WRITTEN counts each 32-byte unit
once, LAST closes the credit. -/
def State.credWrite (s : State) (t c off : Nat) (d : List Byte) (last : Bool) : State :=
  let slip := s.rd F.T_CRED_A_SLIP t c
  let s := s.putSlip t slip ((s.rd F.T_CRED_A_START t c + off) % 2 ^ 32) d
  let units := (List.range (d.length / 32)).map fun j => c * 65536 + off / 32 + j
  let new := units.filter fun k => !((s.tile t).credDone.contains k)
  let s := s.upTile t fun x => { x with credDone := x.credDone ++ new }
  let s := s.inc F.T_CRED_B_WRITTEN (32 * new.length) t c
  if last then s.wr F.T_CRED_A_STATE 2 t c else s

/-- The earliest-granted credit of a slip still held (R232). -/
def State.firstCred (s : State) (t slip : Nat) : Option Nat :=
  (s.tile t).credOrd.find? fun c => s.rd F.T_CRED_A_SLIP t c == slip && (s.credState t c == 1 || s.credState t c == 2)

/-- HEAD advances over closed credits of a slip in grant order (R232), as many as stand at the front. -/
def State.appendCreds (s : State) (t slip : Nat) : Nat → State
  | 0 => s
  | n + 1 =>
    match s.firstCred t slip with
    | some c =>
      if s.credState t c = 2 then
        let b := s.rd F.T_CRED_B_BYTES t c
        let s := s.headAdd t slip b
        let s := s.wr F.SLIP_RSV_BYTES (s.rd F.SLIP_RSV_BYTES t slip - b) t slip
        let s := s.wr F.SLIP_RSV_CREDITS (s.rd F.SLIP_RSV_CREDITS t slip - 1) t slip
        (s.freeCred t c).appendCreds t slip n
      else s
    | none => s

/-- The open or closed credits of a slip, in grant order. -/
def State.slipCreds (s : State) (t slip : Nat) : List Nat :=
  (s.tile t).credOrd.filter fun c => s.rd F.T_CRED_A_SLIP t c == slip && (s.credState t c == 1 || s.credState t c == 2)

/-- Release a credit at the fence of its tile or under R233: RSV falls, HEAD stays. -/
def State.releaseCred (s : State) (t c st : Nat) : State :=
  let slip := s.rd F.T_CRED_A_SLIP t c
  let s := s.wr F.SLIP_RSV_BYTES (s.rd F.SLIP_RSV_BYTES t slip - s.rd F.T_CRED_B_BYTES t c) t slip
  let s := s.wr F.SLIP_RSV_CREDITS (s.rd F.SLIP_RSV_CREDITS t slip - 1) t slip
  let s := s.wr F.T_CRED_A_STATE st t c
  let s := s.upTile t fun x => { x with credOrd := x.credOrd.filter fun k => k != c }
  s.inc F.FT_WALK_CREDITS_COUNT 1

/-- The reclaim walk on one slip (R233): the credits from the first one of the fenced holder onward, in grant order,
are released as REVOKED, and the slip is stuck. -/
def State.reclaimSlip (s : State) (t slip cls unit : Nat) : State :=
  let cs := s.slipCreds t slip
  let mine := fun c => s.rd F.T_CRED_A_CLASS t c == cls && s.rd F.T_CRED_A_UNIT t c == unit && s.credState t c == 1
  match cs.dropWhile fun c => !mine c with
  | [] => s
  | l => (l.foldl (fun s c => s.releaseCred t c 3) s).wr F.SLIP_ATTR_STUCK 1 t slip

/-- Tiles whose registers are not all at reset, by id: those a walk over the grid has to visit. -/
def State.liveTiles (s : State) : List Nat :=
  ((s.rf.map fun e => e.1 / 64).filter fun a => decide (0x2000_0000_0000 ≤ a) && decide (a < 0x2000_C000_0000)).map
    (fun a => (a - 0x2000_0000_0000) / 0x10_0000) |>.eraseDups

/-- The tile's last refusal answer: who was refused (class × 4096 + unit), with which code. -/
def State.refuse (s : State) (t who code : Nat) : State :=
  s.upTile t fun x => { x with refusal := some (who, code) }

end Sys2Proof.Machine
end

