-- ==== Sys2Proof/Machine/Ctl.lean ====
section
/-! DEFINITION. What is common to the whole module: the module state and CP_STATE (R487, R496, R497), the grid clock
and what its start resets (R65, R94, R169, R188, R244, R479), tokens (R184), and a tile's GO, RESUME and STOP
(R93, R98, R99, R101). -/

namespace Sys2Proof.Machine

/-! ## Module state -/

/-- A field of CP_STATE's byte for partition p (R487). -/
def partFld (f : Fld) (p : Nat) : Fld := { f with lo := f.lo + 8 * p }

/-- RUN of a partition (R497). -/
def State.run (s : State) (p : Nat) : Bool := s.rd (partFld F.CP_STATE_RUN p) == 1
/-- RESUMABLE of a partition (R487). -/
def State.resumable (s : State) (p : Nat) : Bool := s.rd (partFld F.CP_STATE_RESUMABLE p) == 1
/-- Whether a partition is enabled (R449). -/
def State.partEn (s : State) (p : Nat) : Bool := s.rd F.PT_PART_A_EN 0 p == 1
/-- The current client of a partition. -/
def State.client (s : State) (p : Nat) : Nat := s.rd F.PT_PART_A_CLIENT 0 p
/-- The image a client has loaded in a partition. -/
def State.image (s : State) (p c : Nat) : Option Image := s.ctl.images.find? fun i => i.part == p && i.client == c
/-- The image of a partition's current client. -/
def State.curImage (s : State) (p : Nat) : Option Image := s.image p (s.client p)

/-- The module state that the conditions of R496 give. -/
def State.modState (s : State) : Nat :=
  if s.ctl.base = 0 then 0
  else if s.ctl.faulted then 8
  else if s.ctl.base = 2 then
    (if s.ctl.updating then 6 else if s.ctl.drain.isSome then 5 else if s.ctl.switch.isSome then 4
     else if (List.range 4).any s.run then 3 else 2)
  else s.ctl.base

/-- CP_STATE as it stands. -/
def State.cpState (s : State) : Nat :=
  (List.range 4).foldl (fun a p => a ||| s.reg
    [partFld F.CP_STATE_LOADED p, partFld F.CP_STATE_RUN p, partFld F.CP_STATE_RESUMABLE p,
     partFld F.CP_STATE_SWITCHING p, partFld F.CP_STATE_ROAST p]) (s.rd F.CP_STATE_STATE)

/-- CP_STATE follows what it reports (R487, R496), leaving RUN and RESUMABLE. -/
def State.cpFields (s : State) : State :=
  ((List.range 4).foldl (fun s p =>
    let s := s.wr (partFld F.CP_STATE_LOADED p) (if (s.curImage p).isSome then 1 else 0)
    let s := s.wr (partFld F.CP_STATE_SWITCHING p) (s.rd F.PT_PART_A_SWITCHING 0 p)
    s.wr (partFld F.CP_STATE_ROAST p) (bits (s.rd F.PW_ROAST_ROAST) (2 * p) 2)) s).wr F.CP_STATE_STATE s.modState

/-- Bring CP_STATE up to date after a change; a change sets CP_EVENTS.STATE (R497), and a change of the module state
is a management event (R527). old is the state before the change. -/
def State.settle (s : State) (old : State) : State :=
  let s1 := s.cpFields
  let s1 := if s1.rd F.CP_STATE_STATE = old.rd F.CP_STATE_STATE then s1
            else s1.upCtl fun c => { c with mgState := true }
  if s1.cpState = old.cpState then s1 else (s1.cpEvent 1).alertSync

/-- Set or clear RUN of a partition. -/
def State.setRun (s : State) (p : Nat) (b : Bool) : State := s.wr (partFld F.CP_STATE_RUN p) (b2n b)
/-- Set or clear RESUMABLE of a partition. -/
def State.setResumable (s : State) (p : Nat) (b : Bool) : State := s.wr (partFld F.CP_STATE_RESUMABLE p) (b2n b)

/-! ## Place and tokens -/

/-- A tile's row band (R6). -/
def bandOf (t : Nat) : Nat := tileY t / 4
/-- The partition that holds a row band, where one does (R449). -/
def State.bandPart (s : State) (b : Nat) : Option Nat :=
  (List.range 4).find? fun p => s.partEn p && decide (s.rd F.PT_PART_A_FIRST 0 p ≤ b)
    && decide (b ≤ s.rd F.PT_PART_A_LAST 0 p)
/-- The partition a tile belongs to, where it does (R449, R450). -/
def State.tilePart (s : State) (t : Nat) : Option Nat := s.bandPart (bandOf t)
/-- The tiles of a partition's rows. -/
def State.partTiles (s : State) (p : Nat) : List Nat :=
  let f := s.rd F.PT_PART_A_FIRST 0 p
  (List.range (256 * (s.rd F.PT_PART_A_LAST 0 p + 1 - f))).map fun i => 256 * f + i

/-! ## The grid clock -/

/-- Whether the grid clock runs. -/
def State.clockRuns (s : State) : Bool := s.power.state == .active

/-- A trigger of R479 starts the grid clock: from IDLE, seeding begins. -/
def State.gridStart (s : State) : State :=
  if s.power.state = .idle then s.upPower fun p => { p with state := .starting } else s

/-- The tile-window offset of a key, where it lies in a tile window. -/
def tileOff (k : Nat) : Option Nat :=
  let a := k / 64
  if 0x2000_0000_0000 ≤ a ∧ a < 0x2000_C000_0000 then some (a % 0x10_0000) else none

/-- The tile of a key, where it lies in a tile window. -/
def tileOfKey (k : Nat) : Option Nat :=
  let a := k / 64
  if 0x2000_0000_0000 ≤ a ∧ a < 0x2000_C000_0000 then some ((a - 0x2000_0000_0000) / 0x10_0000) else none

/-- Tile-window offsets of the counters that R94 resets: times, random bits drawn, sparsity, sieve, errors, banks,
manifest engine, router. -/
def tileCounter (o : Nat) : Bool :=
  (0x80108 ≤ o && o ≤ 0x80170) || (0x80308 ≤ o && o ≤ 0x80318) || (0x80438 ≤ o && o ≤ 0x80478) ||
  (0x80508 ≤ o && o ≤ 0x80538) || o == 0x86A00 || o == 0x86A08 || o == 0x86A18 || o == 0x86A20 ||
  (0x86B10 ≤ o && o ≤ 0x86B60) || (0x87018 ≤ o && o ≤ 0x87040)

/-- Keys of the counters that a start of the grid clock resets (R65, R94, R188, R271, R278). -/
def clockCounter (k : Nat) : Bool :=
  let a := k / 64
  let d := 0x3800_0000_0000
  (match tileOff k with
   | some o => tileCounter o || (o == 0x80240 && k % 64 == 16)
   | none => false) ||
  a == d + 0x2000 || (d + 0x2018 ≤ a && a ≤ d + 0x2048) || (d + 0x30C0 ≤ a && a < d + 0x3120) ||
  a == d + 0x4808 || a == d + 0x12_0008

/-- Offsets of the matrix state that R169 sets to +0, 0 and empty, T_MSKIP and T_MAUDIT (R209) among them. -/
def matrixOff (o : Nat) : Bool :=
  o == 0x80408 || o == 0x80420 || o == 0x80428 || (0x82000 ≤ o && o < 0x84040) || (0x84800 ≤ o && o < 0x85800)

/-- Matrix state reset on every tile that passes a test (R169). -/
def State.matrixReset (s : State) (p : Nat → Bool) : State :=
  s.dropRf fun k => match tileOff k, tileOfKey k with
    | some o, some t => matrixOff o && p t
    | _, _ => false

/-- The grid clock starts to count (R94, R169, R65): counters reset, matrix state reset, generators seeded. -/
def State.clockBegin (s : State) : State :=
  let s := s.dropRf clockCounter
  let s := s.matrixReset fun _ => true
  let s := { s with tc := 0 }
  let s := s.mapTiles fun _ x => { x with busyTc := 0, scrub := [], sent := [] }
  let s := s.upHub fun h => { h with sampled := 0, sampleAt := none }
  s.upPower fun p => { p with state := .active }

/-! ## GO, RESUME, STOP -/

/-- Clear the halt record (R93, R97). -/
def State.clearHalt (s : State) (t : Nat) : State := haltFields.foldl (fun s f => s.wr f 0 t) s

/-- Clear both hardware-loop levels. -/
def State.clearLoops (s : State) (t : Nat) : State :=
  [0, 1].foldl (fun s l => (((s.wr F.T_LOOP_ACTIVE 0 t l).wr F.T_LOOP_COUNT 0 t l).wr F.T_LOOP_RANGE_START 0 t l).wr
    F.T_LOOP_RANGE_END 0 t l) s

/-- A GO takes effect (R93, R99, R100): the stamp check, then issue from T_ENTRY. -/
def State.applyGo (s : State) (t : Nat) : State :=
  let entry := s.rd F.T_ENTRY_ADDR t
  let stamp := s.rd F.T_CODE_STAMP_STAMP t
  let s := (s.clearHalt t).clearLoops t
  let s := (s.wr F.T_WDOG_COUNT_TC 0 t).wr F.T_PC_ADDR entry t
  let s := s.upTile t fun x => { x with held := 0, wait := 0, skipBp := false, stopReq := false, manHalt := false, soWait := none, qpost := none, atBar := false }
  if stamp ≠ s.stepid then s.halt t 0x12 4 entry 0 (stamp + 2 ^ 16 * s.stepid)
  else s.wr F.T_STATUS_STATE 1 t

/-- A RESUME takes effect (R93, R101): the word at T_HALT.ADDR issues once with its breakpoint ignored. A tile that its
barrier holds waits on for the release (R83). -/
def State.applyResume (s : State) (t : Nat) : State :=
  let a := s.rd F.T_HALT_ADDR t
  let s := s.clearHalt t
  let s := (s.wr F.T_WDOG_COUNT_TC 0 t).wr F.T_PC_ADDR a t
  let s := s.upTile t fun x => { x with held := 0, wait := if x.atBar then 14 else 0, skipBp := true, stopReq := false }
  s.wr F.T_STATUS_STATE 1 t

/-- Whether RESUME would act: HALTED with reason BREAKPOINT. -/
def State.canResume (s : State) (t : Nat) : Bool := s.tstate t == 2 && s.rd F.T_HALT_REASON t == 0x10

/-- A GO written to a tile (R93, R98, R479): held during a crossing, and until the clock it starts runs. -/
def State.go (s : State) (t : Nat) : State :=
  if s.tstate t = 1 ∨ s.tstate t = 4 then s
  else if s.power.state = .drowse ∨ s.power.state = .off then s
  else if s.inCrossing t then s.upTile t fun x => { x with held := 1 }
  else if s.clockRuns then s.applyGo t
  else s.gridStart.upTile t fun x => { x with held := 1 }

/-- A RESUME written to a tile: held during a crossing, and while the grid clock stands. -/
def State.resume (s : State) (t : Nat) : State :=
  if !s.canResume t then s
  else if s.power.state = .drowse ∨ s.power.state = .off then s
  else if s.inCrossing t || !s.clockRuns then s.upTile t fun x => { x with held := if x.held = 1 then 1 else 2 }
  else s.applyResume t

/-- A STOP written to a tile (R93, R101): it halts at the next word boundary, which in this model is now. Of a tile that
halted in this same tc it is one more cause (R97). DEDUCED (log 18). -/
def State.stop (s : State) (t : Nat) : State :=
  if s.tstate t = 1 ∨ (s.tstate t = 2 ∧ s.rd F.T_HALT_VALID t = 1 ∧ s.outranks t 0x10 7) then s.halt t 0x10 7 (s.rd F.T_PC_ADDR t) 0x0004 0 else s

/-- What was held of a tile takes effect at its release or at the clock's start (R98). -/
def State.applyHeld (s : State) (t : Nat) : State :=
  match (s.tile t).held with
  | 1 => if s.tstate t = 1 ∨ s.tstate t = 4 then s.upTile t fun x => { x with held := 0 } else s.applyGo t
  | 2 => if s.canResume t then s.applyResume t else s.upTile t fun x => { x with held := 0 }
  | _ => s

end Sys2Proof.Machine
end

