-- ==== Sys2Proof/Machine/Flags.lean ====
section
/-! DEFINITION. What issue decides before a word takes effect: predicates (R81), pending registers and write
conflicts (R84), the cases of one operation. -/

namespace Sys2Proof.Machine

/-- A case or halt cause: reason (R102), DETAIL, AUX. -/
structure Case where
  reason : Nat
  detail : Nat
  aux    : Nat
deriving DecidableEq, Repr

/-- OPERAND_CASE with a DETAIL. -/
def opCase (d : Nat) (aux : Nat := 0) : Case := ⟨0x02, d, aux⟩

/-- A g register; g0 reads 0 (R75). -/
def State.g (s : State) (t n : Nat) : Nat := if n = 0 then 0 else s.rd F.G t n
/-- A v register. -/
def State.v (s : State) (t n : Nat) : Nat := s.rd F.V t n
/-- A pair of v registers, the even one low (R134). -/
def State.v2 (s : State) (t n : Nat) : Nat := s.v t n + 2 ^ 512 * s.v t (n + 1)
/-- A predicate register; p0 reads 1 (R75). -/
def State.p (s : State) (t n : Nat) : Nat := if n = 0 then 1 else s.rd (F.P n) t

/-- Write a register, g0 and p0 discarding the write (R75). -/
def State.setReg (s : State) (t : Nat) (d : Dst) (v : Nat) : State :=
  match d with
  | .g n => if n = 0 then s else s.wr F.G v t n
  | .v n => s.wr F.V v t n
  | .p n => if n = 0 then s else s.wr (F.P n) v t

/-- Whether a slot's predicate lets it execute (R80, R81). -/
def State.predOn (s : State) (t : Nat) (sl : Slot) : Bool := (s.p t sl.pred == 1) != sl.neg

/-- Whether a register's pending flag is set: a result for it is still to retire (R84). -/
def State.isPending (s : State) (t : Nat) (d : Dst) : Bool := (s.tile t).results.any fun r => r.dst == d

/-- ILLEGAL_OP with the offending slot and, for 0x04 and 0x05, the register number (R102). -/
def illegal (detail raw : Nat) (reg : Nat := 0) : Case := ⟨0x01, detail, raw + 2 ^ 32 * reg⟩

/-- The pending and conflict causes of one slot (R84): of what it reads, then of what it writes. seen are the registers
that earlier slots of the word write. -/
def State.pendingCases (s : State) (t : Nat) (sl : Slot) (seen : List Dst) : List Case :=
  ((sl.reads.filter fun d => s.isPending t d).map fun d => illegal 0x04 sl.enc d.num)
    ++ (sl.writes.filter fun d => s.isPending t d || seen.contains d).map fun d => illegal 0x05 sl.enc d.num

/-- A result is issued (R83, R84): it retires lat tc from now. -/
def State.post (s : State) (t : Nat) (lat : Nat) (d : Dst) (v : Nat) : State :=
  if d = .g 0 ∨ d = .p 0 then s
  else s.upTile t fun x => { x with results := x.results ++ [{ due := s.tc + lat, dst := d, val := v }] }

end Sys2Proof.Machine
end

