-- ==== Sys2Proof/Machine/Tile.lean ====
section
/-! DEFINITION. What the scalar and vector slots compute (R76, R111, R112, R116, R143–R146, R192–R196): their register
results from the registers and scratchpad at issue, their cases, their stores. -/

namespace Sys2Proof.Machine

/-- The register results of an operation, or its case. -/
abbrev Eff := Except Case (List (Dst × Nat))

/-- A value in 32 bits. -/
def w32 (i : Int) : Nat := wrap i 32

/-- An ALU function on 32-bit values (R111). -/
def AluOp.val (o : AluOp) (a b : Nat) : Nat :=
  match o with
  | .add => (a + b) % 2 ^ 32
  | .sub => (a + 2 ^ 32 - b) % 2 ^ 32
  | .and => a &&& b
  | .or => a ||| b
  | .xor => a ^^^ b
  | .shl => (a <<< (b % 32)) % 2 ^ 32
  | .shr => a >>> (b % 32)
  | .sra => w32 (sgn a 32 / 2 ^ (b % 32))
  | .mul => (a * b) % 2 ^ 32
  | .min => if sgn a 32 ≤ sgn b 32 then a else b
  | .max => if sgn a 32 ≤ sgn b 32 then b else a
  | .minu => if a ≤ b then a else b
  | .maxu => if a ≤ b then b else a

/-- sext(IMM11) in 32 bits. -/
def sext11 (i : Nat) : Nat := w32 (sgn i 11)

/-- An immediate function (R111). -/
def ImmOp.val (o : ImmOp) (a i : Nat) : Nat :=
  match o with
  | .addi => (a + sext11 i) % 2 ^ 32
  | .andi => a &&& sext11 i
  | .ori => a ||| i
  | .xori => a ^^^ sext11 i
  | .cati => (a <<< 11) % 2 ^ 32 ||| i

/-- A shift by an immediate (R111). -/
def ShOp.val (o : ShOp) (a n : Nat) : Nat :=
  match o with
  | .shl => AluOp.val .shl a n
  | .shr => AluOp.val .shr a n
  | .sra => AluOp.val .sra a n

/-- A comparison (R111). -/
def CmpOp.val (o : CmpOp) (a b : Nat) : Bool :=
  match o with
  | .eq => a == b
  | .ne => a != b
  | .lt => decide (sgn a 32 < sgn b 32)
  | .ltu => decide (a < b)
  | .ge => decide (sgn b 32 ≤ sgn a 32)
  | .geu => decide (b ≤ a)

/-- A comparison with an immediate (R111). -/
def CmpiOp.val (o : CmpiOp) (a i : Nat) : Bool :=
  match o with
  | .eq => a == sext11 i
  | .lt => decide (sgn a 32 < sgn i 11)
  | .ltu => decide (a < sext11 i)

/-- Predicate logic (R111). -/
def PlogOp.val (o : PlogOp) (a b : Nat) : Nat :=
  match o with
  | .and => a &&& b
  | .or => a ||| b
  | .xor => a ^^^ b
  | .andn => a &&& (1 - b)

/-- The size of a scalar access. -/
def MemOp.size : MemOp → Nat
  | .ld => 4 | .st => 4 | .ldh => 2 | .sth => 2

/-- The address of a scalar access, in 32 bits (R111, R116). -/
def State.memAddr (s : State) (t : Nat) (o : MemOp) (a i : Nat) : Nat :=
  w32 ((s.g t a : Int) + sgn i 11 * (o.size : Int))

/-- The address of a vector access, in 32 bits (R112, R116). -/
def State.vecAddr (s : State) (t a off : Nat) : Nat := w32 ((s.g t a : Int) + sgn off 13 * 64)

/-- The address case of an access of n bytes (R116, R117). DESIGN CHOICE (log 159): an address that is both beyond
scratchpad and misaligned reports the lower DETAIL, 0x0101. -/
def addrCase (a n : Nat) : Option Case :=
  if a ≥ 0x6_0000 then some (opCase 0x0101) else if a % n ≠ 0 then some (opCase 0x0102) else none

/-- What RDSPEC reads (R76). -/
def State.special (s : State) (t sel : Nat) : Nat :=
  match sel with
  | 0 => t
  | 1 => s.stepid
  | 2 => s.tc % 2 ^ 32
  | _ => s.tc / 2 ^ 32 % 2 ^ 32

/-- Lanes as one register, the case carrying its lane (R145). -/
def lanesEff (w n : Nat) (f : Nat → Except Nat Nat) (k : Nat → List (Dst × Nat)) : Eff :=
  match lanes f n 0 with
  | .error (d, i) => .error (opCase d i)
  | .ok xs => .ok (k (joinLanes w xs))

/-- A register or an even pair written. -/
def outV (d : Nat) (x : Nat) : List (Dst × Nat) := [(.v d, x)]
/-- A pair written. -/
def outV2 (d : Nat) (x : Nat) : List (Dst × Nat) := [(.v d, x % 2 ^ 512), (.v (d + 1), x / 2 ^ 512)]

/-- How many bits VQ8 FN 1 draws before lane i, and its scale. -/
def q8Off (x scale : Nat) : Nat → Nat
  | 0 => 0
  | n + 1 => q8Off x scale n + q8Bits (lane x 32 n) scale

/-- VQ8 (R143): 32 lanes become the mantissas of block h, the rest of vD kept. -/
def vq8 (x scale old h rnd : Nat) (st : Bool) (d : Nat) : Eff :=
  lanesEff 8 32 (fun i =>
      let k := q8Bits (lane x 32 i) scale
      q8Lane (lane x 32 i) scale (if st then some (bits rnd (q8Off x scale i) k) else none))
    fun m => outV d (if h = 1 then old % 2 ^ 256 + m * 2 ^ 256 else old / 2 ^ 256 * 2 ^ 256 + m)

/-- The two indices PACK24 keeps of a group's four magnitudes (R194, R195): the two greatest, ties to the lower index,
zeros filling from the lowest. -/
def pack24Keep (m : List Nat) : Nat × Nat :=
  let g := fun i => m.getD i 0
  let better := fun i j => g i > g j || (g i == g j && i < j)
  let kept := (List.range 4).filter fun i => ((List.range 4).filter fun j => j != i && better j i).length < 2
  (kept.getD 0 0, kept.getD 1 1)

/-- PACK24 (R192–R196) of 32 elements of w bits with their magnitudes (0 for a zero): the stored values, the metadata,
how many non-zeros are left out, and the lowest group with more than two. -/
def pack24 (w : Nat) (val mag : Nat → Nat) : Nat → Nat × Nat × Nat × Option Nat
  | 0 => (0, 0, 0, none)
  | g + 1 =>
    let (v, md, pr, bad) := pack24 w val mag g
    let ms := (List.range 4).map fun i => mag (4 * g + i)
    let nz := (ms.filter fun m => m != 0).length
    let (i, j) := pack24Keep ms
    let put := fun k => if mag (4 * g + k) = 0 then 0 else val (4 * g + k)
    (v + (put i + 2 ^ w * put j) * 2 ^ (2 * w * g), md + (i + 4 * j) * 2 ^ (4 * g), pr + (nz - 2),
     if bad.isSome then bad else if nz > 2 then some g else none)

/-- Magnitude of a BF16 lane for PACK24 (R193): 0 for a zero or subnormal. -/
def bfMag (x : Nat) : Nat := if bits x 7 8 = 0 then 0 else x % 2 ^ 15
/-- Magnitude of a mantissa for PACK24 (R193). -/
def q8Mag (x : Nat) : Nat := (sgn x 8).natAbs

/-- PACK24's operands (R192): elements, width, the bits of vD written. -/
def pack24Of (va c : Nat) : Nat × (Nat → Nat) × (Nat → Nat) × Nat :=
  if c % 2 = 0 then (16, fun i => lane va 16 i, fun i => bfMag (lane va 16 i), 256 * bits c 1 1)
  else (8, fun i => lane va 8 (32 * bits c 1 1 + i), fun i => q8Mag (lane va 8 (32 * bits c 1 1 + i)),
        128 * bits c 2 2)

/-- The first NaN lane of a BF16 PACK24. -/
def pack24Nan (va c : Nat) : Option Nat :=
  if c % 2 = 0 then (List.range 32).find? fun i => bf16 (lane va 16 i) == .nan else none

/-- PACK24's results, or its case. -/
def pack24Eff (prune : Bool) (va vd c d b : Nat) : Eff :=
  match pack24Nan va c with
  | some i => .error (opCase 1 i)
  | none =>
    let (w, val, mag, lo) := pack24Of va c
    let (v, md, _, bad) := pack24 w val mag 8
    match prune, bad with
    | false, some g => .error ⟨0x08, 0, g⟩
    | _, _ =>
      let n := 16 * w
      .ok [(.v d, vd % 2 ^ lo + v * 2 ^ lo + vd / 2 ^ (lo + n) * 2 ^ (lo + n)), (.g b, md)]

/-- The results of a scalar or vector operation that writes registers, from the state at issue; rnd are the bits that
the generator's port V gives in this tc. An operation with no register result has none. -/
def State.eff (s : State) (t rnd : Nat) : SlotOp → Eff
  | .alu o d a b => .ok [(.g d, o.val (s.g t a) (s.g t b))]
  | .imm o d a i => .ok [(.g d, o.val (s.g t a) i)]
  | .shi o d a sh => .ok [(.g d, o.val (s.g t a) sh)]
  | .cmp o d a b => .ok [(.p d, b2n (o.val (s.g t a) (s.g t b)))]
  | .cmpi o d a i => .ok [(.p d, b2n (o.val (s.g t a) i))]
  | .plog o d a b => .ok [(.p d, o.val (s.p t a) (s.p t b))]
  | .mem .ld d a i =>
    let x := s.memAddr t .ld a i
    match addrCase x 4 with
    | some c => .error c
    | none => .ok [(.g d, s.ldn (spad t x) 4)]
  | .mem .ldh d a i =>
    let x := s.memAddr t .ldh a i
    match addrCase x 2 with
    | some c => .error c
    | none => .ok [(.g d, s.ldn (spad t x) 2)]
  | .rdspec d sel => .ok [(.g d, s.special t sel)]
  | .vbf o d a b c => lanesEff 16 32 (fun i =>
      (o.lane 8 (bf16 (lane (s.v t a) 16 i)) (bf16 (lane (s.v t b) 16 i)) (bf16 (lane (s.v t c) 16 i))).map (· / 65536))
      (outV d)
  | .vf32 o false d a b c => lanesEff 32 16 (fun i =>
      o.lane 24 (fp32 (lane (s.v t a) 32 i)) (fp32 (lane (s.v t b) 32 i)) (fp32 (lane (s.v t c) 32 i))) (outV d)
  | .vf32 o true d a b c => lanesEff 32 32 (fun i =>
      o.lane 24 (fp32 (lane (s.v2 t a) 32 i)) (fp32 (lane (s.v2 t b) 32 i)) (fp32 (lane (s.v2 t c) 32 i))) (outV2 d)
  | .vcvt 0 d a => lanesEff 16 32 (fun i => cvtNear (lane (s.v2 t a) 32 i)) (outV d)
  | .vcvt 1 d a => lanesEff 16 32 (fun i => cvtStoch (lane (s.v2 t a) 32 i) (lane rnd 16 i)) (outV d)
  | .vcvt _ d a => lanesEff 32 32 (fun i => cvtUp (lane (s.v t a) 16 i)) (outV2 d)
  | .vfun .exp2 d a => lanesEff 32 16 (fun i => vExp2 (fp32 (lane (s.v t a) 32 i))) (outV d)
  | .vfun .rcp d a => lanesEff 32 16 (fun i => vRcp (fp32 (lane (s.v t a) 32 i))) (outV d)
  | .vfun .rsqrt d a => lanesEff 32 16 (fun i => vRsqrt (fp32 (lane (s.v t a) 32 i))) (outV d)
  | .vred .sum d a => match redSum (s.v t a) with
    | .error (c, i) => .error (opCase c i)
    | .ok x => .ok [(.g d, x)]
  | .vred .max d a => match redMinMax true (s.v t a) with
    | .error (c, i) => .error (opCase c i)
    | .ok x => .ok [(.g d, x)]
  | .vred .min d a => match redMinMax false (s.v t a) with
    | .error (c, i) => .error (opCase c i)
    | .ok x => .ok [(.g d, x)]
  | .vred .any d a => .ok [(.p d, b2n ((List.range 16).any fun i => lane (s.v t a) 32 i % 2 ^ 31 != 0))]
  | .vred .all d a => .ok [(.p d, b2n ((List.range 16).all fun i => lane (s.v t a) 32 i % 2 ^ 31 != 0))]
  | .vld d a off =>
    let x := s.vecAddr t a off
    match addrCase x 64 with
    | some c => .error c
    | none => .ok [(.v d, s.ldn (spad t x) 64)]
  | .vbcast d a => .ok [(.v d, joinLanes 32 (List.replicate 16 (s.g t a)))]
  | .vq8 st d a b h => vq8 (s.v2 t a) (bits (s.v t b) (32 * h) 8) (s.v t d) h rnd st d
  | .vdq8 d a b h => lanesEff 32 32 (fun i => dq8Lane (lane (s.v t a) 8 (32 * h + i)) (bits (s.v t b) (32 * h) 8)) (outV2 d)
  | .vrand d => .ok [(.v d, rnd)]
  | .pack24 pr d a b c => pack24Eff pr (s.v t a) (s.v t d) c d b
  | .vmov d a => .ok [(.v d, s.v t a)]
  | _ => .ok []

/-- The bits an operation takes from port V in the tc its word issues (R142, R148, R387). -/
def State.drawsV (s : State) (t : Nat) : SlotOp → Nat
  | .vcvt 1 _ _ => 512
  | .vrand _ => 512
  | .vq8 true _ a b h => q8Off (s.v2 t a) (bits (s.v t b) (32 * h) 8) 32
  | .sv .draw a => if (bits (s.v t a) (32 * 6) 32).testBit 16 then 0 else 32
  | _ => 0

/-- The offset a load reads, for its latency. -/
def State.loadOff (s : State) (t : Nat) : SlotOp → Nat
  | .mem o _ a i => s.memAddr t o a i
  | .vld _ a off => s.vecAddr t a off
  | _ => 0

/-- A store of the S or V slot: its address, and its bytes. -/
def State.storeOf (s : State) (t : Nat) : SlotOp → Option (Nat × List Byte)
  | .mem .st d a i => some (s.memAddr t .st a i, leBytes (s.g t d) 4)
  | .mem .sth d a i => some (s.memAddr t .sth a i, leBytes (s.g t d) 2)
  | .vst d a off => some (s.vecAddr t a off, leBytes (s.v t d) 64)
  | _ => none

/-- The case of a store (R116): its address, then a target in an execute slip. -/
def State.storeCase (s : State) (t x n : Nat) : Option Case :=
  match addrCase x n with
  | some c => some c
  | none => if s.inExec t x n then some ⟨0x07, 0, x⟩ else none

/-- A case found after the word has issued (R96): the tile halts with the slot and the word's address. -/
def State.caseHalt (s : State) (t slot addr : Nat) (c : Case) : State := s.halt t c.reason slot addr c.detail c.aux

/-- The effect of a scalar or vector slot that computes: its draw is taken and counted, its results are issued, its
store is made; a case halts the tile and nothing of the result is written. s0 is the state at issue. -/
def State.runCompute (s s0 : State) (t addr : Nat) (o : SlotOp) : State :=
  let nbits := s0.drawsV t o
  let rnd := (Config.rng s0.free).toNat % 2 ^ 512
  let s := if nbits = 0 then s else (s.inc F.T_RNG_DRAWN_V_BITS nbits t).drawn
  let s := match s0.eff t rnd o with
    | .error c => s.caseHalt t o.cls addr c
    | .ok rs => rs.foldl (fun s r => s.post t (o.lat s0.isB0 (s0.loadOff t o)) r.1 r.2) s
  let s := match o with
    | .pack24 true _ a _ c =>
      let (w, val, mag, _) := pack24Of (s0.v t a) c
      let (_, _, pr, _) := pack24 w val mag 8
      if (pack24Nan (s0.v t a) c).isSome then s else s.inc F.T_SPARSE_PRUNED_VALUES pr t
    | .pack24 false _ a _ c =>
      let (w, val, mag, _) := pack24Of (s0.v t a) c
      let (_, _, _, bad) := pack24 w val mag 8
      if (pack24Nan (s0.v t a) c).isSome && bad.isSome then s.wr F.T_HALT_MORE 1 t else s
    | _ => s
  match s0.storeOf t o with
  | none => s
  | some (x, bs) => match s0.storeCase t x bs.length with
    | some c => s.caseHalt t o.cls addr c
    | none => s.setBytes (spad t x) bs

end Sys2Proof.Machine
end

