-- ==== Sys2Proof/Machine/Sync.lean ====
section
/-! DEFINITION. The sync network (R48–R50, R98, R262, R268–R278): barriers, the starts and releases of crossings, and
the synchronisation objects at the hub. -/

namespace Sys2Proof.Machine

/-! ## Barriers -/

/-- The idle cause of a barrier wait by the class of the last arrival (R49): 0 tile, 1 or 6 landing, else a device. -/
def barCause (cls : Nat) : Nat := if cls = 0 then 1 else if cls = 1 ∨ cls = 6 then 3 else 2

/-- The manifest entry of a tile whose forward (or reverse) crossing is c: its number and whether c is the reverse
crossing (R307). -/
def State.mfEntry (s : State) (t c : Nat) : Option (Nat × Bool) :=
  (List.range 32).findSome? fun m =>
    if s.rd F.MF_MT_CTL_VALID t m = 0 then none
    else if s.rd F.MF_MT_CTL_FX t m = c then some (m, false)
    else if s.rd F.MF_MT_CTL_REV t m = 1 ∧ s.rd F.MF_MT_CTL_RX t m = c then some (m, true) else none

/-- The tiles of a partition that request through a manifest crossing. -/
def State.mfTiles (s : State) (part c : Nat) : List Nat :=
  s.liveTiles.filter fun t => s.rd F.XT_RCFG_PART t == part && match s.mfEntry t c with
    | some (m, _) => s.rd F.MF_MT_CTL_REQ t m == 1
    | none => false

/-- The arrivals that complete a barrier: EXPECT, or those of the carry run its crossing awaits (R269, R297). -/
def State.barExpect (s : State) (b : Nat) : Nat :=
  match s.hub.uses.find? fun u => u.part == s.rd F.XT_BAR_PART 0 b && u.num == s.rd F.XT_BAR_CROSSING 0 b
      && decide (1 < u.run) with
  | some u => u.expect
  | none => s.rd F.XT_BAR_EXPECT 0 b

/-- The allocated barrier of a partition's crossing. -/
def State.barOf (s : State) (part c : Nat) : Option Nat :=
  (List.range 256).find? fun b => s.rd F.XT_BAR_ALLOC 0 b == 1 && s.rd F.XT_BAR_PART 0 b == part
    && s.rd F.XT_BAR_CROSSING 0 b == c

/-- An arrival is counted at the hub (R48, R269): only where ALLOC is 1; the one that brings ARRIVED to EXPECT
completes the barrier, whose crossing then awaits its start. -/
def State.arrive (s : State) (b cls : Nat) : State :=
  if s.rd F.XT_BAR_ALLOC 0 b = 0 then s
  else
    let n := s.rd F.XT_BAR_ARRIVED 0 b + 1
    if n = s.barExpect b then
      let s := (s.wr F.XT_BAR_ARRIVED 0 0 b).inc F.XT_BAR_DONE_COUNT 1
      let c : Cross := { part := s.rd F.XT_BAR_PART 0 b, num := s.rd F.XT_BAR_CROSSING 0 b, cls := cls, began := 0 }
      s.upHub fun h => { h with starting := h.starting ++ [c] }
    else s.wr F.XT_BAR_ARRIVED n 0 b

/-- The routers of a partition whose directory holds a crossing as VALID and that accept its start (R270). -/
def State.crossRouters (s : State) (part c : Nat) : List Nat :=
  (s.liveTiles.filter fun t => s.rd F.DIR_VALID t c == 1 && s.rd F.XT_RCFG_EN t == 1 && s.rd F.XT_RCFG_PART t == part)

/-- A tile's crossing ends for it (R50, R98): at its release cycle it leaves the crossing, and a held GO or RESUME
takes effect. -/
def State.release (s : State) (t : Nat) : State := (s.wr F.T_STATUS_CROSSING 0 t).applyHeld t

/-- One router starts a crossing at cycle 0 (R260, R262, R270); its tile, where it takes part, is in crossing, its
barrier wait is credited, and XT_CUR moves on. In a carry run no tile takes part (R297). -/
def State.startRouter (s : State) (c cause : Nat) (carry : Bool) (t : Nat) : State :=
  let s := (s.wr F.XT_RSTATUS_RUN 1 t).wr F.XT_RSTATUS_CROSSING c t
  let s := s.wr F.XT_RSTATUS_CYCLE 0 t
  let first := s.rd F.DIR_FIRST t c
  let s := s.upTile t fun x => { x with rtEntry := first, rtStart := 0, crossAt := s.spine, inputs := [], took := [],
                                        express := [], rawTx := 0, rawRx := 0, sent := [], moved := [], lastRead := none,
                                        tails := (List.range 32).foldl (fun m i => aput 0 m i (s.slipTail t i)) [] }
  if s.rd F.DIR_LOCAL t c = 1 ∧ carry = false then
    let s := s.creditBar t cause
    let s := s.upTile t fun x => { x with atBar := false, wait := if x.wait = 14 then 0 else x.wait }
    let s := (s.wr F.XT_CUR_CROSSING (s.rd F.DIR_NEXT t c) t).wr F.XT_CUR_VALID (s.rd F.DIR_NEXTV t c) t
    let s := s.wr F.T_STATUS_CROSSING 1 t
    if s.rd F.DIR_RELEASE t c = 0 then s.release t else s
  else s

/-- The start of a manifest crossing opens its use, or is the next run of the one that is open (R297). -/
def State.openUse (s : State) (part c : Nat) : State :=
  if s.hub.uses.any fun u => u.part == part && u.num == c then
    s.upHub fun h => { h with uses := mapFirst (fun u => u.part == part && u.num == c) (fun u => { u with expect := 0 }) h.uses }
  else
    match s.mfTiles part c with
    | [] => s
    | ts => s.upHub fun h => { h with uses := h.uses ++ [⟨part, c, ts, 1, 0, [], [], [], false⟩] }

/-- Whether a crossing shares a router with another manifest crossing whose use has not ended (R297). -/
def State.useBlocks (s : State) (part c : Nat) : Bool :=
  s.hub.uses.any fun u => !(u.part == part && u.num == c) &&
    (s.crossRouters u.part u.num).any fun t => (s.crossRouters part c).contains t

/-- Change every quay's state that is not the default one. -/
def State.mapQuays (s : State) (f : QuayX → QuayX) : State :=
  { s with quays := (s.quays.map fun e => (e.1, f e.2)).filter fun e => e.2 != {} }

/-- Change every engine's state that is not the default one. -/
def State.mapEngs (s : State) (f : EngX → EngX) : State :=
  { s with engs := (s.engs.map fun e => (e.1, f e.2)).filter fun e => e.2 != {} }

/-- A running timetable takes a template (R319): the oldest use no timetable has taken yet, or the one still to come. -/
def QuayX.bind (x : QuayX) (t : Nat) : QuayX :=
  if x.uses.any fun u => u.tpl == t && !u.run then
    { x with uses := mapFirst (fun u => u.tpl == t && !u.run) (fun u => { u with run := true }) x.uses }
  else { x with owed := x.owed ++ [t] }

/-- The templates of a crossing, with their quays. -/
def State.crossTpls (s : State) (part c : Nat) : List (Nat × Nat) :=
  (((s.plans part).flatMap Plan.tpls).filter fun e => e.2.2 == c).map fun e => (e.1, e.2.1)

/-- A starting crossing takes its templates. -/
def State.bindUses (s : State) (part c : Nat) : State :=
  (s.crossTpls part c).foldl (fun s e => s.upQuay e.1 fun x => x.bind e.2) s

/-- A crossing that is over leaves its templates, and its slot lists are spent (R295, R319). -/
def State.unbind (s : State) (part c : Nat) : State :=
  let s := (s.crossTpls part c).foldl (fun s e => s.upQuay e.1 fun x =>
    { x with uses := x.uses.filter (fun u => !(u.run && u.tpl == e.2)), owed := x.owed.filter fun t => t != e.2 }) s
  s.mapQuays fun x => { x with lists := x.lists.filter fun e => !(e.1 % 256 == c && s.rd F.XT_RCFG_PART (e.1 / 256) == part) }

/-- A crossing starts: its engine may arrive at its barrier again, and what it reserved is the running crossing's. -/
def EngX.begins (e : EngX) (k : Nat) : EngX :=
  { e with arrived := e.arrived.filter fun x => x != k, resv := amove e.resv (fun x => x == k) 1024,
           owed := amove e.owed (fun x => x / 16 == k) 16384 }

/-- A crossing is over: what it reserved at its engine and did not use is free again. -/
def EngX.leaves (e : EngX) (k : Nat) : EngX :=
  { e with resv := e.resv.filter (fun x => x.1 != 1024 + k), owed := e.owed.filter fun x => x.1 / 16 != 1024 + k }

/-- A crossing whose barrier has completed starts on all its routers at once (R49, R52, R68, R270): at a checkpoint, not
during a hold, and not while one of its routers still runs another. -/
def State.crossingStart (s : State) (part c : Nat) : State :=
  match s.hub.starting.find? fun x => x.part == part && x.num == c with
  | none => s
  | some x =>
    let rs := s.crossRouters part c
    let carry := s.hub.uses.any fun u => u.part == part && u.num == c
    if !s.clockRuns || !s.checkpoint || s.frozen || rs.any (fun t => s.rd F.XT_RSTATUS_RUN t == 1) || s.useBlocks part c then s
    else
      let s := ((s.openUse part c).bindUses part c).mapQuays fun q => { q with arrived := q.arrived.filter fun k => k != 256 * part + c }
      let s := s.mapEngs fun e => e.begins (256 * part + c)
      let s := s.upHub fun h => { h with starting := dropFirst (fun y => y == x) h.starting, running := h.running ++ [{ x with began := s.spine }] }
      rs.foldl (fun s t => s.startRouter c (barCause x.cls) carry t) s

/-- Running crossings that a test names are abandoned, and completed barriers' crossings that it names never start
(R63). Their routers stop; tiles still in them leave them. -/
def State.abandon (s : State) (p : Nat → Bool) : State :=
  let gone := s.hub.running.filter fun x => p x.part
  let s := gone.foldl (fun s x =>
    (s.liveTiles.filter fun t => s.rd F.XT_RSTATUS_RUN t == 1 && s.rd F.XT_RSTATUS_CROSSING t == x.num
        && s.rd F.XT_RCFG_PART t == x.part).foldl (fun s t =>
      let s := (s.wr F.XT_RSTATUS_RUN 0 t).upTile t fun y => { y with inputs := [], ejects := [], express := [] }
      if s.inCrossing t then s.release t else s) s) s
  let s := gone.foldl (fun s x =>
    (s.liveTiles.filter fun t => s.inCrossing t && s.rd F.XT_RSTATUS_CROSSING t == x.num
        && s.rd F.XT_RCFG_PART t == x.part).foldl (fun s t => s.release t) s) s
  let s := gone.foldl (fun s x => s.unbind x.part x.num) s
  let s := s.mapQuays fun x => { x with arrived := x.arrived.filter fun k => !p (k / 256) }
  let s := s.mapEngs fun e =>
    { e with resv := e.resv.filter (fun k => !p (k.1 / 256 % 4)), owed := e.owed.filter (fun k => !p (k.1 / 4096 % 4)),
             arrived := e.arrived.filter fun k => !p (k / 256) }
  s.upHub fun h => { h with running := h.running.filter (fun x => !p x.part),
                            starting := h.starting.filter fun x => !p x.part,
                            uses := h.uses.filter fun u => !p u.part }

/-! ## Synchronisation objects -/

/-- An object's count (R272). -/
def State.soCount (s : State) (o : Nat) : Nat := s.rd F.SO_STATE_COUNT 0 o
/-- An object's target. -/
def State.soTarget (s : State) (o : Nat) : Nat := s.rd F.SO_STATE_TARGET 0 o
/-- An object's owner, CLASS × 4096 + UNIT. -/
def State.soOwner (s : State) (o : Nat) : Nat := s.rd F.SO_CTL_OWNER 0 o
/-- Whether a wait on an object is met (R272). -/
def State.soMet (s : State) (o : Nat) : Bool := decide (s.soTarget o ≤ s.soCount o)

/-- The case of an operation (R276, R277): 0 none, 0x0105 not allocated to the source's partition, 0x0106 overflow,
0x0107 not the owner. -/
def State.soCase (s : State) (x : HubOp) : Nat :=
  if s.rd F.SO_CTL_ALLOC 0 x.obj = 0 then 0x0105
  else if !x.priv && s.rd F.SO_CTL_PART 0 x.obj != x.part then 0x0105
  else if x.op = 1 then
    (if s.rd F.SO_CTL_BROKEN 0 x.obj = 1 then 0 else if s.soCount x.obj + x.val ≥ 2 ^ 32 then 0x0106 else 0)
  else if x.op = 2 then (if x.priv || s.soOwner x.obj == x.cls * 4096 + x.unit then 0 else 0x0107)
  else 0

/-- A manifest engine halts (R282): the halting lane abandons its descriptor and discards its queue, the other lane
completes the descriptor it runs and then stops. A manifest descriptor stays, with all its slots empty, for the later
runs of its use. -/
def TileX.laneHalt (x : TileX) (samp : Bool) : TileX :=
  if samp then { x with sampRun := none, sampQ := [], manHalt := true }
  else { x with manRun := x.manRun.map fun d => { d with dead := true, pend := [], slots := [] }, manQ := [], manHalt := true }

/-- An answer of the hub (R273, R276). A tile's wait takes it and a tile's add or set halts on a case, if the tile is
not fenced; a landing core's answer leaves for the core; a manifest engine's add halts its tile on a case (R280).
code: 0 accepted, 1 met, 2 broken, else the case. -/
def State.soAnswer (s : State) (x : HubOp) (code : Nat) : State :=
  if x.cls = 0 then
    if x.op = 3 then
      s.upTile x.unit fun y => match y.soWait with
        | some (o, 0) => if o = x.obj then { y with soWait := some (o, code) } else y
        | _ => y
    else if code ≠ 0 ∧ s.tstate x.unit ≠ 4 then s.halt x.unit 0x02 3 x.addr code 0
    else s
  else if x.cls = 1 then
    let a : HubAns := { cls := x.cls, unit := x.unit, op := x.op, obj := x.obj, code := code }
    s.upHub fun h => { h with answers := h.answers ++ [a] }
  else if x.cls = 3 ∧ code ≠ 0 ∧ s.tstate x.unit ≠ 4 then
    (s.upTile x.unit fun y => y.laneHalt x.samp).halt x.unit 0x02 3 x.addr code 0
  else s

/-- A set is applied (R274): COUNT 0 and the new target, or its case. -/
def State.soSet (s : State) (x : HubOp) : State :=
  match s.soCase x with
  | 0 => ((s.wr F.SO_STATE_COUNT 0 0 x.obj).wr F.SO_STATE_TARGET x.val 0 x.obj).soAnswer x 0
  | c => s.soAnswer x c

/-- An add is applied (R274, R275): discarded and counted on a broken object. -/
def State.soAdd (s : State) (x : HubOp) : State :=
  match s.soCase x with
  | 0 =>
    let s := if s.rd F.SO_CTL_BROKEN 0 x.obj = 1 then s.inc F.SO_DISCARDS_COUNT 1
             else s.inc F.SO_STATE_COUNT x.val 0 x.obj
    s.soAnswer x 0
  | c => s.soAnswer x c

/-- Waits at the hub are evaluated (R274, R275): met, broken or still held. -/
def State.soEval (s : State) : List HubOp → State
  | [] => s
  | x :: r =>
    match s.soCase x with
    | 0 =>
      if s.rd F.SO_CTL_BROKEN 0 x.obj = 1 then (s.soAnswer x 2).soEval r
      else if s.soMet x.obj then (s.soAnswer x 1).soEval r
      else (s.upHub fun h => { h with waits := h.waits ++ [x] }).soEval r
    | c => (s.soAnswer x c).soEval r

/-- The objects that are allocated. -/
def State.allocObjs (s : State) : List Nat :=
  (s.rf.filter fun e => e.1 % 64 == 18 && decide (0x3800_0010_0000 ≤ e.1 / 64) && decide (e.1 / 64 < 0x3800_0012_0000)).map
    fun e => (e.1 / 64 - 0x3800_0010_0008) / 16

/-- The objects whose OWNER is a unit: those with OWNER written, and for tile 0, OWNER's reset value, all others too. -/
def State.ownedObjs (s : State) (cls unit : Nat) : List Nat :=
  if cls * 4096 + unit = 0 then (List.range 8192).filter fun o => s.soOwner o == 0
  else ((s.rf.filter fun e => e.1 % 64 == 0 && decide (0x3800_0010_0000 ≤ e.1 / 64) && decide (e.1 / 64 < 0x3800_0012_0000)
      && (e.1 / 64) % 16 == 8).map fun e => (e.1 / 64 - 0x3800_0010_0008) / 16).filter fun o => s.soOwner o == cls * 4096 + unit

/-- Marks of the reclaim walk (R275): every object a fenced party owns is broken, and its waiters are answered so. -/
def State.soMark (s : State) (cls unit : Nat) : State :=
  let os := (s.ownedObjs cls unit).filter fun o => s.rd F.SO_CTL_BROKEN 0 o == 0
  os.foldl (fun s o =>
    let s := (s.wr F.SO_CTL_BROKEN 1 0 o).inc F.FT_WALK_OBJECTS_COUNT 1
    let ws := s.hub.waits.filter fun w => w.obj == o
    let s := s.upHub fun h => { h with waits := h.waits.filter fun w => w.obj != o }
    ws.foldl (fun s w => s.soAnswer w 2) s) s

/-- A hub cycle takes operations in arrival order until a source would repeat: a source sends at most one a cycle. -/
def takeCycle : List HubOp → List (Nat × Nat) → List HubOp × List HubOp
  | [], _ => ([], [])
  | x :: r, seen =>
    if seen.contains (x.cls, x.unit) then ([], x :: r)
    else
      let (a, b) := takeCycle r ((x.cls, x.unit) :: seen)
      (x :: a, b)

/-- Insert by source, lowest first, after equals. -/
def insSource (x : HubOp) : List HubOp → List HubOp
  | [] => [x]
  | y :: r => if x.cls * 4096 + x.unit < y.cls * 4096 + y.unit then x :: y :: r else y :: insSource x r

/-- One hub cycle (R274): sets, the landing supervisor's last; adds in ascending source; waits; marks. -/
def State.hubCycle (s : State) : State :=
  let (now, later) := takeCycle s.hub.inbox []
  let ms := s.hub.marks
  let s := s.upHub fun h => { h with inbox := later, marks := [] }
  let sets := now.filter fun x => x.op == 2
  let s := (sets.filter fun x => !x.priv).foldl (fun s x => s.soSet x) s
  let s := (sets.filter fun x => x.priv).foldl (fun s x => s.soSet x) s
  let adds := (now.filter fun x => x.op == 1).foldl (fun l x => insSource x l) []
  let s := adds.foldl (fun s x => s.soAdd x) s
  let held := s.hub.waits
  let s := (s.upHub fun h => { h with waits := [] }).soEval (held ++ now.filter fun x => x.op == 3)
  ms.foldl (fun s m => s.soMark m.1 m.2) s

/-- An operation leaves for the hub (R273, R277); where it comes from a unit in IDLE it starts the grid clock (R479). -/
def State.toHub (s : State) (x : HubOp) : State := s.gridStart.upHub fun h => { h with inbox := h.inbox ++ [x] }

/-- The partition number of a tile for the object checks, 4 where it lies in none (R450). -/
def State.tilePartN (s : State) (t : Nat) : Nat := (s.tilePart t).getD 4

/-- The idle cause of a wait on an object, by its owner's class (R92). -/
def State.soCause (s : State) (o : Nat) : Nat :=
  match s.soOwner o / 4096 with
  | 0 => 1
  | 1 => 3
  | 6 => 3
  | _ => 2

/-! ## Commands -/

/-- BARRIER_ARRIVAL (R269): an arrival reaches the sync hub. -/
def execBarrierArrival (cls : BitVec 4) (_unit : BitVec 12) (b : BitVec 8) (s : State) :
    Host.Outcome State Fault Refusal := .next (s.gridStart.arrive b.toNat cls.toNat)

/-- CROSSING_START (R270). -/
def execCrossingStart (part : PartId) (c : BitVec 8) (s : State) : Host.Outcome State Fault Refusal :=
  .next (s.crossingStart part.val c.toNat)

/-- Whether a tile in crossing has reached its release cycle (R50, R261). -/
def State.releaseDue (s : State) (t : Nat) : Bool :=
  decide ((s.tile t).crossAt + s.rd F.DIR_RELEASE t (s.rd F.XT_RSTATUS_CROSSING t) ≤ s.spine)

/-- TILE_RELEASE (R50, R261): a tile in crossing leaves it at its release cycle; not during a hold (R57). -/
def execTileRelease (t : TileId) (s : State) : Host.Outcome State Fault Refusal :=
  .next (if s.inCrossing t.val && !s.frozen && s.releaseDue t.val then s.release t.val else s)

/-- SO_HUB_APPLY (R274): the operations that reached the hub in one cycle are applied. -/
def execSoHubApply (s : State) : Host.Outcome State Fault Refusal := .next s.hubCycle

end Sys2Proof.Machine
end

