-- ==== Sys2Proof/Machine/Matrix.lean ====
section
/-! DEFINITION. The matrix unit (R157–R190) and its sparsity paths (R200–R212): issue-time cases, the queue and its two
lanes, loads, streams, spills, output, lookahead, cupping, and the heavy-unit tokens. -/

namespace Sys2Proof.Machine

/-- Whether an instruction runs in the load lane (R178). -/
def MOp.isLoad : MOp → Bool
  | .ldw _ _ => true
  | _ => false

/-- The stationary buffer an instruction loads or streams from. -/
def MOp.buf : MOp → Option Nat
  | .ldw _ w => some w
  | .run _ _ w => some w
  | .blk _ _ _ w => some w
  | _ => none

/-- Format of a stationary buffer (R189): 0 empty, 1 BF16, 2 8-bit, 3 BF16 2:4, 4 8-bit 2:4. -/
def State.bufFmt (s : State) (t w : Nat) : Nat :=
  if w = 0 then s.rd F.T_MBUF_FMT_FMT0 t else s.rd F.T_MBUF_FMT_FMT1 t

/-- Set the format of a stationary buffer. -/
def State.setBufFmt (s : State) (t w f : Nat) : State :=
  if w = 0 then s.wr F.T_MBUF_FMT_FMT0 f t else s.wr F.T_MBUF_FMT_FMT1 f t

/-- The format a buffer will hold when an instruction issued now streams from it: that of the last unfinished load. -/
def State.fmtSoon (s : State) (t w : Nat) : Nat :=
  (s.mAll t).foldl (fun f m => match m.op with
    | .ldw fmt b => if b = w then fmt else f
    | _ => f) (s.bufFmt t w)

/-- The spill interval that an instruction issued now will see. -/
def State.intervalSoon (s : State) (t : Nat) : Nat :=
  (s.mAll t).foldl (fun f m => match m.op with
    | .spill i => i
    | _ => f) (s.rd F.T_MSPILL_CFG_INTERVAL t)

/-- A field that the buffer's format makes reserved, whatever the predicate (R81, R201): HALF through an 8-bit buffer. -/
def State.matReserved (s : State) (t : Nat) (sl : Slot) : Option Case :=
  match sl.op with
  | .mblk _ _ _ half w => if s.fmtSoon t w = 2 ∧ half = 1 then some (illegal 0x02 sl.enc) else none
  | _ => none

/-- The issue-time cases of a matrix slot (R182, R201, R206). -/
def State.matIssueCase (s : State) (t : Nat) (sl : Slot) : Option Case :=
  let rows (a n : Nat) : Option Case := if a + n + 1 > 64 then some (opCase 0x0109) else none
  let or (a b : Option Case) : Option Case := match a with | some c => some c | none => b
  match sl.op with
  | .mzero acc n pr => or (rows acc n) (if pr && s.intervalSoon t == 0 then some (opCase 0x010B) else none)
  | .mrun _ acc n w => or (rows acc n) (if s.fmtSoon t w = 0 then some (opCase 0x010A) else none)
  | .mblk _ acc nrb _ w =>
    or (if acc = 32 ∧ nrb = 1 then some (opCase 0x0109) else none)
      (if s.fmtSoon t w = 0 ∨ s.fmtSoon t w > 2 then some (opCase 0x010A) else none)
  | .mout _ acc n fold _ => or (rows acc n) (if fold && s.intervalSoon t == 0 then some (opCase 0x010B) else none)
  | .mlook a pacc n w =>
    or (or (rows pacc n) (rows (bits (s.g t (a + 1)) 0 6) n))
       (if s.fmtSoon t w = 2 ∨ s.fmtSoon t w = 4 then none else some (opCase 0x010A))
  | _ => none

/-- Whether the token pools are empty (R59): a slack attributed to SLACK_THERMAL is in force. -/
def State.poolsEmpty (s : State) : Bool :=
  s.rd F.XT_HOLD_STATUS_HOLDING == 1 && s.rd F.XT_HOLD_STATUS_ATTR == 4

/-- The tiles of a domain whose words wait for a token (R92, R184), ascending. -/
def State.tokenWaiters (s : State) (d : Nat) : List (Nat × TileX) :=
  s.tiles.filter fun e => domainOf e.1 == d && e.2.wait == 6

/-- Whether a domain's pool has more than k tokens to give now: none are taken back under a lowered cap, and the pools
are empty in a thermal slack (R59, R184, R185). -/
def State.poolOver (s : State) (d k : Nat) : Bool :=
  !s.poolsEmpty && decide (s.rd F.PW_TOKEN_HELD_HELD 0 d + k < s.rd F.PW_TOKEN_CAP_CAP 0 d)

/-- Whether a tile's word may take a token at issue (R184): one granted to it, or one left over by the tiles of its domain
that wait with a lower id or hold a grant. -/
def State.tokenFree (s : State) (t : Nat) : Bool :=
  let ws := s.tokenWaiters (domainOf t)
  s.poolOver (domainOf t)
    (if (s.tile t).granted then 0 else (ws.filter fun e => e.1 != t && (decide (e.1 < t) || e.2.granted)).length)

/-- A tile takes a token of its domain. -/
def State.takeToken (s : State) (t : Nat) : State :=
  if s.rd F.T_MSTATUS_TOKEN t = 1 then s
  else ((s.wr F.T_MSTATUS_TOKEN 1 t).inc F.PW_TOKEN_HELD_HELD 1 0 (domainOf t)).upTile t fun x =>
    { x with granted := false }

/-- The wait of a matrix slot before issue (R171, R178, R184): a busy wait is 0, POWER_TOKEN is 6. -/
def State.matWait (s : State) (t : Nat) (o : SlotOp) : Option Nat :=
  let x := s.tile t
  match o with
  | .mrda _ _ => if x.mq.length ≥ 4 || x.mstream.isSome || x.mq.any (fun m => !m.op.isLoad) then some 0 else none
  | .mrun .. | .mblk .. =>
    if x.mq.length ≥ 4 then some 0
    else if s.rd F.T_MSTATUS_TOKEN t = 1 ∨ s.tokenFree t then none else some 6
  | _ => if x.mq.length ≥ 4 then some 0 else none

/-- The matrix operation of a slot, and how many g registers it reads at issue. -/
def SlotOp.mop : SlotOp → Option (MOp × Nat)
  | .mzero acc n pr => some (.zero acc (n + 1) pr, 0)
  | .mldw fmt a w => some (.ldw fmt w, a)
  | .mrun a acc n w => some (.run acc (n + 1) w, a)
  | .mblk a acc nrb half w => some (.blk acc (nrb + 1) half w, a)
  | .mspill a i => some (.spill i, a)
  | .mepi a op ef r => some (.epi op ef r, a)
  | .mout a acc n f k => some (.out acc (n + 1) f k, a)
  | .mlook a pacc n w => some (.look pacc (n + 1) w, a)
  | _ => none

/-- A column of an accumulator row. -/
def State.acc (s : State) (t a n : Nat) : Nat := s.rd F.ACC t (32 * a + n)

/-- Write an accumulator row, column 0 first. -/
def State.setAcc (s : State) (t a : Nat) (l : List Nat) : State :=
  ((List.range 32).zip l).foldl (fun s e => s.wr F.ACC e.2 t (32 * a + e.1)) s

/-- A row of zeros. -/
def zeros32 : List Nat := List.replicate 32 0

/-- Issue a matrix slot (R178): it enters the queue; MRDA reads its row at once (R171, R210). s0 is the state at issue. -/
def State.matIssue (s s0 : State) (t addr : Nat) (o : SlotOp) : State :=
  match o with
  | .mrda d a =>
    let audit := (s0.rd F.T_MAUDIT_AUDIT t).testBit a
    let row := joinLanes 32 ((List.range 32).map fun n => if audit then 0 else s0.acc t a n)
    (outV2 d row).foldl (fun s r => s.post t (o.lat s0.isB0 0) r.1 r.2) s
  | _ => match o.mop with
    | none => s
    | some (op, a) =>
      let m : MInstr := ⟨op, addr, s0.g t a, s0.g t ((a + 1) % 32), s0.g t ((a + 2) % 32), (s.tile t).issued⟩
      let s := if op.heavy then s.takeToken t else s
      s.upTile t fun x => { x with mq := x.mq ++ [m], issued := x.issued + 1 }

/-! ## Execution -/

/-- What a matrix instruction leaves: the state so far with the case that stops it, or the state. -/
abbrev MRes := Except (State × Case) State

/-- T_HALT_AUX of a matrix case (R183). -/
def mAux (col row inst : Nat) : Nat := col + 32 * row + 2 ^ 11 * inst

/-- Results of 32 columns, or the lowest column's case. -/
def cols (f : Nat → Except Nat Nat) : Except (Nat × Nat) (List Nat) := lanes f 32 0

/-- FP32 addition of patterns, nearest-even. -/
def fadd (a b : Nat) : Except Nat Nat := FOp.lane .add 24 (fp32 a) (fp32 b) (.zero false)
/-- FP32 subtraction of patterns. -/
def fsub (a b : Nat) : Except Nat Nat := FOp.lane .sub 24 (fp32 a) (fp32 b) (.zero false)
/-- FP32 multiplication of patterns. -/
def fmul (a b : Nat) : Except Nat Nat := FOp.lane .mul 24 (fp32 a) (fp32 b) (.zero false)
/-- |a| ≥ b of patterns that are not NaN. -/
def absGe (a b : Nat) : Bool :=
  match fp32 (a % 2 ^ 31), fp32 b with
  | .nan, _ => false
  | _, .nan => false
  | x, y => !x.lt y

/-- A byte of a stationary buffer's image (R189). -/
def State.wimg (s : State) (t w i : Nat) : Nat := s.rd F.WIMG t (2048 * w + i)

/-- Write bytes of a stationary buffer's image. -/
def State.setWimg (s : State) (t w i : Nat) (l : List Byte) : State :=
  ((List.range l.length).zip l).foldl (fun s e => s.wr F.WIMG e.2.toNat t (2048 * w + i + e.1)) s

/-- Sizes of a format's values, scales and metadata (R160). -/
def fmtSizes : Nat → Nat × Nat × Nat
  | 1 => (1024, 0, 0)
  | 2 => (1024, 32, 0)
  | 3 => (1024, 0, 128)
  | _ => (1024, 64, 256)

/-- The cases of one column of a load (R182, R183), lowest DETAIL first: DETAIL and K position. -/
def State.loadCases (s : State) (t fmt v so m n : Nat) : List (Nat × Nat) :=
  let (_, ns, nm) := fmtSizes fmt
  let rng (o l : Nat) : Nat × Nat := (o + n * (l / 32), l / 32)
  let bad (r : Nat × Nat) : Bool := decide (0 < r.2) && decide (0x6_0000 < r.1 + r.2)
  let rs := [rng v 1024, rng so ns, rng m nm]
  let there := rs.all fun r => !bad r
  let vals := s.bytes (spad t (v + 32 * n)) 32
  let nan := if fmt = 1 ∨ fmt = 3 then (List.range 16).find? fun k => bf16 (leAt vals (2 * k) 2) == .nan else none
  let ff := (s.bytes (spad t (so + n * (ns / 32))) (ns / 32)).any fun b => b == 255
  (if there then (nan.map fun k => (0x0001, k)).toList ++ (if ff then [(0x0006, 0)] else []) else [(0x0101, 0)])
    ++ if v % 64 ≠ 0 ∨ (ns ≠ 0 ∧ so % 32 ≠ 0) ∨ (nm ≠ 0 ∧ m % 64 ≠ 0) then [(0x0102, 0)] else []

/-- A load of a stationary buffer (R159, R160, R182, R183): the lowest column's case leaves it empty. -/
def State.mLoad (s : State) (t fmt w v so m : Nat) : MRes :=
  let (nv, ns, nm) := fmtSizes fmt
  match (List.range 32).findSome? fun n => (s.loadCases t fmt v so m n).head?.map fun c => (n, c) with
  | some (n, d, k) => .error (s.setBufFmt t w 0, opCase d (mAux n k 0))
  | none =>
    let vals := s.bytes (spad t v) nv
    let scl := s.bytes (spad t so) ns
    let md := s.bytes (spad t m) nm
    .ok ((((s.setWimg t w 0 vals).setWimg t w 0x400 scl).setWimg t w 0x440 md).setBufFmt t w fmt)

/-- All of a list's results, or the first case. -/
def allOk : List (Except Nat Nat) → Except Nat (List Nat)
  | [] => .ok []
  | .error d :: _ => .error d
  | .ok x :: r => match allOk r with
    | .error d => .error d
    | .ok xs => .ok (x :: xs)

/-- The result of an operation on two results: of their cases the lowest DETAIL (R183). -/
def both (f : Nat → Nat → Except Nat Nat) : Except Nat Nat → Except Nat Nat → Except Nat Nat
  | .ok a, .ok b => f a b
  | .error d, .error e => .error (min d e)
  | .error d, .ok _ => .error d
  | .ok _, .error e => .error e

/-- One level of the tree of a chunk (R165): sums of neighbours. -/
def treeLevel : List (Except Nat Nat) → List (Except Nat Nat)
  | a :: b :: r => both fadd a b :: treeLevel r
  | r => r

/-- The tree sum of a chunk's products (R165), in FP32: k levels. -/
def treeSum : Nat → List (Except Nat Nat) → Except Nat Nat
  | 0, l => l.headD (.ok 0)
  | k + 1, l => treeSum k (treeLevel l)

/-- The logical K of stored position j of column n (R161). -/
def State.logicalK (s : State) (t w fmt n j : Nat) : Nat :=
  if fmt = 3 then 4 * (j / 2) + bits (s.wimg t w (0x440 + 4 * n + j / 4)) (2 * (j % 4)) 2
  else if fmt = 4 then 4 * (j / 2) + bits (s.wimg t w (0x440 + 8 * n + j / 4)) (2 * (j % 4)) 2
  else j

/-- Integer sum of products of mantissas over stored positions (R166, R167). -/
def State.intSum (s : State) (t w fmt n : Nat) (row : List Byte) (lo cnt : Nat) : Int :=
  (List.range cnt).foldl (fun a j =>
    a + sgn (byteAt row (s.logicalK t w fmt n (lo + j))) 8 * sgn (s.wimg t w (32 * n + lo + j)) 8) 0

/-- An integer sum scaled by 2^(Ea + Ew − 266) as FP32 (R166). -/
def scaled (i : Int) (ea ew : Nat) : Nat := roundTo 24 (decide (i < 0)) i.natAbs ((ea : Int) + (ew : Int) - 266)

/-- The chunk sum of a row and column n (R165–R167): row holds the streamed values in logical K order, sc its scale
bytes. -/
def State.chunk (s : State) (t w fmt : Nat) (row sc : List Byte) (n : Nat) : Except Nat Nat :=
  if fmt = 2 then
    if byteAt sc 0 = 255 then .error 6
    else .ok (scaled (s.intSum t w 2 n row 0 32) (byteAt sc 0) (s.wimg t w (0x400 + n)))
  else if fmt = 4 then
    if byteAt sc 0 = 255 ∨ byteAt sc 1 = 255 then .error 6
    else fadd (scaled (s.intSum t w 4 n row 0 16) (byteAt sc 0) (s.wimg t w (0x400 + 2 * n)))
              (scaled (s.intSum t w 4 n row 16 16) (byteAt sc 1) (s.wimg t w (0x400 + 2 * n + 1)))
  else
    let nan := (List.range (row.length / 2)).any fun k => bf16 (leAt row (2 * k) 2) == .nan
    if nan then .error 1
    else
      treeSum 4 ((List.range 16).map fun j =>
        FOp.lane .mul 24 (bf16 (leAt row (2 * s.logicalK t w fmt n j) 2))
          (bf16 (s.wimg t w (32 * n + 2 * j) + 256 * s.wimg t w (32 * n + 2 * j + 1))) (.zero false))

/-- The address of a row's compensated pair (R172). -/
def State.pairOff (s : State) (t a : Nat) : Nat := s.rd F.T_MSPILL_CFG_BASE t + 256 * a

/-- The case of a pair's address (R182). -/
def State.pairCase (s : State) (t a : Nat) : Option Nat :=
  if s.pairOff t a + 256 > 0x6_0000 then some 0x0101
  else if s.rd F.T_MSPILL_CFG_BASE t % 256 ≠ 0 then some 0x0102 else none

/-- The pair of a row written: sums and compensations (R172). -/
def State.setPair (s : State) (t a : Nat) (ss cs : List Nat) : State :=
  s.setBytes (spad t (s.pairOff t a)) ((ss ++ cs).flatMap fun x => leBytes x 4)

/-- The new sum and compensation of one column of a spill (R173). -/
def spillCol (sv cv x : Nat) : Except Nat (Nat × Nat) :=
  match fadd sv x with
  | .error d => .error d
  | .ok tt =>
    let d := if absGe sv (x % 2 ^ 31) then (fsub sv tt).bind (fun y => fadd y x) else (fsub x tt).bind fun y => fadd y sv
    match d.bind fun y => fadd cv y with
    | .error d => .error d
    | .ok c' => .ok (tt, c')

/-- A row spills into its pair (R173); a case leaves it as it was. inst is the instruction AUX names. -/
def State.spillRow (s : State) (t a : Nat) : MRes :=
  match s.pairCase t a with
  | some d => .error (s, opCase d (mAux 0 a 5))
  | none =>
    let p := spad t (s.pairOff t a)
    let col (n : Nat) := spillCol (s.ldn (p + 4 * n) 4) (s.ldn (p + 128 + 4 * n) 4) (s.acc t a n)
    match cols (fun n => (col n).map fun e => e.1), cols (fun n => (col n).map fun e => e.2) with
    | .error (d, n), _ => .error (s, opCase d (mAux n a 5))
    | _, .error (d, n) => .error (s, opCase d (mAux n a 5))
    | .ok ss, .ok cs => .ok (((s.setPair t a ss cs).setAcc t a zeros32).wr F.CNT 0 t a)

/-- Whether the next chunk of a row spills it (R173). -/
def State.spills (s : State) (t a : Nat) : Bool :=
  let iv := s.rd F.T_MSPILL_CFG_INTERVAL t
  iv != 0 && decide (iv ≤ s.rd F.CNT t a + 1)

/-- One row streamed into an accumulator row (R168, R173). DESIGN CHOICE (log 160): a chunk count past 127 stays there. -/
def State.addRow (s : State) (t w fmt a inst : Nat) (row sc : List Byte) : MRes :=
  match cols fun n => (s.chunk t w fmt row sc n).bind fun x => fadd (s.acc t a n) x with
  | .error (d, n) => .error (s, opCase d (mAux n a inst))
  | .ok l =>
    let full := s.spills t a
    let s := (s.setAcc t a l).wr F.CNT (min (s.rd F.CNT t a + 1) 127) t a
    if full then s.spillRow t a else .ok s

/-- Bytes of a slip from an offset after the tail as it stands, or SLIP_UNDERRUN where one lies beyond the head (R162,
R163, R221). -/
def State.fromTail (s : State) (t i off n : Nat) : Except Case (List Byte) :=
  if off + n > s.slipAvail t i then .error ⟨0x04, 0, i⟩
  else .ok (s.slipBytes t i ((s.slipTail t i + off) % 2 ^ 32) n)

/-- Where row i of MRUN lies (R162): slip, and offset and length of each part of its values, then of its scales. -/
def runParts (fmt i r0 r1 r2 : Nat) : List (Nat × Nat) × List (Nat × Nat) :=
  let off := bits r0 0 19 + i * bits r1 0 16
  ((off, 32) :: (if fmt = 3 ∨ fmt = 4 then [(off + bits r1 16 16, 32)] else []),
   if fmt = 2 then [(bits r2 0 19 + i, 1)] else if fmt = 4 then [(bits r2 0 19 + 2 * i, 2)] else [])

/-- Where a row of a segment lies (R202): p counts rows over its entries. -/
def blkParts (fmt half p r0 : Nat) : List (Nat × Nat) × List (Nat × Nat) :=
  let off := bits r0 0 19 + 64 + p / 32 * (if fmt = 2 then 1088 else 2048)
  ([(off + 1024 * half + 32 * (p % 32), 32)], if fmt = 2 then [(off + 1024 + p % 32, 1)] else [])

/-- The bytes of parts of a slip, one behind the other. -/
def State.partBytes (s : State) (t slip : Nat) : List (Nat × Nat) → Except Case (List Byte)
  | [] => .ok []
  | p :: r => match s.fromTail t slip p.1 p.2, s.partBytes t slip r with
    | .error c, _ => .error c
    | _, .error c => .error c
    | .ok a, .ok b => .ok (a ++ b)

/-- The cases of MRUN before its first row (R182), lowest DETAIL first. -/
def State.runCase (s : State) (t w r0 r1 r2 : Nat) : Option Nat :=
  let fmt := s.bufFmt t w
  let size := s.slipSize t (bits r0 19 5)
  let sp := fmt == 3 || fmt == 4
  let sc := fmt == 2 || fmt == 4
  if bits r0 0 19 % 32 ≠ 0 ∨ bits r1 0 16 % 32 ≠ 0 ∨ (sp ∧ bits r1 16 16 % 32 ≠ 0) then some 0x0102
  else if size = 0 ∨ bits r0 0 19 ≥ size ∨ (sc ∧ bits r2 0 19 ≥ size) ∨ (sp ∧ bits r1 16 16 ≥ size) then some 0x0103
  else if fmt = 0 then some 0x010A else none

/-- The check of a segment header that fails (R200, R203): the check's number and the offending value. -/
def segCheck (h : List Byte) (fmt major minors : Nat) : Option (Nat × Nat) :=
  let cnt := byteAt h 2
  let mi := fun i => leAt h (4 + 2 * i) 2
  if byteAt h 3 ≠ fmt then some (0, byteAt h 3)
  else if leAt h 0 2 ≠ major then some (1, leAt h 0 2)
  else if cnt > 30 then some (2, cnt)
  else match (List.range cnt).find? fun i => mi i ≥ minors with
    | some i => some (3, mi i)
    | none => match (List.range (cnt - 1)).find? fun i => mi (i + 1) ≤ mi i with
      | some i => some (4, mi (i + 1))
      | none => none

/-- The cases of MBLK before its header (R182), lowest DETAIL first. -/
def State.blkCase (s : State) (t w r0 : Nat) : Option Nat :=
  let size := s.slipSize t (bits r0 19 5)
  if bits r0 0 19 % 64 ≠ 0 then some 0x0102
  else if size = 0 ∨ bits r0 0 19 ≥ size then some 0x0103
  else if s.bufFmt t w = 0 then some 0x010A else none

/-- MBLK starts (R200–R203): its header is read and checked, its row-blocks without an entry are counted. -/
def State.blkStart (s : State) (t acc rbs w r0 r1 : Nat) : MRes :=
  match s.blkCase t w r0 with
  | some d => .error (s, opCase d (mAux 0 acc 2))
  | none => match s.fromTail t (bits r0 19 5) (bits r0 0 19) 64 with
    | .error c => .error (s, c)
    | .ok h =>
      match segCheck h (if s.bufFmt t w = 2 then 1 else 0) (bits r1 0 16) rbs with
      | some (k, v) => .error (s, ⟨0x09, 0, v + 2 ^ 16 * k⟩)
      | none =>
        let ms := (List.range (byteAt h 2)).map fun e => leAt h (4 + 2 * e) 2
        .ok ((s.inc F.T_BLK_ABSENT_BLOCKS (rbs - ms.length) t).upTile t fun x => { x with mseg := ms })

/-- Clear bits of a 64-bit mask field for rows acc to acc + n − 1. -/
def State.clearRows (s : State) (f : Fld) (t acc n : Nat) : State :=
  let m := s.rd f t
  s.wr f ((List.range n).foldl (fun m i => if m.testBit (acc + i) then m ^^^ 2 ^ (acc + i) else m) m) t

/-- MZERO (R170, R209): rows in ascending order. -/
def State.mZero (s : State) (t acc : Nat) (pair : Bool) : Nat → Nat → MRes
  | 0, _ => .ok s
  | n + 1, i =>
    let a := acc + i
    match (if pair then s.pairCase t a else none) with
    | some d => .error (s, opCase d (mAux 0 a 4))
    | none =>
      let s := ((s.setAcc t a zeros32).wr F.CNT 0 t a)
      let s := (s.clearRows F.T_MSKIP_MASK t a 1).clearRows F.T_MAUDIT_AUDIT t a 1
      (if pair then s.setPair t a zeros32 zeros32 else s).mZero t acc pair n (i + 1)

/-- The epilogue of one element (R175). -/
def epiVal (op v e : Nat) : Except Nat Nat :=
  match op with
  | 1 => fadd v e
  | 2 => fmul v e
  | _ => .ok v

/-- The output rounding of one element (R175, R176). -/
def outVal (rnd y r : Nat) : Except Nat Nat :=
  match rnd with
  | 0 => cvtNear y
  | 1 => cvtStoch y r
  | _ => .ok y

/-- The epilogue operand row i (R174, R177): its 32 FP32 patterns. -/
def State.epiRow (s : State) (t i : Nat) : Except Case (List Nat) :=
  if s.rd F.T_MEPI_CFG_OP t = 0 then .ok zeros32
  else
    let slip := s.rd F.T_MEPI_CFG_SLIP t
    let off := s.rd F.T_MEPI_CFG_OFFSET t + i * s.rd F.T_MEPI_CFG_STRIDE t
    if s.rd F.T_MEPI_CFG_EFMT t = 0 then
      (s.fromTail t slip off 64).map fun b => (List.range 32).map fun n => leAt b (2 * n) 2 * 65536
    else (s.fromTail t slip off 128).map fun b => (List.range 32).map fun n => leAt b (4 * n) 4

/-- The value of a row before the epilogue (R175): the accumulator, or s + c of its pair after the fold's spill. -/
def State.outRowVal (s : State) (t a : Nat) (fold : Bool) : Except (Nat × Nat) (List Nat) :=
  if fold then
    let p := spad t (s.pairOff t a)
    cols fun n => fadd (s.ldn (p + 4 * n) 4) (s.ldn (p + 128 + 4 * n) 4)
  else .ok ((List.range 32).map fun n => s.acc t a n)

/-- One row of MOUT (R175–R177, R209–R211). A case of the epilogue leaves a fold's spill, done in earlier tc, as it is
(R183). -/
def State.outRow (s0 : State) (t a i dest : Nat) (fold keep : Bool) : MRes :=
  let rnd := s0.rd F.T_MEPI_CFG_RND t
  let len := if rnd = 2 then 128 else 64
  if dest + len > 0x6_0000 then .error (s0, opCase 0x0101 (mAux 0 a 3))
  else if s0.inExec t dest len then .error (s0, ⟨0x07, 0, dest⟩)
  else
    match (if fold then s0.spillRow t a else .ok s0) with
    | .error (_, c) => .error (s0, c)
    | .ok s =>
      match s.epiRow t i, s.outRowVal t a fold with
      | .error c, _ => .error (s, c)
      | _, .error (d, n) => .error (s, opCase d (mAux n a 3))
      | .ok e, .ok v =>
        let audit := (s.rd F.T_MAUDIT_AUDIT t).testBit a
        let th := s.rd F.T_LOOK_THRESH_THRESH t
        let miss := (v.filter fun x => absGe x th).length
        let v := if audit then zeros32 else v
        let r := (Config.rng s.free).toNat
        match cols fun n => (epiVal (s.rd F.T_MEPI_CFG_OP t) (v.getD n 0) (e.getD n 0)).bind fun y =>
            outVal rnd y (lane r 16 n) with
        | .error (d, n) => .error (s, opCase d (mAux n a 3))
        | .ok o =>
          let s := if audit then s.inc F.T_CUP_MISSED_OUTPUTS miss t else s
          let s := if rnd = 1 then (s.inc F.T_RNG_DRAWN_M_BITS 512 t).drawn else s
          let s := if (s.rd F.T_MSKIP_MASK t).testBit a then s.inc F.T_CUP_SKIPPED_OUT_OUTPUTS 32 t else s
          let s := s.setBytes (spad t dest) (o.flatMap fun x => leBytes x (len / 32))
          let s := if audit || !keep then (s.setAcc t a zeros32).wr F.CNT 0 t a else s
          let s := if (audit || !keep) && fold then s.setPair t a zeros32 zeros32 else s
          let s := if keep then s else s.clearRows F.T_MSKIP_MASK t a 1
          .ok (s.clearRows F.T_MAUDIT_AUDIT t a 1)

/-- The cases of MOUT before its first row (R182), lowest DETAIL first. -/
def State.outCase (s : State) (t r0 r1 : Nat) : Option Nat :=
  let size := s.slipSize t (s.rd F.T_MEPI_CFG_SLIP t)
  let op := s.rd F.T_MEPI_CFG_OP t
  if bits r0 0 19 + (if s.rd F.T_MEPI_CFG_RND t = 2 then 128 else 64) > 0x6_0000 then some 0x0101
  else if bits r0 0 19 % 64 ≠ 0 ∨ bits r1 0 16 % 64 ≠ 0
      ∨ (op ≠ 0 ∧ (s.rd F.T_MEPI_CFG_OFFSET t % 64 ≠ 0 ∨ s.rd F.T_MEPI_CFG_STRIDE t % 64 ≠ 0)) then some 0x0102
  else if op ≠ 0 ∧ (size = 0 ∨ s.rd F.T_MEPI_CFG_OFFSET t ≥ size) then some 0x0103
  else none

/-- One row of MLOOK (R207). -/
def State.lookRow (s : State) (t p tr : Nat) : MRes :=
  let row := (List.range 32).map fun c => s.acc t p c
  let th := s.rd F.T_LOOK_THRESH_THRESH t
  match (List.range 32).find? fun c => fp32 (row.getD c 0) == .nan || fp32 th == .nan with
  | some c => .error (s, opCase 1 (mAux c p 6))
  | none =>
    let s := (s.inc F.T_LOOK_ROWS_ROWS 1 t).clearRows F.T_MSKIP_MASK t tr 1
    let s := s.clearRows F.T_MAUDIT_AUDIT t tr 1
    if row.any fun x => absGe x th then .ok s
    else
      let s1 := ((s.inc F.T_CUP_INACTIVE_ROWS 1 t).inc F.T_RNG_DRAWN_M_BITS 8 t).drawn
      .ok (if (Config.rng s.free).toNat % 256 = 0 then
          (s1.inc F.T_CUP_AUDITED_ROWS 1 t).wr F.T_MAUDIT_AUDIT (s.rd F.T_MAUDIT_AUDIT t ||| 2 ^ tr) t
        else s1.wr F.T_MSKIP_MASK (s.rd F.T_MSKIP_MASK t ||| 2 ^ tr) t)

/-! ## Rows of the stream lane -/

/-- The places of an instruction of the stream lane that take a row each: MBLK has 32 of each entry. -/
def MOp.places (o : MOp) (seg : List Nat) : Nat :=
  match o with
  | .run _ rows _ => rows
  | .blk _ _ _ _ => 32 * seg.length
  | .out _ rows _ _ => rows
  | .look _ rows _ => rows
  | _ => 0

/-- The accumulator row of a place, 64 where it has none. -/
def MOp.accRow (o : MOp) (seg : List Nat) (p : Nat) : Nat :=
  match o with
  | .run acc _ _ => acc + p
  | .blk acc _ _ _ => acc + 32 * seg.getD (p / 32) 0 + p % 32
  | .out acc _ _ _ => acc + p
  | .look pacc _ _ => pacc + p
  | _ => 64

/-- Whether the stream lane's instruction has read its last row (R178). -/
def TileX.rowsRead (x : TileX) : Bool := x.mstream.all fun m => decide (m.op.places x.mseg ≤ x.mpos)

/-- Go over the places that the skip mask skips (R205, R211), n at most; an entry of MBLK is counted at its first row
(R204). -/
def State.skipRows (s : State) (t : Nat) (m : MInstr) : Nat → State
  | 0 => s
  | n + 1 =>
    let x := s.tile t
    let s1 := match m.op with
      | .blk _ _ _ _ => if x.mpos % 32 = 0 then s.inc F.T_BLK_PRESENT_BLOCKS 1 t else s
      | _ => s
    if (s.rd F.T_MSKIP_MASK t).testBit (m.op.accRow x.mseg x.mpos) then
      ((s1.inc F.T_SKIP_ROWS_CHUNKS 1 t).upTile t fun x => { x with mpos := x.mpos + 1 }).skipRows t m n
    else s1

/-- One row of an instruction of the stream lane at its place. -/
def State.rowAt (s : State) (t : Nat) (m : MInstr) (p : Nat) : MRes :=
  let seg := (s.tile t).mseg
  let stream (w inst : Nat) (q : List (Nat × Nat) × List (Nat × Nat)) : MRes :=
    match s.partBytes t (bits m.r0 19 5) q.1, s.partBytes t (bits m.r0 19 5) q.2 with
    | .error c, _ => .error (s, c)
    | _, .error c => .error (s, c)
    | .ok row, .ok sc => s.addRow t w (s.bufFmt t w) (m.op.accRow seg p) inst row sc
  match m.op with
  | .run _ _ w => stream w 1 (runParts (s.bufFmt t w) p m.r0 m.r1 m.r2)
  | .blk _ _ half w => stream w 2 (blkParts (s.bufFmt t w) half p m.r0)
  | .out acc _ fold keep => s.outRow t (acc + p) p (bits m.r0 0 19 + p * bits m.r1 0 16) fold keep
  | .look pacc _ _ => s.lookRow t (pacc + p) (bits m.r1 0 6 + p)
  | _ => .ok s

/-- What the first tc of a matrix instruction does beside its first row: the checks, and the whole of a load, an MZERO, an
MSPILL or an MEPI. -/
def State.mBegin (s : State) (t : Nat) (m : MInstr) : MRes :=
  let checked (c : Option Nat) (acc inst : Nat) : MRes := match c with
    | some d => .error (s, opCase d (mAux 0 acc inst))
    | none => .ok s
  match m.op with
  | .ldw fmt w => s.mLoad t fmt w (bits m.r0 0 19) (bits m.r1 0 19) (bits m.r2 0 19)
  | .run acc _ w => checked (s.runCase t w m.r0 m.r1 m.r2) acc 1
  | .blk acc rbs _ w => s.blkStart t acc rbs w m.r0 m.r1
  | .zero acc rows pair => s.mZero t acc pair rows 0
  | .spill iv =>
    if bits m.r0 0 19 % 256 ≠ 0 then .error (s, opCase 0x0102 (mAux 0 0 5))
    else .ok ((s.wr F.T_MSPILL_CFG_BASE (bits m.r0 0 19) t).wr F.T_MSPILL_CFG_INTERVAL iv t)
  | .epi op ef r =>
    if bits m.r0 0 19 % 64 ≠ 0 ∨ bits m.r1 0 16 % 64 ≠ 0 then .error (s, opCase 0x0102 (mAux 0 0 3))
    else
      let s := (s.wr F.T_MEPI_CFG_OP op t).wr F.T_MEPI_CFG_EFMT ef t
      let s := (s.wr F.T_MEPI_CFG_RND r t).wr F.T_MEPI_CFG_SLIP (bits m.r0 19 5) t
      .ok ((s.wr F.T_MEPI_CFG_OFFSET (bits m.r0 0 19) t).wr F.T_MEPI_CFG_STRIDE (bits m.r1 0 16) t)
  | .out acc _ _ _ => checked (s.outCase t m.r0 m.r1) acc 3
  | .rda _ _ => .ok s
  | .look _ _ _ => .ok (s.wr F.T_LOOK_THRESH_THRESH m.r0 t)

/-! ## Scratchpad that instructions read and write -/

/-- What of the unit's configuration its instructions change on the way (R172, R174): the two formats, the pairs' base and
interval, the epilogue's OP, EFMT, RND, slip, offset and stride, the rows' chunk counts, and whether these are known. -/
structure MCfg where
  fmt0 : Nat
  fmt1 : Nat
  base : Nat
  iv   : Nat
  op   : Nat
  ef   : Nat
  rnd  : Nat
  slip : Nat
  off  : Nat
  stri : Nat
  cnt  : List Nat
  sure : Bool
deriving DecidableEq, Repr

/-- The unit's configuration as it stands. -/
def State.mcfg (s : State) (t : Nat) : MCfg :=
  { fmt0 := s.bufFmt t 0, fmt1 := s.bufFmt t 1, base := s.rd F.T_MSPILL_CFG_BASE t, iv := s.rd F.T_MSPILL_CFG_INTERVAL t,
    op := s.rd F.T_MEPI_CFG_OP t, ef := s.rd F.T_MEPI_CFG_EFMT t, rnd := s.rd F.T_MEPI_CFG_RND t,
    slip := s.rd F.T_MEPI_CFG_SLIP t, off := s.rd F.T_MEPI_CFG_OFFSET t, stri := s.rd F.T_MEPI_CFG_STRIDE t,
    cnt := (List.range 64).map fun a => s.rd F.CNT t a, sure := true }

/-- Set the counts of n rows from a first one. -/
def setCounts (f : Nat → Nat) (acc n : Nat) (l : List Nat) : List Nat :=
  ((List.range l.length).zip l).map fun e => if acc ≤ e.1 ∧ e.1 < acc + n then f e.2 else e.2

/-- The pair of a row under a configuration. -/
def MCfg.pair (c : MCfg) (a : Nat) : Nat × Nat := (c.base + 256 * a, 256)

/-- The places of an instruction still to come whose rows are not skipped as the mask stands, those of MBLK without its
header taken as all of its row-blocks. -/
def State.rowsLeft (s : State) (t : Nat) (m : MInstr) (run : Bool) : List (Nat × Nat) :=
  let x := s.tile t
  let seg := if run then x.mseg else match m.op with
    | .blk _ rbs _ _ => List.range rbs
    | _ => []
  ((List.range (m.op.places seg)).filter fun p => !run || decide (x.mpos ≤ p)).filterMap fun p =>
    let a := m.op.accRow seg p
    match m.op with
    | .out _ _ _ _ => some (p, a)
    | .look _ _ _ => none
    | _ => if (s.rd F.T_MSKIP_MASK t).testBit a then none else some (p, a)

/-- The ranges an unfinished instruction still reads and writes (R180), and the configuration behind it. A row whose spill
hangs on what is not known counts as spilling. -/
def State.mTouch (s : State) (t : Nat) (c : MCfg) (m : MInstr) (run : Bool) :
    List (Nat × Nat) × List (Nat × Nat) × MCfg :=
  let rows := s.rowsLeft t m run
  let slip (i off n : Nat) : List (Nat × Nat) :=
    if s.slipSize t i = 0 then [] else s.slipSpan t i ((s.slipTail t i + off) % 2 ^ 32) n
  let fmt (w : Nat) : Nat := if w = 0 then c.fmt0 else c.fmt1
  let pairs := (rows.filter fun e => c.iv != 0 && (!c.sure || decide (c.iv ≤ c.cnt.getD e.2 0 + 1))).map fun e => c.pair e.2
  let chunk : List Nat := ((List.range 64).zip c.cnt).map fun e =>
    if rows.any (fun r => r.2 == e.1) then (if c.iv ≠ 0 ∧ c.iv ≤ e.2 + 1 then 0 else min (e.2 + 1) 127) else e.2
  match m.op with
  | .ldw f w =>
    let (nv, ns, nm) := fmtSizes f
    ([(bits m.r0 0 19, nv), (bits m.r1 0 19, ns), (bits m.r2 0 19, nm)], [],
     if w = 0 then { c with fmt0 := f } else { c with fmt1 := f })
  | .run _ _ w =>
    (rows.flatMap fun e =>
      let q := runParts (fmt w) e.1 m.r0 m.r1 m.r2
      (q.1 ++ q.2).flatMap fun r => slip (bits m.r0 19 5) r.1 r.2, pairs, { c with cnt := chunk })
  | .blk _ _ half w =>
    let i := bits m.r0 19 5
    ((if run then [] else slip i (bits m.r0 0 19) 64) ++ rows.flatMap fun e =>
      let q := blkParts (fmt w) half e.1 m.r0
      (q.1 ++ q.2).flatMap fun r => slip i r.1 r.2, pairs,
     if run then { c with cnt := chunk } else { c with sure := false })
  | .zero acc n true => ([], (List.range n).map fun i => c.pair (acc + i), { c with cnt := setCounts (fun _ => 0) acc n c.cnt })
  | .zero acc n false => ([], [], { c with cnt := setCounts (fun _ => 0) acc n c.cnt })
  | .spill iv => ([], [], { c with iv := iv, base := bits m.r0 0 19 })
  | .epi op ef r =>
    ([], [], { c with op := op, ef := ef, rnd := r, slip := bits m.r0 19 5, off := bits m.r0 0 19, stri := bits m.r1 0 16 })
  | .out acc n fold keep =>
    (if c.op = 0 then [] else rows.flatMap fun e => slip c.slip (c.off + e.1 * c.stri) (if c.ef = 0 then 64 else 128),
     (rows.map fun e => (bits m.r0 0 19 + e.1 * bits m.r1 0 16, if c.rnd = 2 then 128 else 64))
       ++ (if fold then rows.map fun e => c.pair e.2 else []),
     if fold || !keep then { c with cnt := setCounts (fun _ => 0) acc n c.cnt } else c)
  | .look _ _ _ => ([], [], { c with sure := false })
  | .rda _ _ => ([], [], c)

/-- What instructions read and write, one after the other. -/
def State.mTouches (s : State) (t : Nat) : MCfg → List MInstr → List (MInstr × List (Nat × Nat) × List (Nat × Nat))
  | _, [] => []
  | c, m :: r =>
    let q := s.mTouch t c m false
    (m, q.1, q.2.1) :: s.mTouches t q.2.2 r

/-- What every unfinished instruction still reads and writes (R180): the running stream, then the queue. A running load
has read all its bytes. -/
def State.matPlan (s : State) (t : Nat) : List (MInstr × List (Nat × Nat) × List (Nat × Nat)) :=
  let x := s.tile t
  match x.mstream with
  | some m =>
    let q := s.mTouch t (s.mcfg t) m true
    (m, q.1, q.2.1) :: s.mTouches t q.2.2 x.mq
  | none => s.mTouches t (s.mcfg t) x.mq

/-- Whether two ranges of scratchpad share a byte. -/
def overlap (a b : Nat × Nat) : Bool :=
  decide (0 < a.2) && decide (0 < b.2) && decide (a.1 < b.1 + b.2) && decide (b.1 < a.1 + a.2)

/-- A core load or store waits, as busy time, for unfinished matrix instructions that write its bytes, and a store also
for those that read them (R180). -/
def State.matHazard (s : State) (t : Nat) (rng : Nat × Nat) (store : Bool) : Bool :=
  (s.matPlan t).any fun e => e.2.2.any (overlap rng) || (store && e.2.1.any (overlap rng))

/-! ## Start and finish -/

/-- The next instruction of a lane that may start (R178): the load lane's first load, when its buffer is no longer
streamed from by an earlier instruction; the stream lane's first other, when its buffer's loads have finished. -/
def nextMat (load : Bool) (x : TileX) : List MInstr → List MInstr → Option MInstr
  | [], _ => none
  | m :: r, before =>
    if m.op.isLoad == load then
      let busy := (if load then (if x.rowsRead then [] else x.mstream.toList) else x.mload.toList) ++ before
      if busy.any fun b => b.op.isLoad != load && m.op.buf.isSome && b.op.buf == m.op.buf then none else some m
    else nextMat load x r (before ++ [m])

/-- The lane of the load or the stream holds an instruction. -/
def TileX.laneBusy (x : TileX) (load : Bool) : Bool := if load then x.mload.isSome else x.mstream.isSome

/-- A case raised by the matrix unit halts the tile and discards the rest of the instruction and the queue (R183); a load
in the other lane goes on. -/
def State.matHalt (s : State) (t : Nat) (m : MInstr) (c : Case) : State :=
  let s := s.upTile t fun x => { x with mq := [], mpos := 0, mseg := [], mstream := if m.op.isLoad then x.mstream else none }
  (s.halt t c.reason 2 m.addr c.detail c.aux).tokenCheck t

/-- The ranges of scratchpad that a row reads (R243): what it streams or takes as its epilogue operand, where that is
there, and the pair that it spills into. -/
def State.rowSpans (s : State) (t : Nat) (m : MInstr) (p : Nat) : List (Nat × Nat) :=
  let a := m.op.accRow (s.tile t).mseg p
  let slip (i : Nat) (l : List (Nat × Nat)) : List (Nat × Nat) :=
    if l.all fun r => decide (r.1 + r.2 ≤ s.slipAvail t i) then
      l.flatMap fun r => s.slipSpan t i ((s.slipTail t i + r.1) % 2 ^ 32) r.2
    else []
  let pair := if (s.pairCase t a).isNone then [(s.pairOff t a, 256)] else []
  let q : List (Nat × Nat) := match m.op with
    | .run _ _ w => let q := runParts (s.bufFmt t w) p m.r0 m.r1 m.r2; q.1 ++ q.2
    | .blk _ _ half w => let q := blkParts (s.bufFmt t w) half p m.r0; q.1 ++ q.2
    | _ => []
  match m.op with
  | .out _ _ fold _ =>
    (if s.rd F.T_MEPI_CFG_OP t = 0 then []
     else slip (s.rd F.T_MEPI_CFG_SLIP t) [(s.rd F.T_MEPI_CFG_OFFSET t + p * s.rd F.T_MEPI_CFG_STRIDE t,
       if s.rd F.T_MEPI_CFG_EFMT t = 0 then 64 else 128)]) ++ if fold then pair else []
  | _ => slip (bits m.r0 19 5) q ++ if m.op.heavy && s.spills t a then pair else []

/-- The ranges that an instruction's first tc reads beside its first row: a load's values, scales and metadata, a
segment's header. -/
def State.beginSpans (s : State) (t : Nat) (m : MInstr) : List (Nat × Nat) :=
  match m.op with
  | .ldw fmt _ =>
    let (nv, ns, nm) := fmtSizes fmt
    [(bits m.r0 0 19, nv), (bits m.r1 0 19, ns), (bits m.r2 0 19, nm)].filter fun r => decide (r.1 + r.2 ≤ 0x6_0000)
  | .blk _ _ _ _ =>
    if bits m.r0 0 19 + 64 ≤ s.slipAvail t (bits m.r0 19 5) then
      s.slipSpan t (bits m.r0 19 5) ((s.slipTail t (bits m.r0 19 5) + bits m.r0 0 19) % 2 ^ 32) 64
    else []
  | _ => []

/-- The code's report on a read of n words, and what is left of it for the words behind them. -/
def eccSplit (n : Nat) : Ecc → Ecc × Ecc
  | .ok => (.ok, .ok)
  | .corrected w b => if w < n then (.corrected w b, .ok) else (.ok, .corrected (w - n) b)
  | .uncorrectable w p => if w < n then (.uncorrectable w p, .ok) else (.ok, .uncorrectable (w - n) p)

/-- Read ranges under the code, then do something: an uncorrectable word halts the tile with SCRATCH_ECC (R243). The
state, the rest of the report, whether the unit goes on. -/
def State.matRead (s : State) (t : Nat) (m : MInstr) (l : List (Nat × Nat)) (ecc : Ecc) (go : State → MRes) :
    State × Ecc × Bool :=
  let e := eccSplit (wordsOf l).length ecc
  match s.readCheck t l 1 e.1 with
  | (s, some w) =>
    ((match m.op with
      | .ldw _ b => s.setBufFmt t b 0
      | _ => s).matHalt t m ⟨0x06, 0, w⟩, e.2, false)
  | (s, none) => match go s with
    | .ok s => (s, e.2, true)
    | .error (s, c) => (s.matHalt t m c, e.2, false)

/-- The next row of the stream lane's instruction, behind the skipped ones. -/
def State.matRow (s : State) (t : Nat) (m : MInstr) (ecc : Ecc) : State × Ecc × Bool :=
  let n := m.op.places (s.tile t).mseg
  let s := match m.op with
    | .run _ _ _ => s.skipRows t m (n - (s.tile t).mpos)
    | .blk _ _ _ _ => s.skipRows t m (n - (s.tile t).mpos)
    | _ => s
  let p := (s.tile t).mpos
  if n ≤ p then (s, ecc, true)
  else s.matRead t m (s.rowSpans t m p) ecc fun s =>
    (s.rowAt t m p).map fun s => s.upTile t fun x => { x with mpos := p + 1 }

/-- Rows of the stream lane's instruction, n at most, until one halts the tile. -/
def State.matRows (s : State) (t : Nat) (m : MInstr) (ecc : Ecc) : Nat → State
  | 0 => s
  | n + 1 => match s.matRow t m ecc with
    | (s, e, true) => s.matRows t m e n
    | (s, _, false) => s

/-- One tc of the stream lane (R162): its instruction's next row. -/
def State.matTick (s : State) (t : Nat) : State :=
  match (s.tile t).mstream with
  | some m => if s.stands t then s else s.matRows t m .ok 1
  | none => s

/-- MATRIX_INSTR_START (R178): the lane's next instruction starts and does its first tc (log 133); a case halts the tile
and discards the queue (R183), an uncorrectable word it reads too (R243). -/
def State.matStart (s : State) (t : Nat) (load : Bool) (ecc : Ecc) : State :=
  let x := s.tile t
  if x.laneBusy load || s.stands t then s
  else
    match nextMat load x x.mq [] with
    | none => s
    | some m =>
      let s := s.upTile t fun x => { x with mq := dropFirst (fun y => y == m) x.mq }
      let s := if load then s.upTile t fun x => { x with mload := some m }
               else s.upTile t fun x => { x with mstream := some m, mpos := 0, mseg := [] }
      match s.matRead t m (s.beginSpans t m) ecc fun s => s.mBegin t m with
      | (s, e, true) => if load then s else s.matRows t m e 1
      | (s, _, false) => if load then s.upTile t fun x => { x with mload := none } else s

/-- MATRIX_INSTR_FINISH (R179): the rows that are left, then the lane is free; the token returns after the last heavy
instruction. -/
def State.matFinish (s : State) (t : Nat) (load : Bool) (ecc : Ecc) : State :=
  let x := s.tile t
  if !x.laneBusy load || s.stands t then s
  else if load then (s.upTile t fun x => { x with mload := none }).tokenCheck t
  else match x.mstream with
    | none => s
    | some m =>
      let s := s.matRows t m ecc (m.op.places x.mseg - x.mpos)
      (s.upTile t fun x => { x with mstream := none, mpos := 0, mseg := [] }).tokenCheck t

/-! ## Commands -/

/-- MATRIX_INSTR_START (R178). -/
def execMatrixInstrStart (t : TileId) (l : Lane) (ecc : Ecc) (s : State) : Host.Outcome State Fault Refusal :=
  .next (s.matStart t.val (l == .load) ecc)

/-- MATRIX_INSTR_FINISH (R179). -/
def execMatrixInstrFinish (t : TileId) (l : LaneRead) (s : State) : Host.Outcome State Fault Refusal :=
  .next (s.matFinish t.val (l.lane == .load) l.ecc)

/-- TOKEN_GRANT (R184): a free token of a domain is granted to the lowest tile that waits for one and has none; its word
takes the token as it issues. -/
def execTokenGrant (dom : Fin 12) (s : State) : Host.Outcome State Fault Refusal :=
  let ws := s.tokenWaiters dom.val
  .next (match ws.filter fun e => !e.2.granted with
    | [] => s
    | e :: _ =>
      if s.poolOver dom.val (ws.filter fun e => e.2.granted).length then s.upTile e.1 fun x => { x with granted := true }
      else s)

end Sys2Proof.Machine
end

