-- ==== Sys2Proof/Machine/Sieve.lean ====
section
/-! DEFINITION. The sampling sieve (R381–R390): histograms, cuts, gathers and draws over a shard of logits, their
operand cases, the queue, and the commits it sends. -/

namespace Sys2Proof.Machine

/-! ## Parameters -/

/-- A 32-bit lane of a parameter register. -/
def SvInstr.ln (m : SvInstr) (i : Nat) : Nat := lane m.par 32 i
/-- Logit row offset. -/
def SvInstr.src (m : SvInstr) : Nat := bits (m.ln 0) 0 19
/-- Logits are FP32. -/
def SvInstr.f32 (m : SvInstr) : Bool := (m.ln 0).testBit 19
/-- Entries in the shard. -/
def SvInstr.nent (m : SvInstr) : Nat := bits (m.ln 1) 0 17
/-- Token id of entry 0. -/
def SvInstr.tbase (m : SvInstr) : Nat := bits (m.ln 2) 0 18
/-- CAND. -/
def SvInstr.cand (m : SvInstr) : Nat := bits (m.ln 6) 0 11
/-- GREEDY. -/
def SvInstr.greedy (m : SvInstr) : Bool := (m.ln 6).testBit 16
/-- Output offset. -/
def SvInstr.out (m : SvInstr) : Nat := bits (m.ln 7) 0 19
/-- Input offset from a slip's tail. -/
def SvInstr.inOff (m : SvInstr) : Nat := bits (m.ln 8) 0 19
/-- Input slip. -/
def SvInstr.slip (m : SvInstr) : Nat := bits (m.ln 8) 19 5
/-- Records in the group. -/
def SvInstr.nrec (m : SvInstr) : Nat := bits (m.ln 9) 0 7
/-- Cut record offset. -/
def SvInstr.cut (m : SvInstr) : Nat := bits (m.ln 10) 0 19
/-- This tile's rank. -/
def SvInstr.rank (m : SvInstr) : Nat := bits (m.ln 11) 0 6
/-- Bytes of the shard. -/
def SvInstr.srcLen (m : SvInstr) : Nat := m.nent * (if m.f32 then 4 else 2)
/-- Bytes the instruction writes at OUT. -/
def SvInstr.outLen (m : SvInstr) : Nat :=
  if m.op ≤ 1 then 3136 else if m.op = 4 then 64 + 8 * m.cand else 64
/-- Whether it reads the shard, a slip, a cut record. -/
def SvInstr.readsSrc (m : SvInstr) : Bool := m.op ≤ 1 || m.op == 4
/-- Whether it reads records or lists from a slip. -/
def SvInstr.readsSlip (m : SvInstr) : Bool := m.op == 2 || m.op == 3 || m.op == 5
/-- Whether it reads a cut record. -/
def SvInstr.readsCut (m : SvInstr) : Bool := m.op == 1 || m.op == 3 || m.op == 4

/-- Whether an FP32 pattern is a normal positive value. -/
def posNormal (x : Nat) : Bool := !x.testBit 31 && bits x 23 8 != 0 && bits x 23 8 != 255

/-- Whether TOPP lies in (0, 1]. -/
def toppOk (x : Nat) : Bool := posNormal x && decide (x ≤ 0x3F80_0000)

/-- The operand cases of the parameters (R390), in the order of its table. -/
def State.svCase (s : State) (t : Nat) (m : SvInstr) : Option Case :=
  if (m.readsSrc && m.src % 64 != 0) || m.out % 64 != 0 || (m.readsSlip && m.inOff % 64 != 0)
      || (m.readsCut && m.cut % 64 != 0) then some (opCase 0x0102)
  else if m.readsSlip && decide (s.slipSize t m.slip ≤ m.inOff) then some (opCase 0x0103)
  else if (m.readsSrc && decide (m.src + m.srcLen > 0x6_0000)) || decide (m.out + m.outLen > 0x6_0000)
      || (m.readsCut && decide (m.cut + 64 > 0x6_0000)) then some (opCase 0x0101)
  else if (m.readsSrc && !posNormal (m.ln 3)) || ((m.op == 2 || m.op == 3) && (!toppOk (m.ln 5)
        || decide (bits (m.ln 4) 0 19 > 262144)))
      || (m.op ≥ 2 && (m.cand < 8 || m.cand > 1024 || m.cand % 8 != 0))
      || (m.readsSlip && (m.nrec == 0 || m.nrec > 64))
      || (m.op == 4 && decide (m.tbase + m.nent > 262144)) then some (opCase 0x0112)
  else if s.inExec t m.out m.outLen then some ⟨0x07, 0, m.out⟩
  else none

/-! ## Arithmetic -/

/-- exp(z) (R382). -/
def svExp (z : Nat) : Except Nat Nat := (fmul z 0x3FB8_AA3B).bind fun p => vExp2 (fp32 p)

/-- Whether a < b, of FP32 patterns. -/
def flt (a b : Nat) : Bool := (fp32 a).lt (fp32 b)

/-- The greater of two patterns, the first on a tie. -/
def fmx (a b : Nat) : Nat := if flt a b then b else a

/-- Division, correctly rounded. -/
def fdiv (a b : Nat) : Except Nat Nat :=
  match fp32 a, fp32 b with
  | .nan, _ => .error 1
  | _, .nan => .error 1
  | .fin n1 m1 e1, .fin n2 m2 e2 =>
    let q := m1 * 2 ^ 64 / m2
    .ok (roundTo 24 (n1 != n2) (if q * m2 = m1 * 2 ^ 64 then 2 * q else 2 * q + 1) (e1 - e2 - 65))
  | .zero n, .fin k _ _ => .ok (signBit (n != k))
  | .zero n, .inf k => .ok (signBit (n != k))
  | .fin n _ _, .inf k => .ok (signBit (n != k))
  | .fin n _ _, .zero k => .ok (signBit (n != k) + 0x7F80_0000)
  | .inf n, .fin k _ _ => .ok (signBit (n != k) + 0x7F80_0000)
  | .inf n, .zero k => .ok (signBit (n != k) + 0x7F80_0000)
  | _, _ => .error 3

/-- −∞. -/
def negInf : Nat := 0xFF80_0000

/-- The case of a y read from a record or list, or of a scaled logit (R390). -/
def yCase (y : Nat) : Option Nat :=
  match fp32 y with
  | .nan => some 1
  | .inf false => some 2
  | _ => none

/-- The key of a y (R382). -/
def svKey (y : Nat) : Nat :=
  match fp32 y with
  | .zero _ => 0x8000_0000
  | v => if v.neg then 0xFFFF_FFFF - y else y ^^^ 0x8000_0000

/-- The coarse bin of a y. -/
def binC (y : Nat) : Nat := bits (svKey y) 24 8
/-- The fine bin of a y. -/
def binF (y : Nat) : Nat := bits (svKey y) 16 8

/-- The scaled logit of entry i (R382), or its case. -/
def State.svY (s : State) (t : Nat) (m : SvInstr) (i : Nat) : Except Nat Nat :=
  let x := if m.f32 then s.ldn (spad t (m.src + 4 * i)) 4 else s.ldn (spad t (m.src + 2 * i)) 2 * 65536
  match fmul x (m.ln 3) with
  | .error d => .error d
  | .ok y => match yCase y with
    | some d => .error d
    | none => .ok y

/-- All the scaled logits of a shard, or the first case. -/
def State.svYs (s : State) (t : Nat) (m : SvInstr) : Except Nat (List Nat) :=
  allOk ((List.range m.nent).map (s.svY t m))

/-! ## Histograms -/

/-- A bin: count, largest y, mass relative to it. -/
structure Bin where
  cnt  : Nat
  max  : Nat
  mass : Nat
deriving DecidableEq, Repr

/-- An empty bin (R383). -/
def Bin.empty : Bin := ⟨0, negInf, 0⟩

/-- A counted entry updates its bin (R383). -/
def Bin.add (b : Bin) (y : Nat) : Except Nat Bin :=
  if b.cnt = 0 then .ok ⟨1, y, 0x3F80_0000⟩
  else if flt b.max y then
    ((fsub b.max y).bind svExp).bind fun e => (fmul b.mass e).bind fun p => (fadd p 0x3F80_0000).map fun x =>
      ⟨b.cnt + 1, y, x⟩
  else ((fsub y b.max).bind svExp).bind fun e => (fadd b.mass e).map fun x => ⟨b.cnt + 1, b.max, x⟩

/-- Bins over a list of entries, each in the bin that a function names, where it names one. -/
def histOf (f : Nat → Option Nat) : List Nat → List Bin → Except Nat (List Bin)
  | [], bs => .ok bs
  | y :: r, bs => match f y with
    | none => histOf f r bs
    | some k => match (bs.getD k Bin.empty).add y with
      | .error d => .error d
      | .ok b => histOf f r (bs.set k b)

/-- The histogram record (R383). -/
def histRec (rank level bin neg : Nat) (bs : List Bin) : List Byte :=
  leBytes rank 1 ++ leBytes level 1 ++ leBytes bin 1 ++ leBytes 0 1
    ++ leBytes ((bs.map fun b => b.cnt).foldl (· + ·) 0) 4 ++ leBytes neg 4 ++ leBytes 0 52
    ++ bs.flatMap fun b => leBytes b.cnt 4 ++ leBytes b.max 4 ++ leBytes b.mass 4

/-- What a sieve instruction leaves: the bytes at OUT, the masked and dropped entries it counts, TIE, whether it drew
a free value, the commit it sends. -/
structure SvOut where
  body   : List Byte
  neg    : Nat := 0
  trunc  : Nat := 0
  tie    : Bool := false
  drew   : Bool := false
  commit : Option Commit := none
deriving DecidableEq, Repr

/-- The result of a sieve instruction, or its case. -/
abbrev SvRes := Except Case SvOut

/-- SVHIST (R383). -/
def State.svHist (s : State) (t : Nat) (m : SvInstr) : SvRes :=
  let bp := (s.byte (spad t (m.cut + 2))).toNat
  let pick (y : Nat) : Option Nat :=
    if y = negInf then none
    else if m.op = 0 then some (binC y) else if binC y = bp then some (binF y) else none
  match s.svYs t m with
  | .error d => .error (opCase d)
  | .ok ys => match histOf pick ys (List.replicate 256 Bin.empty) with
    | .error d => .error (opCase d)
    | .ok bs =>
      let neg := (ys.filter fun y => y == negInf).length
      .ok { body := histRec m.rank m.op (if m.op = 0 then 0 else bp) neg bs, neg := if m.op = 0 then neg else 0 }

/-! ## Cuts -/

/-- The merged bin of a list of records' bins in rank order (R384). -/
def mergeBin (l : List Bin) : Except Nat Bin :=
  let l := l.filter fun b => b.cnt != 0
  match l with
  | [] => .ok Bin.empty
  | b :: r =>
    match l.find? fun x => (yCase x.max).isSome with
    | some x => .error ((yCase x.max).getD 1)
    | none =>
      let mx := r.foldl (fun a x => fmx a x.max) b.max
      let term (a : Except Nat Nat) (x : Bin) : Except Nat Nat :=
        a.bind fun z => ((fsub x.max mx).bind svExp).bind fun e => (fmul x.mass e).bind fun p => fadd z p
      (l.foldl term (Except.ok 0)).map fun ms => ⟨(l.map fun x => x.cnt).foldl (· + ·) 0, mx, ms⟩

/-- All merged bins, or the first case. -/
def mergeAll (recs : List (List Bin)) : Nat → Except Nat (List Bin)
  | 0 => .ok []
  | n + 1 => match mergeAll recs n with
    | .error d => .error d
    | .ok bs => (mergeBin (recs.map fun r => r.getD n Bin.empty)).map fun b => bs ++ [b]

/-- Weights of merged bins relative to m. -/
def binWeights (m : Nat) : List Bin → Except Nat (List Nat)
  | [] => .ok []
  | b :: r =>
    match (if b.cnt = 0 then .ok 0 else ((fsub b.max m).bind svExp).bind fun e => fmul b.mass e) with
    | .error d => .error d
    | .ok w => (binWeights m r).map fun ws => w :: ws

/-- Sums from the highest bin down to each bin, in that order. -/
def cumDown (ws : List Nat) : List Nat :=
  (ws.reverse.foldl (fun (a : Nat × List Nat) w =>
    let x := match fadd a.1 w with | .ok x => x | .error _ => a.1
    (x, x :: a.2)) (0, [])).2

/-- Counts from the highest bin down to each bin. -/
def cntDown (bs : List Bin) : List Nat :=
  (bs.reverse.foldl (fun (a : Nat × List Nat) b => (a.1 + b.cnt, (a.1 + b.cnt) :: a.2)) (0, [])).2

/-- The highest bin below n that passes a test. -/
def highest (p : Nat → Bool) : Nat → Option Nat
  | 0 => none
  | n + 1 => if p n then some n else highest p n

/-- The lowest non-empty bin. -/
def lowestBin (bs : List Bin) : Option Nat := (List.range bs.length).find? fun b => (bs.getD b Bin.empty).cnt != 0

/-- The cut record (R384). -/
def cutRec (level bk bp sb flags m zc pz aw an kk total kept : Nat) : List Byte :=
  leBytes level 1 ++ leBytes bk 1 ++ leBytes bp 1 ++ leBytes sb 1 ++ leBytes flags 1 ++ leBytes 0 3
    ++ leBytes m 4 ++ leBytes zc 4 ++ leBytes pz 4 ++ leBytes aw 4 ++ leBytes an 4 ++ leBytes kk 4
    ++ leBytes total 4 ++ leBytes kept 4 ++ leBytes 0 24

/-- What a sieve instruction that reads these further values has as its operands. -/
def SvInstr.operands (m : SvInstr) (l : List Nat) : List Nat := m.op :: m.par :: l

/-- A cut record of an empty row: the fields that no bin gives are free values, which the operands alone decide. -/
def cutEmpty (level kk : Nat) (greedy : Bool) (operands : List Nat) : List Byte :=
  let x (i : Nat) : Nat := (Config.sieveOpen i operands).toNat
  cutRec level (x 5) (x 6) (if level = 1 then x 7 else 0) (1 + 4 * b2n greedy) (x 0) (x 1) (x 2) (x 3) (x 4) kk 0 0

/-- The records of a histogram group (R384), or the case of one: underrun, a mismatch. -/
def State.svRecs (s : State) (t : Nat) (m : SvInstr) (level bin : Nat) : Except Case (List (List Bin)) :=
  match s.fromTail t m.slip m.inOff (3136 * m.nrec) with
  | .error c => .error c
  | .ok l =>
    let bad := (List.range m.nrec).any fun i =>
      byteAt l (3136 * i) != i || byteAt l (3136 * i + 1) != level || (level == 1 && byteAt l (3136 * i + 2) != bin)
    if bad then .error (opCase 0x0111)
    else .ok ((List.range m.nrec).map fun i => (List.range 256).map fun b =>
      let o := 3136 * i + 0x40 + 12 * b
      ⟨leAt l o 4, leAt l (o + 4) 4, leAt l (o + 8) 4⟩)

/-- The coarse cut (R384). -/
def State.svCoarse (s : State) (t : Nat) (m : SvInstr) : SvRes :=
  let topk := bits (m.ln 4) 0 19
  let topp := m.ln 5
  let kk := if m.greedy then 1 else if topk = 0 then m.cand else min topk m.cand
  match s.svRecs t m 0 0 with
  | .error c => .error c
  | .ok rs => match mergeAll rs 256 with
    | .error d => .error (opCase d)
    | .ok bs =>
      let total := (cntDown bs).getD 0 0
      if total = 0 then .ok { body := cutEmpty 0 kk m.greedy (m.operands []) }
      else
        let mm := (bs.filter fun b => b.cnt != 0).foldl (fun a b => fmx a b.max) negInf
        match binWeights mm bs with
        | .error d => .error (opCase d)
        | .ok ws =>
          let cum := cumDown ws
          let cnt := cntDown bs
          let bk := (highest (fun b => decide (kk ≤ cnt.getD b 0)) 256).getD ((lowestBin bs).getD 0)
          let zc := cum.getD bk 0
          match fmul topp zc with
          | .error d => .error (opCase d)
          | .ok pz =>
            let bp := if topp = 0x3F80_0000 then bk
              else (highest (fun b => decide (bk ≤ b) && !flt (cum.getD b 0) pz) 256).getD bk
            .ok { body := cutRec 0 bk bp 0 (4 * b2n m.greedy) mm zc (if topp = 0x3F80_0000 then 0 else pz)
                    (cum.getD (bp + 1) 0) (cnt.getD (bp + 1) 0) kk total 0 }

/-- Raise S while too many are kept and a non-empty sub-bin lies above (R384). -/
def raiseS (bs : List Bin) (cnt : List Nat) (an cand : Nat) : Nat → Nat → Nat
  | 0, x => x
  | n + 1, x =>
    if an + cnt.getD x 0 > cand then
      match (List.range 256).find? fun b => decide (x < b) && (bs.getD b Bin.empty).cnt != 0 with
      | some b => raiseS bs cnt an cand n b
      | none => x
    else x

/-- The fine cut (R384). -/
def State.svFine (s : State) (t : Nat) (m : SvInstr) : SvRes :=
  let c := s.bytes (spad t m.cut) 64
  let bk := byteAt c 1
  let bp := byteAt c 2
  let kk := leAt c 0x1C 4
  let topp := m.ln 5
  if (byteAt c 4).testBit 0 then .ok { body := cutEmpty 1 kk m.greedy (m.operands [leVal c]) }
  else
    match s.svRecs t m 1 bp with
    | .error e => .error e
    | .ok rs => match mergeAll rs 256 with
      | .error d => .error (opCase d)
      | .ok bs => match binWeights (leAt c 8 4) bs with
        | .error d => .error (opCase d)
        | .ok ws =>
          let fcum := cumDown ws
          let cnt := cntDown bs
          let an := leAt c 0x18 4
          let pz := leAt c 0x10 4
          let low := lowestBin bs
          let low' := low.getD ((Config.sieveOpen 8 (m.operands [leVal c])).toNat % 256)
          let sk := if bp = bk then (highest (fun x => decide (kk ≤ an + cnt.getD x 0)) 256).getD low' else low'
          let above (x : Nat) : Bool := match fadd (leAt c 0x14 4) (fcum.getD x 0) with
            | .ok y => !flt y pz
            | .error _ => false
          let sp := if topp = 0x3F80_0000 then low' else (highest above 256).getD low'
          let sb := raiseS bs cnt an m.cand 256 (max sk sp)
          let kept := an + cnt.getD sb 0
          let tie := decide (kept > m.cand)
          .ok { body := cutRec 1 bk bp sb (2 * b2n tie + 4 * b2n m.greedy) (leAt c 8 4) (leAt c 0x0C 4) pz
                  (leAt c 0x14 4) an kk (cnt.getD 0 0) kept, tie := tie }

/-! ## Gather and draw -/

/-- Whether an entry is kept (R385). -/
def svKept (bp sb y : Nat) : Bool :=
  y != negInf && (decide (bp < binC y) || (binC y == bp && decide (sb ≤ binF y)))

/-- SVCUT FN 2 (R386). -/
def State.svGather (s : State) (t : Nat) (m : SvInstr) : SvRes :=
  let c := s.bytes (spad t m.cut) 64
  match s.svYs t m with
  | .error d => .error (opCase d)
  | .ok ys =>
    let kept := if (byteAt c 4).testBit 0 then []
      else ((List.range ys.length).zip ys).filter fun e => svKept (byteAt c 2) (byteAt c 3) e.2
    let used := kept.take m.cand
    let tr := kept.length - used.length
    .ok { body := leBytes m.rank 1 ++ leBytes (b2n (decide (0 < tr))) 1 ++ leBytes 0 2 ++ leBytes used.length 4 ++ leBytes 0 56
            ++ (used.flatMap fun e => leBytes (m.tbase + e.1) 4 ++ leBytes e.2 4)
            ++ (List.replicate (m.cand - used.length) (leBytes 0xFFFF_FFFF 4 ++ leBytes negInf 4)).flatten,
          trunc := tr }

/-- The used candidates of the lists (R387), or the case of one: token and y. -/
def State.svLists (s : State) (t : Nat) (m : SvInstr) : Except Case (List (Nat × Nat)) :=
  let n := 64 + 8 * m.cand
  match s.fromTail t m.slip m.inOff (n * m.nrec) with
  | .error c => .error c
  | .ok l =>
    if (List.range m.nrec).any fun i => byteAt l (n * i) != i then .error (opCase 0x0111)
    else
      let cs := (List.range m.nrec).flatMap fun i =>
        (List.range (min (leAt l (n * i + 4) 4) m.cand)).map fun j =>
          (leAt l (n * i + 64 + 8 * j) 4, leAt l (n * i + 68 + 8 * j) 4)
      match cs.findSome? fun e => yCase e.2 with
      | some d => .error (opCase d)
      | none => if cs = [] then .error (opCase 0x0114) else .ok cs

/-- The greedy pick: the largest y, the lowest token on a tie. -/
def greedyPick : List (Nat × Nat) → Nat × Nat
  | [] => (0, 0)
  | [e] => e
  | e :: r =>
    let b := greedyPick r
    if flt b.2 e.2 then e else if flt e.2 b.2 then b else if e.1 ≤ b.1 then e else b

/-- The weights of the candidates. -/
def drawWeights (mx : Nat) (cs : List (Nat × Nat)) : Except Nat (List Nat) :=
  allOk (cs.map fun e => (fsub e.2 mx).bind svExp)

/-- A running FP32 sum. -/
def fsum : List Nat → Nat → Except Nat Nat
  | [], a => .ok a
  | w :: r, a => match fadd a w with
    | .error d => .error d
    | .ok x => fsum r x

/-- The first position whose running sum exceeds t (R387). -/
def drawPick (th : Nat) : List Nat → Nat → Nat → Option Nat
  | [], _, _ => none
  | w :: r, c, i => match fadd c w with
    | .error _ => none
    | .ok x => if flt th x then some i else drawPick th r x (i + 1)

/-- The result of a draw in bytes. -/
def drawRec (m : SvInstr) (token prob z mx n u : Nat) : List Byte :=
  leBytes token 4 ++ leBytes prob 4 ++ leBytes z 4 ++ leBytes mx 4 ++ leBytes n 4 ++ leBytes u 4
    ++ leBytes (m.ln 13) 4 ++ leBytes (m.ln 14) 4 ++ leBytes 0 32

/-- The commit of a draw, where POST asks for it (R378, R387). -/
def drawCommit (t : Nat) (m : SvInstr) (token prob : Nat) : Option Commit :=
  if (m.ln 12).testBit 0 then
    some { tile := t, addr := m.addr, listno := m.ln 13, lane := bits (m.ln 14) 0 12, recNo := bits (m.ln 14) 12 10,
           token := token, prob := prob }
  else none

/-- SVDRAW (R387). Z and M of a greedy draw are stated by no rule: free values, which the operands alone decide. -/
def State.svDraw (s : State) (t : Nat) (m : SvInstr) : SvRes :=
  match s.svLists t m with
  | .error c => .error c
  | .ok cs =>
    if m.greedy then
      let e := greedyPick cs
      let x (i : Nat) : Nat := (Config.sieveOpen i (m.operands (cs.flatMap fun e => [e.1, e.2]))).toNat
      .ok { body := drawRec m e.1 0x3F80_0000 (x 9) (x 10) cs.length 0,
            commit := drawCommit t m e.1 0x3F80_0000 }
    else
      let mx := cs.foldl (fun a e => fmx a e.2) negInf
      match drawWeights mx cs with
      | .error d => .error (opCase d)
      | .ok ws => match fsum ws 0 with
        | .error d => .error (opCase d)
        | .ok z => match fmul z (roundTo 24 false m.rand (-32)) with
          | .error d => .error (opCase d)
          | .ok th =>
            let last := (highest (fun i => flt 0 (ws.getD i 0)) ws.length).getD 0
            let k := (drawPick th ws 0 0).getD last
            match fdiv (ws.getD k 0) z with
            | .error d => .error (opCase d)
            | .ok pr =>
              let tok := (cs.getD k (0, 0)).1
              .ok { body := drawRec m tok pr z mx cs.length m.rand, commit := drawCommit t m tok pr }

/-! ## The queue -/

/-- The whole of a sieve instruction, from the state. -/
def State.svRun (s : State) (t : Nat) (m : SvInstr) : SvRes :=
  match s.svCase t m with
  | some c => .error c
  | none =>
    match m.op with
    | 0 => s.svHist t m
    | 1 => s.svHist t m
    | 2 => s.svCoarse t m
    | 3 => s.svFine t m
    | 4 => s.svGather t m
    | _ => s.svDraw t m

/-- The number of a sieve operation. -/
def SvOp.num : SvOp → Nat
  | .hist0 => 0 | .hist1 => 1 | .cut0 => 2 | .cut1 => 3 | .cut2 => 4 | .draw => 5

/-- Issue a sieve instruction (R381, R388): the parameter register is read, a draw's bits are held. s0 is the state at
issue, rnd what port V gives in this tc. -/
def State.svIssue (s s0 : State) (t addr : Nat) (o : SvOp) (a rnd : Nat) : State :=
  let par := s0.v t a
  let b := if o = .draw ∧ ¬ (lane par 32 6).testBit 16 then rnd % 2 ^ 32 else 0
  s.upTile t fun x => { x with issued := x.issued + 1, sq := x.sq ++ [⟨o.num, addr, par, b, x.issued⟩] }

/-- Scratchpad ranges a sieve instruction reads and writes (R388). -/
def State.svRanges (s : State) (t : Nat) (m : SvInstr) : List (Nat × Nat) × List (Nat × Nat) :=
  ((if m.readsSrc then [(m.src, m.srcLen)] else []) ++ (if m.readsCut then [(m.cut, 64)] else [])
     ++ (if m.readsSlip then [(s.rd F.SLIP_BASE_BASE t m.slip, s.slipSize t m.slip)] else []),
   [(m.out, m.outLen)])

/-- A core load or store waits for unfinished sieve instructions that touch its bytes (R388). -/
def State.svHazard (s : State) (t : Nat) (rng : Nat × Nat) : Bool :=
  let x := s.tile t
  (x.srun.toList ++ x.sq).any fun m =>
    let r := s.svRanges t m
    (r.1 ++ r.2).any (overlap rng)

/-- Whether an earlier matrix instruction still writes bytes that a sieve instruction reads (R388). -/
def State.svBlocked (s : State) (t : Nat) (m : SvInstr) : Bool :=
  (s.matPlan t).any fun k => decide (k.1.seq < m.seq) && k.2.2.any fun w => (s.svRanges t m).1.any (overlap w)

/-- A sieve case halts the tile and discards the queue (R390). -/
def State.svHalt (s : State) (t : Nat) (m : SvInstr) (c : Case) : State :=
  (s.upTile t fun x => { x with sq := [], srun := none }).halt t c.reason 1 m.addr c.detail c.aux

/-- SIEVE_INSTR_START (R388, R390): the next instruction starts once the sieve is free and its inputs are written; its
cases are met now, an uncorrectable word it reads among them (R243). -/
def State.svStart (s : State) (t : Nat) (ecc : Ecc) : State :=
  let x := s.tile t
  match x.srun, x.sq with
  | none, m :: r =>
    if s.svBlocked t m || s.stands t then s
    else
      let (s, bad) := s.readCheck t (s.svRanges t m).1 3 ecc
      match bad with
      | some w => s.svHalt t m ⟨0x06, 0, w⟩
      | none => match s.svRun t m with
        | .error c => s.svHalt t m c
        | .ok _ => s.upTile t fun x => { x with sq := r, srun := some m }
  | _, _ => s

/-- SIEVE_INSTR_FINISH (R383–R389): the record, list or result is written, the counters count, the commit leaves. -/
def State.svFinish (s : State) (t : Nat) : State :=
  if s.stands t then s else
  match (s.tile t).srun with
  | none => s
  | some m => match s.svRun t m with
    | .error c => s.svHalt t m c
    | .ok o =>
      let s := s.upTile t fun x => { x with srun := none }
      let s := s.setBytes (spad t m.out) o.body
      let s := if m.op ≤ 1 then s.inc F.SV_HISTS_COUNT 1 t else s
      let s := if m.op = 5 then s.inc F.SV_DRAWS_COUNT 1 t else s
      let s := s.inc F.SV_NEGINF_COUNT o.neg t
      let s := s.inc F.SV_TRUNC_COUNT o.trunc t
      let s := s.inc F.SV_TIE_COUNT (b2n o.tie) t
      let s := if o.drew then s.drawn else s
      match o.commit with
      | none => s
      | some c => (s.inc F.SV_POSTED_COUNT 1 t).upRos fun r => { r with inflight := r.inflight ++ [c] }

/-- SIEVE_INSTR_START (R388). -/
def execSieveInstrStart (t : TileId) (ecc : Ecc) (s : State) : Host.Outcome State Fault Refusal :=
  .next (s.svStart t.val ecc)

/-- SIEVE_INSTR_FINISH (R389). -/
def execSieveInstrFinish (t : TileId) (s : State) : Host.Outcome State Fault Refusal := .next (s.svFinish t.val)

/-- COMMIT_REFUSED_HALT (R390): a refusal of the roster reaches the tile. -/
def execCommitRefusedHalt (t : TileId) (s : State) : Host.Outcome State Fault Refusal :=
  .next (match s.roster.refused.find? fun e => e.1 == t.val with
    | none => s
    | some e =>
      (s.upRos fun r => { r with refused := dropFirst (fun x => x == e) r.refused }).halt t.val 0x02 1 e.2.1 0x0113 e.2.2)

end Sys2Proof.Machine
end

