-- ==== Sys2Proof/Machine/Gddr.lean ====
section
/-! DEFINITION. GDDR7 as the quays hold it (R308–R313, R328–R334): the map from device addresses to quays and device
offsets, reads that see absorbed writes, the write-absorption buffer, and the record of a bit error. -/

namespace Sys2Proof.Machine

/-! ## Addresses -/

/-- Bands that a pin names, as quays in ascending number (R312). -/
def State.pinQuays (s : State) (p : Nat) : List Nat :=
  let b := s.rd F.QR_PIN_A_BANDS 0 p
  let ks := (List.range 12).filter fun k => b.testBit k
  ks ++ ks.map (· + 12)

/-- Whether a pin is in force. -/
def State.pinEn (s : State) (p : Nat) : Bool := s.rd F.QR_PIN_A_EN 0 p == 1

/-- First address of a pin's range. -/
def State.pinBase (s : State) (p : Nat) : Nat := s.rd F.QR_PIN_A_PBASE 0 p * 4096

/-- Bytes of a pin's range. -/
def State.pinLen (s : State) (p : Nat) : Nat := (s.pinQuays p).length * s.rd F.QR_PIN_B_NSTRIPES 0 p * 4096

/-- Whether a pin covers an address. -/
def State.pinCovers (s : State) (p a : Nat) : Bool :=
  decide (s.pinBase p ≤ a) && decide (a < s.pinBase p + s.pinLen p)

/-- The quay and device offset of an address of a pin (R312). -/
def State.pmap (s : State) (p a : Nat) : Nat × Nat :=
  let l := s.pinQuays p
  let u := (a - s.pinBase p) / 4096
  (l.getD (u % l.length) 0, (s.rd F.QR_PIN_B_SBASE 0 p + u / l.length) * 4096 + a % 4096)

/-- Whether a pin reserves a stripe of a quay. -/
def State.pinReserves (s : State) (p q st : Nat) : Bool :=
  (s.pinQuays p).contains q && decide (s.rd F.QR_PIN_B_SBASE 0 p ≤ st)
    && decide (st < s.rd F.QR_PIN_B_SBASE 0 p + s.rd F.QR_PIN_B_NSTRIPES 0 p)

/-- The quay and device offset of a GDDR7 address by the interleave (R310). -/
def qmap (a : Nat) : Nat × Nat := (a / 4096 % 24, a / 4096 / 24 * 4096 + a % 4096)

/-- The quay and device offset of a GDDR7 address, none where R71 or R313 refuses it. -/
def State.gmap (s : State) (a : Nat) : Option (Nat × Nat) :=
  if a ≥ 0x18_0000_0000 then none
  else
    match (List.range 4).find? fun p => s.pinEn p && s.pinCovers p a with
    | some p => let e := s.pmap p a; if e.2 < 2 ^ 32 then some e else none
    | none =>
      let e := qmap a
      if (List.range 4).any fun p => s.pinEn p && s.pinReserves p e.1 (e.2 / 4096) then none else some e

/-- The memory key of a place in a device: the address that the interleave gives it. -/
def gkey (q d : Nat) : Nat := (d / 4096 * 24 + q) * 4096 + d % 4096

/-- The first address of n bytes from a that no unit reaches, looking at each 4 KiB unit. -/
def State.gbad (s : State) (a n : Nat) : Option Nat :=
  ((List.range ((a + n - 1) / 4096 + 1 - a / 4096)).map fun i => max a ((a / 4096 + i) * 4096)).find?
    fun x => (s.gmap x).isNone

/-! ## Bytes -/

/-- The newest absorbed write of a quay that covers an address. -/
def absorbed (l : List QReq) (a : Nat) : Option Byte :=
  l.foldl (fun r w => match w.data with
    | some d => if w.addr ≤ a ∧ a < w.addr + d.length then some (d.getD (a - w.addr) 0) else r
    | none => r) none

/-- A block with 16 lanes added to it (R331): on a case it is unchanged. -/
def gradBlock (old d : Nat) : Nat :=
  match lanes (fun i => fadd (lane old 32 i) (lane d 32 i)) 16 0 with
  | .error _ => old
  | .ok xs => joinLanes 32 xs

/-- A block with one accepted write or add applied. -/
def QReq.applied (r : QReq) (old : Nat) : Nat :=
  match r.data with
  | none => old
  | some d =>
    if r.add then gradBlock old (leVal d)
    else
      let o := 8 * (r.addr % 64)
      let n := 8 * d.length
      old % 2 ^ o + leVal d * 2 ^ o + old / 2 ^ (o + n) * 2 ^ (o + n)

/-- Insert by place in a quay's order. -/
def insSeq (r : QReq) : List QReq → List QReq
  | [] => [r]
  | y :: l => if r.seq < y.seq then r :: y :: l else y :: insSeq r l

/-- The writes and adds of a block that a quay has accepted and not carried out, in its order (R330). -/
def QuayX.waiting (x : QuayX) (a : Nat) : List QReq :=
  ((x.wab ++ x.grads).filter fun r => r.addr / 64 == a / 64).foldl (fun l r => insSeq r l) []

/-- One byte of GDDR7 as a read accepted now returns it (R330): every write and add accepted before it applied. -/
def State.gbyte (s : State) (a : Nat) : Byte :=
  match s.gmap a with
  | none => 0
  | some (q, d) =>
    if (s.quay q).grads.any fun r => r.addr / 64 == a / 64 then
      BitVec.ofNat 8 (((s.quay q).waiting a).foldl (fun v r => r.applied v) (s.ldn (gkey q (d / 64 * 64)) 64) / 256 ^ (a % 64))
    else (absorbed (s.quay q).wab a).getD (s.byte (gkey q d))

/-- n bytes of GDDR7. -/
def State.gbytes (s : State) (a n : Nat) : List Byte := (List.range n).map fun i => s.gbyte (a + i)

/-- A little-endian value in GDDR7. -/
def State.gldn (s : State) (a n : Nat) : Nat := leVal (s.gbytes a n)

/-- Write bytes into the devices. -/
def State.gset (s : State) (a : Nat) : List Byte → State
  | [] => s
  | b :: r => ((match s.gmap a with
      | some (q, d) => s.setByte (gkey q d) b
      | none => s).gset (a + 1) r)

/-! ## Charges and regulators (R454, R455, R464) -/

/-- The client charged for a partition's traffic: its current one where it is enabled, else client 0 (R454). -/
def State.chargeTo (s : State) (p : Nat) : Nat := if p < 4 ∧ s.partEn p then s.client p else 0

/-- Bytes enter the present window's weight of a partition (R465). -/
def State.weigh (s : State) (p n : Nat) : State :=
  if p < 4 ∧ s.partEn p then s.upPower fun x => { x with weights := aadd x.weights (8 + p) n } else s

/-- Bytes that a quay reads or writes, charged (R464). p 4: client 0. -/
def State.chargeQ (s : State) (p q n : Nat) : State :=
  (s.inc F.PT_ACC_QBYTES_BYTES n 0 (64 * s.chargeTo p + q)).weigh p n

/-- Segment bytes that a fabric port sends, charged (R464). -/
def State.chargeF (s : State) (p k n : Nat) : State :=
  (s.inc F.PT_ACC_FBYTES_BYTES n 0 (64 * s.chargeTo p + k)).weigh p n

/-- The home quay of a tile's pushes and sampling reads (R326). -/
def homeQuay (t : Nat) : Nat := if tileX t < 32 then bandOf t else bandOf t + 12

/-- The quays of an enabled partition (R449). -/
def State.ownsQuay (s : State) (p q : Nat) : Bool := s.bandPart (q % 12) == some p

/-- Whether a bucket polices: EN of an enabled partition. -/
def State.polices (s : State) (p : Nat) (fab : Bool) : Bool :=
  decide (p < 4) && s.partEn p && (if fab then s.rd F.QR_REG_FAB_EN 0 p == 1 else s.rd F.QR_REG_RING_EN 0 p == 1)

/-- BURST of a bucket in 1/1,024 B. -/
def State.burst (s : State) (p : Nat) (fab : Bool) : Nat :=
  (if fab then s.rd F.QR_REG_FAB_BURST 0 p else s.rd F.QR_REG_RING_BURST 0 p) * 1048576

/-- LEVEL of a bucket in 1/1,024 B (R455). -/
def State.level (s : State) (p : Nat) (fab : Bool) : Nat := s.burst p fab - aget 0 s.power.lacks (2 * p + b2n fab)

/-- A bucket gives n bytes. -/
def State.spend (s : State) (p : Nat) (fab : Bool) (n : Nat) : State :=
  s.upPower fun x => { x with lacks := aadd x.lacks (2 * p + b2n fab) (1024 * n) }

/-- A packet's wait at a bucket ends: QR_REG_WAIT takes it, in qc for the ring and fc for the fabric (R456). -/
def State.waited (s : State) (p : Nat) (fab : Bool) : State :=
  let k := 2 * p + b2n fab
  match aget 0 s.power.since k with
  | 0 => s
  | n + 1 =>
    let d := s.tick - n
    let s := if fab then s.inc F.QR_REG_WAIT_FAB_FC (d * 125 / 48) 0 p else s.inc F.QR_REG_WAIT_RING_QC (d * 15 / 8) 0 p
    s.upPower fun x => { x with since := aput 0 x.since k 0 }

/-- A packet of n bytes asks its bucket (R455): the state, and whether it is admitted. What REGULATOR_ADMIT has given a
waiting packet goes first; while none waits, LEVEL. -/
def State.bucketAdmit (s : State) (p : Nat) (fab : Bool) (n : Nat) : State × Bool :=
  let k := 2 * p + b2n fab
  if n = 0 ∨ !s.polices p fab then (s, true)
  else if n ≤ aget 0 s.power.permits k then
    ((s.waited p fab).upPower fun x => { x with permits := aput 0 x.permits k (aget 0 x.permits k - n) }, true)
  else if aget 0 s.power.since k = 0 ∧ 1024 * n ≤ s.level p fab then (s.spend p fab n, true)
  else if aget 0 s.power.since k = 0 then (s.upPower fun x => { x with since := aput 0 x.since k (s.tick + 1) }, false)
  else (s, false)

/-! ## Counters and errors -/

/-- The quays of the 64-byte blocks from an address. -/
def State.blockQuays (s : State) (a n : Nat) : List Nat :=
  (List.range ((n + 63) / 64)).filterMap fun i => (s.gmap (a + 64 * i)).map (·.1)

/-- A GDDR7 block read for a unit: bytes counted at its quay, and as ring traffic where the unit is elsewhere. Its burst
has no retry left over (R334). -/
def State.gcountRead (s : State) (a n : Nat) (ring : Nat → Bool) : State :=
  (s.blockQuays a n).foldl (fun s q =>
    let s := (s.inc F.Q_RD_BYTES_BYTES 64 q).upQuay q fun x => { x with retries := 0 }
    if ring q then s.inc F.Q_RING_BYTES_BYTES 64 q else s) s

/-- The quays of a read that a test names are charged for it (R454). -/
def State.chargeRead (s : State) (a n p : Nat) (ring : Nat → Bool) : State :=
  ((s.blockQuays a n).filter ring).foldl (fun s q => s.chargeQ p q 64) s

/-- Bytes of a read that a partition's ring bucket polices: those of quays not its own (R454). -/
def State.policedBytes (s : State) (a n p : Nat) : Nat :=
  64 * ((s.blockQuays a n).filter fun q => !s.ownsQuay p q).length

/-- A block of a quay meets an error (R332, R333): counted, recorded in Q_ECC_LAST, an uncorrectable one reported. -/
def State.qecc (s : State) (q a reader syn : Nat) (unc : Bool) : State :=
  let d := match s.gmap a with
    | some (_, d) => d
    | none => 0
  let s := if unc then s.inc F.Q_ECC_UNCORR_BLOCKS 1 q else s.inc F.Q_ECC_CORR_BLOCKS 1 q
  let s := s.wr F.Q_ECC_LAST_BLOCK (d / 64) q
  let s := s.wr F.Q_ECC_LAST_UNCORR (b2n unc) q
  let s := s.wr F.Q_ECC_LAST_READER reader q
  let s := s.wr F.Q_ECC_LAST_VALID 1 q
  let s := s.wr F.Q_ECC_LAST_SYNDROME syn q
  if unc then s.event 1 2 q 0x0003 a
  else s.upFault fun x => { x with corr := aadd x.corr (2 * 4096 + q) 1 }

/-- What becomes of the code's report on a block that a quay reads (R334): a burst whose third retry failed is
uncorrectable whatever it says. -/
def State.readBurst (s : State) (a : Nat) (e : Ecc) : State × Ecc :=
  match s.gmap a with
  | none => (s, e)
  | some (q, _) =>
    if (s.quay q).edcBad then (s.upQuay q fun x => { x with edcBad := false }, .uncorrectable 0 0) else (s, e)

/-- What an error-correcting code reports, applied to a block of a quay (R332, R333): the state, and whether it is
uncorrectable. A corrected block is to be written back. -/
def State.gcheck (s : State) (a reader : Nat) (e : Ecc) : State × Bool :=
  let (s, e) := s.readBurst a e
  match e, s.gmap a with
  | .ok, _ => (s, false)
  | _, none => (s, false)
  | .corrected .., some (q, _) =>
    ((s.qecc q a reader (s.syndrome true 65536 528 e) false).upQuay q fun x =>
      if x.wback.contains (a / 64 * 64) then x else { x with wback := x.wback ++ [a / 64 * 64] }, false)
  | .uncorrectable .., some (q, _) => (s.qecc q a reader (s.syndrome true 65536 528 e) true, true)

/-! ## The write-absorption buffer -/

/-- Q_WAB_FILL and Q_WAB_MAX follow the buffer (R337). -/
def State.wabSync (s : State) (q : Nat) : State :=
  let n := (s.quay q).wab.length
  let s := (s.wr F.Q_WAB_FILL_BLOCKS (min n 2047) q).wr F.Q_WAB_FILL_FULL (b2n (decide (2048 ≤ n))) q
  let s := s.wr F.Q_WAB_MAX_BLOCKS (max (s.rd F.Q_WAB_MAX_BLOCKS q) (min n 2047)) q
  if n ≥ 2048 then s.wr F.Q_WAB_MAX_FULL 1 q else s

/-- A writer asks its quays for space (R329), block by block. -/
def State.gpost (s : State) (a : Nat) (d : List Byte) (cls unit : Nat) : State :=
  let rec blocks : Nat → Nat → List Byte → List (Nat × List Byte)
    | 0, _, _ => []
    | _, _, [] => []
    | k + 1, a, d => (a, d.take (64 - a % 64)) :: blocks k (a + (64 - a % 64)) (d.drop (64 - a % 64))
  (blocks (d.length / 64 + 2) a d).foldl (fun s b => match s.gmap b.1 with
    | none => s
    | some (q, _) => s.upQuay q fun x => { x with resWait := x.resWait ++ [⟨b.1, some b.2, cls, unit, false, 0, 0⟩] }) s

/-- A quay accepts a request (R330): it takes the next place in the quay's order. -/
def State.qaccept (s : State) (q : Nat) (r : QReq) : State :=
  s.upQuay q fun x =>
    let r := { r with seq := x.taken, tick := s.tick }
    let x := { x with taken := x.taken + 1 }
    if r.add then { x with grads := x.grads ++ [r] }
    else if r.data.isNone then { x with reads := x.reads ++ [r] }
    else { x with wab := x.wab ++ [r] }

/-- Blocks of the write-absorption buffer that are filled or reserved (R329). -/
def QuayX.blocks (x : QuayX) : Nat := x.wab.length + (x.reserved.filter fun r => r.data.isSome && !r.add).length

/-- Whether a source still has writes on their way to a quay (R315). -/
def QuayX.sending (x : QuayX) (cls unit : Nat) : Bool :=
  (x.resWait ++ x.reserved).any fun r => r.data.isSome && r.cls == cls && r.unit == unit

/-- Whether a source has writes that are not yet in the devices. -/
def State.unretired (s : State) (cls unit : Nat) : Bool :=
  s.quays.any fun e => e.2.sending cls unit || e.2.wab.any fun r => r.cls == cls && r.unit == unit

/-- The partition of a landing task (R466). -/
def State.taskPart (s : State) (k : Nat) : Nat := bits (s.rd F.PT_TASKPART_PART 0 (k / 32)) (2 * (k % 32)) 2

/-- The partition that a core's present mode belongs to (R277): 4, none, in supervisor mode. -/
def State.corePart (s : State) (c : Nat) : Nat :=
  if s.rd F.L_STATUS_SUPER c = 1 then 4 else s.taskPart (s.rd F.L_STATUS_TASK c)

/-- An absorbed write reaches the device (R329, R333): a whole block, or bytes merged into one, which the quay reads
first; a write merged into an uncorrectable block is dropped. -/
def State.retire (s : State) (q : Nat) (r : QReq) (e : Ecc) : State :=
  let d := r.data.getD []
  let (s, bad) := if d.length < 64 then (s.inc F.Q_RD_BYTES_BYTES 64 q).gcheck r.addr 5 e else (s, false)
  let s := s.upQuay q fun x => { x with wback := x.wback.filter fun b => b != r.addr / 64 * 64 }
  if bad then s
  else ((s.gset r.addr d).inc F.Q_WR_BYTES_BYTES 64 q).chargeQ (if r.cls = 1 then s.corePart r.unit else 4) q 64

/-- The absorbed writes of one block that a quay accepted before a request retire, in order. -/
def State.flushBefore (s : State) (q : Nat) (r : QReq) : State :=
  let mine := fun (w : QReq) => w.addr / 64 == r.addr / 64 && decide (w.seq < r.seq)
  let s := ((s.quay q).wab.filter mine).foldl (fun s w => s.retire q w .ok) s
  (s.upQuay q fun x => { x with wab := x.wab.filter fun w => !mine w }).wabSync q

/-! ## Templates -/

/-- A field of a template of Q_TPL (R316, R337), by its byte offset in the template. -/
def State.tplAt (s : State) (q t off n : Nat) : Nat := bits (s.rd F.Q_TPL_TEMPLATE q t) (8 * (off - 2)) (8 * n)
/-- Whether a template is in use. -/
def State.tplValid (s : State) (q t : Nat) : Bool := s.rd F.Q_TPL_VALID q t == 1
/-- STATIC. -/
def State.tplStatic (s : State) (q t : Nat) : Bool := (s.tplAt q t 4 1).testBit 0
/-- BYTES per use. -/
def State.tplBytes (s : State) (q t : Nat) : Nat := s.tplAt q t 8 4
/-- ROWBYTES. -/
def State.tplRow (s : State) (q t : Nat) : Nat := s.tplAt q t 0x0C 4
/-- Flits of a use. -/
def State.tplFlits (s : State) (q t : Nat) : Nat := s.tplBytes q t / 64
/-- Flits that a template's staging region holds. -/
def State.tplRegion (s : State) (q t : Nat) : Nat := (s.rd F.Q_TPL_RSIZE q t + 1) * 64
/-- The use whose next flit the scheduler reads: the first one started with flits left and space in its template's
region, which all uses of the template share (R321); those of a running timetable first. -/
def State.stagingUse (s : State) (q : Nat) : Option Use :=
  let us := (s.quay q).uses
  let can := fun (u : Use) => u.started && decide (u.next < s.tplFlits q u.tpl)
    && decide (((us.filter fun v => v.tpl == u.tpl).map fun v => v.flits.length).sum < s.tplRegion q u.tpl)
  (us.find? fun u => u.run && can u).or (us.find? can)

/-- Whether requests of rank 3 wait (R328): the buffer more than half full, or its oldest write 2,048 qc old. -/
def State.pressing (s : State) (q : Nat) : Bool :=
  decide (1024 < (s.quay q).wab.length) || (s.quay q).wab.head?.any fun r => decide (2048 * 8 ≤ (s.tick - r.tick) * 15)

/-- Whether a quay's device can serve a request of a rank now (R328, R335): not in self-refresh or during a forced
refresh, and not while a request of a higher rank waits. -/
def State.serves (s : State) (q rank : Nat) : Bool :=
  s.rd F.Q_STATUS_SELFREF q == 0 && (s.quay q).forceTc == 0
    && (decide (rank ≤ 2) || (((s.stagingUse q).all fun u => !u.run) && (s.quay q).grads.isEmpty))
    && (decide (rank ≤ 3) || !s.pressing q)

/-- Whether every quay of a read by a source serves it now, the source's earlier writes accepted (R315, R328). -/
def State.servesRead (s : State) (a n cls unit : Nat) : Bool :=
  (s.blockQuays a n).all fun q => s.serves q 4 && !(s.quay q).sending cls unit

/-- Whether a quay is fenced (R544). -/
def State.quayFenced (s : State) (q : Nat) : Bool := (s.rd F.FT_FENCED_UNITS_QUAYS).testBit q

/-- WAB_RESERVATION_GRANT (R329): the first waiting reservation is granted once a block is free; a read that waits
behind its source's writes needs none. -/
def execWabReservationGrant (q : QuayId) (s : State) : Host.Outcome State Fault Refusal :=
  .next (match (s.quay q.val).resWait with
    | [] => s
    | r :: l =>
      if r.data.isNone || decide ((s.quay q.val).blocks < 2048) then
        s.upQuay q.val fun x => { x with resWait := l, reserved := x.reserved ++ [r] }
      else s)

/-- WAB_WRITE_ACCEPT (R330): the first reserved request takes its place in the quay's order. -/
def execWabWriteAccept (q : QuayId) (s : State) : Host.Outcome State Fault Refusal :=
  .next (match (s.quay q.val).reserved with
    | [] => s
    | r :: l => ((s.upQuay q.val fun x => { x with reserved := l }).qaccept q.val r).wabSync q.val)

/-- WAB_RETIRE (R328–R330): the oldest absorbed write retires that no earlier add to its block waits before. -/
def execWabRetire (q : QuayRead) (s : State) : Host.Outcome State Fault Refusal :=
  let x := s.quay q.quay.val
  .next (match x.wab.find? fun r => !(x.grads.any fun g => g.addr / 64 == r.addr / 64 && decide (g.seq < r.seq)) with
    | none => s
    | some r =>
      if s.serves q.quay.val (if s.pressing q.quay.val then 3 else 4) then
        ((s.retire q.quay.val r q.ecc).upQuay q.quay.val fun x =>
          { x with wab := dropFirst (fun w => w == r) x.wab, retries := 0 }).wabSync q.quay.val
      else s)

end Sys2Proof.Machine
end

