-- ==== Sys2Proof/Machine/Quay.lean ====
section
/-! DEFINITION. The quays (R308–R333): timed streams, pushes, refresh, gradient adds, temperature, ring requests. -/

namespace Sys2Proof.Machine

/-! ## Descriptors -/

/-- The quay of a tile's partition that a template number belongs to (R117, R319). -/
def State.tplQuay (s : State) (tile t : Nat) : Option Nat :=
  (List.range 24).find? fun q => s.ownsQuay (s.tilePartN tile) q && s.tplValid q t

/-- Whether a running timetable takes from or delivers to a quay (R324, R337). -/
def State.quayTimed (s : State) (q : Nat) : Bool :=
  s.hub.running.any fun x => s.bandPart (q % 12) == some x.part && s.rd F.Q_RWIN_EN q x.num == 1

/-- Whether all bytes of a descriptor from a place are 0. -/
def zeroAt (b : List Byte) (i n : Nat) : Bool := leAt b i n == 0

/-- A reserved value in a TIMED descriptor (R318). -/
def timedReserved (b : List Byte) : Bool :=
  byteAt b 0 != 0 || !zeroAt b 2 6 || leAt b 0x0E 2 != 0 || leAt b 0x15 3 != 0 || !zeroAt b 0x18 40

/-- The first row of a use that no quay stages (R319): excluded, crossing a 4 KiB unit, or on another quay. -/
def State.badRow (s : State) (q t base stride : Nat) : Option Nat :=
  ((List.range (s.tplBytes q t / max 1 (s.tplRow q t))).map fun i => base + i * stride).find? fun a =>
    match s.gmap a with
    | none => true
    | some (q', _) => q' != q || decide (a % 4096 + s.tplRow q t > 4096)

/-- The case of a TIMED descriptor at acceptance (R319). -/
def State.timedCase (s : State) (q : Nat) (b : List Byte) : Option Case :=
  let t := byteAt b 1
  let stride := if leAt b 0x10 5 = 0 then s.tplAt q t 0x18 5 else leAt b 0x10 5
  if timedReserved b then some (opCase 0x010C)
  else if s.tplStatic q t then some (opCase 0x010F)
  else (s.badRow q t (leAt b 8 6) stride).map fun a => ⟨0x09, 0, a⟩

/-- Whether a quay may accept a post now: fewer than four accepted descriptors of its template wait. -/
def State.tplRoom (s : State) (q t : Nat) : Bool :=
  decide (((s.quay q).uses.filter fun u => u.tpl == t && !u.started).length < 4)

/-- QUAY_DESCRIPTOR_ACCEPT (R319): the first post whose template has room is accepted; on a case the posting tile halts
once its word has issued, and the use delivers empty slots. A use that a running timetable awaits is its. -/
def State.timedAccept (s : State) (q : Nat) : State :=
  match (s.quay q).posts.find? fun p => s.tplRoom q (byteAt p.body 1) with
  | none => s
  | some p =>
    let t := byteAt p.body 1
    let c := s.timedCase q p.body
    let stride := if leAt p.body 0x10 5 = 0 then s.tplAt q t 0x18 5 else leAt p.body 0x10 5
    let u : Use := ⟨t, leAt p.body 8 6, stride, c.isSome, (s.quay q).owed.contains t, false, 0, [], 0⟩
    let s := s.upQuay q fun x => { x with posts := dropFirst (fun y => y == p) x.posts, uses := x.uses ++ [u],
                                          owed := dropFirst (fun y => y == t) x.owed }
    s.upTile p.tile fun x => { x with qpost := x.qpost.map (fun _ => true), qfail := c.map fun c => (c.reason, c.detail, c.aux) }

/-- The first use of a template that has not started, a running timetable's first; a STATIC template's next use where
none waits (R319). -/
def State.nextUse (s : State) (q t : Nat) : Option (Use × Bool) :=
  let can := fun (u : Use) => u.tpl == t && !u.started && !u.failed
  match ((s.quay q).uses.find? fun u => u.run && can u).or ((s.quay q).uses.find? can) with
  | some u => some (u, false)
  | none =>
    if s.tplValid q t && s.tplStatic q t then
      some (⟨t, s.tplAt q t 0x10 6, s.tplAt q t 0x18 5, false, (s.quay q).owed.contains t, false, 0, [], 0⟩, true)
    else none

/-- QUAY_FETCH_START (R67, R321): after the template's previous fetch, with space free in its region, and for a use that
no running timetable takes, once everything that running ones take from the quay is staged. -/
def State.fetchStart (s : State) (q t : Nat) : State :=
  let us := (s.quay q).uses
  let reading := us.any fun u => u.tpl == t && u.started && decide (u.next < s.tplFlits q t)
  let ahead := !(s.quay q).owed.isEmpty || us.any fun u => u.run && !u.failed && decide (u.next < s.tplFlits q u.tpl)
  let fill := ((us.filter fun u => u.tpl == t).map fun u => u.flits.length).sum
  match s.nextUse q t with
  | none => s
  | some (u, new) =>
    if reading || (!u.run && ahead) || decide (s.tplRegion q t ≤ fill) || s.quayFenced q then s
    else if new then
      s.upQuay q fun x => { x with uses := x.uses ++ [{ u with started := true }], owed := dropFirst (fun y => y == t) x.owed }
    else s.upQuay q fun x => { x with uses := mapFirst (fun v => v == u) (fun v => { v with started := true }) x.uses }

/-- The device address of a flit of a use (R317). -/
def State.useAddr (s : State) (q : Nat) (u : Use) : Nat :=
  let o := 64 * u.next
  u.base + o / max 1 (s.tplRow q u.tpl) * u.stride + o % max 1 (s.tplRow q u.tpl)

/-- Change one use of a quay. -/
def State.upUse (s : State) (q : Nat) (u : Use) (f : Use → Use) : State :=
  s.upQuay q fun x => { x with uses := mapFirst (fun v => v == u) f x.uses }

/-- GDDR7_ACCESS_COMPLETE (R322, R328, R332, R333): the request of highest rank completes, timed staging before reads
from the ring. -/
def State.accessComplete (s : State) (q : Nat) (e : Ecc) : State :=
  if s.quayFenced q then s
  else match s.stagingUse q with
    | some u =>
      if !s.serves q (if u.run then 2 else 4) then s
      else
        let a := s.useAddr q u
        let (s, bad) := (s.upQuay q fun x => { x with retries := 0 }).gcheck a 0 e
        let f : Nat × Option Nat := if bad then (0, some a) else (s.gldn a 64, none)
        let s := (s.inc F.Q_TIMED_BYTES_BYTES 64 q).inc F.Q_RD_BYTES_BYTES 64 q
        s.upUse q u fun v => { v with next := v.next + 1, flits := v.flits ++ [f] }
    | none => match (s.quay q).reads with
      | [] => s
      | r :: l =>
        if !s.serves q 4 then s
        else
          let (s, _) := (s.upQuay q fun x => { x with retries := 0 }).gcheck r.addr 4 e
          ((s.inc F.Q_RD_BYTES_BYTES 64 q).inc F.Q_RING_BYTES_BYTES 64 q).upQuay q fun x => { x with reads := l }

/-- A take of a template's next staged flit by its running timetable (R319, R321): none where the use failed or nothing
is staged. A use all of whose flits are taken is over. -/
def State.takeStaged (s : State) (q t : Nat) : State × Option (Nat × Option Nat) :=
  match (s.quay q).uses.find? fun u => u.tpl == t && u.run with
  | none => (s, none)
  | some u =>
    let u' := { u with flits := u.flits.drop 1, taken := u.taken + 1 }
    let s := if u.taken + 1 ≥ s.tplFlits q t then
        s.upQuay q fun x => { x with uses := dropFirst (fun v => v == u) x.uses }
      else if u.failed || !u.flits.isEmpty then
        s.upUse q u fun _ => u'
      else s
    (s, u.flits.head?)

/-- QUAY_BARRIER_ARRIVE (R320): a quay named in the crossing's QMASK arrives once it holds a descriptor for every
non-STATIC template of the crossing and the slot lists of every QUAY-kind manifest run. -/
def State.quayArrive (s : State) (q part c : Nat) : State :=
  let x := s.quay q
  let tpls := ((s.crossTpls part c).filter fun e => e.1 == q && !s.tplStatic q e.2).map (·.2)
  let held := tpls.all fun t => x.uses.any fun u => u.tpl == t && !u.run
  let lists := (s.mfTiles part c).all fun t => match s.mfEntry t c with
    | some (m, _) => s.rd F.MF_MT_CTL_KIND t m == 0 || !(s.mfQuays t m).contains q || x.lists.any fun e => e.1 == t * 256 + c
    | none => true
  if (s.crossMasks part c).1.testBit q && held && lists && !x.arrived.contains (256 * part + c) && !s.quayFenced q then
    match s.barOf part c with
    | none => s
    | some b => (s.gridStart.arrive b 2).upQuay q fun x => { x with arrived := x.arrived ++ [256 * part + c] }
  else s

/-! ## Refresh, temperature -/

/-- tc of a forced all-bank refresh, and of the 16 per-bank refreshes that pay an interval (R322, R324). DESIGN CHOICE
(log 154): the rules bound a refresh, at 180 tc and 54 tc, and each takes its bound. -/
def forcedTc : Nat := 180
def bankRefreshTc : Nat := 54

/-- REFRESH_INTERVAL_DUE (R324): an interval is owed; a debt of 8 is paid at once by a forced refresh. -/
def State.refreshDue (s : State) (q : Nat) : State :=
  let d := s.rd F.Q_STATUS_DEBT q + 1
  if s.rd F.Q_STATUS_SELFREF q = 1 then s
  else if d ≥ 8 then
    ((s.wr F.Q_STATUS_DEBT 7 q).inc F.Q_REFRESH_FORCED_COUNT 1 q).upQuay q fun x => { x with forceTc := forcedTc }
  else s.wr F.Q_STATUS_DEBT d q

/-- One tc of a quay's refreshes (R324): a forced one runs on; outside timetables debt is paid by per-bank refreshes, one
begun before a timetable is ended. -/
def State.refreshTick (s : State) (q : Nat) : State :=
  let x := s.quay q
  let d := s.rd F.Q_STATUS_DEBT q
  if s.rd F.Q_STATUS_SELFREF q = 1 then s
  else if 0 < x.forceTc then s.upQuay q fun x => { x with forceTc := x.forceTc - 1 }
  else if (0 < d ∧ s.quayTimed q = false) ∨ x.bankTc % bankRefreshTc ≠ 0 then
    let s := s.upQuay q fun x => { x with bankTc := (x.bankTc + 1) % (16 * bankRefreshTc) }
    if (s.quay q).bankTc = 0 then s.wr F.Q_STATUS_DEBT (d - 1) q else s
  else s

/-- The window of a running timetable that is open at a quay (R325): the spine cycle in which it opened. -/
def State.openWindow (s : State) (q : Nat) : Option Nat :=
  s.hub.running.findSome? fun x =>
    let c := s.spine - x.began
    let first := s.rd F.Q_RWIN_FIRST q x.num
    let per := s.rd F.Q_RWIN_PERIOD q x.num
    let off := if per = 0 then c - first else (c - first) % per
    if s.bandPart (q % 12) = some x.part ∧ s.rd F.Q_RWIN_EN q x.num = 1 ∧ first ≤ c ∧ off ≤ s.rd F.Q_RWIN_LEN q x.num then
      some (s.spine - off) else none

/-- REFRESH_WINDOW_OPEN (R324, R325): one all-bank refresh per window while in debt. -/
def State.refreshWindow (s : State) (q : Nat) : State :=
  let d := s.rd F.Q_STATUS_DEBT q
  match s.openWindow q with
  | none => s
  | some w =>
    if 0 < d ∧ s.rd F.Q_STATUS_SELFREF q = 0 ∧ (s.quay q).winAt ≠ w + 1 then
      ((s.wr F.Q_STATUS_DEBT (d - 1) q).inc F.Q_REFRESH_WIN_COUNT 1 q).upQuay q fun x => { x with winAt := w + 1 }
    else s

/-! ## Pushes -/

/-- A flag of a PUSH descriptor. -/
def QPost.seg (p : QPost) : Bool := (byteAt p.body 0).testBit 1
/-- Its slip. -/
def QPost.slip (p : QPost) : Nat := byteAt p.body 4 % 32
/-- BASE. -/
def QPost.base (p : QPost) : Nat := leAt p.body 8 6
/-- ROWS, or segments. -/
def QPost.rows (p : QPost) : Nat := leAt p.body 0x18 4
/-- ROWBYTES. -/
def QPost.rowBytes (p : QPost) : Nat := leAt p.body 0x1C 4
/-- CHUNK. -/
def QPost.chunk (p : QPost) : Nat := leAt p.body 0x20 4
/-- STRIDE. -/
def QPost.stride (p : QPost) : Nat := leAt p.body 0x10 5
/-- DONE_EN. -/
def QPost.doneEn (p : QPost) : Bool := (byteAt p.body 0).testBit 2
/-- DONEOBJ. -/
def QPost.doneObj (p : QPost) : Nat := leAt p.body 2 2 % 8192

/-- A reserved value in a PUSH descriptor (R318). -/
def pushReserved (p : QPost) : Bool :=
  let b := p.body
  byteAt b 0 ≥ 8 || byteAt b 1 != 0 || leAt b 2 2 ≥ 8192 || byteAt b 4 ≥ 32 || !zeroAt b 5 3 || leAt b 0x0E 2 != 0
    || leAt b 0x15 3 != 0 || p.rows == 0 || p.rows > 65536 || !zeroAt b 0x29 23
    || (if p.seg then !zeroAt b 0x10 8 || !zeroAt b 0x1C 8 || byteAt b 0x28 > 1
        else p.rowBytes % 64 != 0 || p.rowBytes < 64 || p.rowBytes > 65536 || p.chunk % 64 != 0 || !zeroAt b 0x24 5)

/-- The failing check of a segment header at a push (R200). -/
def pushSegCheck (p : QPost) (h : List Byte) : Option Nat :=
  let cnt := byteAt h 2
  let mi := fun i => leAt h (4 + 2 * i) 2
  if byteAt h 3 ≠ byteAt p.body 0x28 then some (byteAt h 3)
  else if cnt > 30 then some cnt
  else if leAt h 0 2 ≥ leAt p.body 0x24 2 then some (leAt h 0 2)
  else match (List.range cnt).find? fun i => mi i ≥ leAt p.body 0x26 2 || (i > 0 && mi i ≤ mi (i - 1)) with
    | some i => some (mi i)
    | none => none

/-- Bytes of a segment by its header. -/
def segBytes (h : List Byte) : Nat := 64 + byteAt h 2 * (if byteAt h 3 = 0 then 2048 else 1088)

/-- The device address of a 64-byte block of what a push moves next. -/
def Push.addrOf (x : Push) (j : Nat) : Nat :=
  if x.post.seg then x.next + 64 * j
  else
    let o := x.pos + 64 * j
    x.post.base + o / max 1 x.post.rowBytes * x.post.stride + o % max 1 x.post.rowBytes

/-- A push ends in failure (R327): the posting tile halts. -/
def State.pushFail (s : State) (q : Nat) (x : Push) (c : Case) : State :=
  (s.upQuay q fun y => { y with pushes := dropFirst (fun z => z == x) y.pushes }).halt x.post.tile c.reason 3
    x.post.addr c.detail c.aux

/-- What a push asks credit for next (R326, R327, R333), or the case that stops it: a segment's size from its header,
which the quay reads. -/
def State.pushNext (s : State) (x : Push) (e : Ecc) : State × Except Case Nat :=
  if x.post.seg then
    match s.gbad x.next 64 with
    | some a => (s, .error ⟨0x09, 0, a⟩)
    | none =>
      let (s, bad) := s.gcheck x.next 2 e
      let h := s.gbytes x.next 64
      (s, if bad then .error ⟨0x0D, 0, x.next⟩
        else match pushSegCheck x.post h with
          | some v => .error ⟨0x09, 0, v⟩
          | none => .ok (segBytes h))
  else (s, .ok (min x.post.chunk (x.post.rows * x.post.rowBytes - x.pos)))

/-- A push asks its tile for the credit of its next chunk or segment. -/
def State.pushAsk (s : State) (q : Nat) (x : Push) (e : Ecc) : State :=
  match s.pushNext x e with
  | (s, .error c) => s.pushFail q x c
  | (s, .ok n) =>
    let t := x.post.tile
    match s.credRefusal t x.post.slip n 2 with
    | 0 =>
      let y := { x with size := n, recNo := none }
      (s.upQuay q fun z => { z with pushes := mapFirst (fun v => v == x) (fun _ => y) z.pushes }).credQueue t x.post.slip n 2 q
    | k => s.pushFail q x (opCase 0x0110 k)

/-- QUAY_PUSH_START (R326): the home quay starts its next push, at most sixteen at once. -/
def State.pushStart (s : State) (q : Nat) (e : Ecc) : State :=
  match (s.quay q).pushQ with
  | [] => s
  | p :: l =>
    if (s.quay q).pushes.length ≥ 16 || s.quayFenced q || s.rd F.Q_STATUS_SELFREF q == 1 then s
    else
      let x : Push := ⟨p, 0, 0, p.base, 0, none⟩
      let s := s.upQuay q fun y => { y with pushQ := l, pushes := y.pushes ++ [x] }
      if pushReserved p then s.pushFail q x (opCase 0x010C) else s.pushAsk q x e

/-- T_EVLOG's class of a credit holder (R93). -/
def evClass (cls : Nat) : Nat := if cls = 2 then 2 else if cls = 4 then 1 else 4

/-- A refused holder: a code write is logged at the tile (R239), and a REVOKED record becomes free (R233). -/
def State.credRefused (s : State) (t c cls unit code : Nat) : State :=
  let s := if code = 2 then s.evlog t 0x07 (evClass cls) unit else s
  if code = 7 then s.freeCred t c else s

/-- Credited writes of 64 B that fill a credit and close it (R231), or the refusal of one. -/
def State.credFill (s : State) (t c cls unit off : Nat) : List (List Byte) → State × Nat
  | [] => (s, 0)
  | d :: r =>
    match s.credWriteCode t c cls unit off d.length with
    | 0 => (s.credWrite t c off d r.isEmpty).credFill t c cls unit (off + d.length) r
    | k => (s.credRefused t c cls unit k, k)

/-- The reports on the blocks of a chunk (R327): the first uncorrectable one's address. -/
def State.pushCheck (s : State) : List Nat → List Ecc → State × Option Nat
  | [], _ => (s, none)
  | a :: r, es =>
    match s.gcheck a 2 (es.headD .ok) with
    | (s, true) => (s, some a)
    | (s, false) => s.pushCheck r es.tail

/-- A push is complete: DONEOBJ, where it is enabled (R326). -/
def State.pushDone (s : State) (q : Nat) (x : Push) : State :=
  let s := s.upQuay q fun y => { y with pushes := dropFirst (fun z => z == x) y.pushes }
  if x.post.doneEn then s.toHub ⟨2, q, 1, x.post.doneObj, 1, s.tilePartN x.post.tile, false, x.post.addr, false⟩ else s

/-- PUSH_CHUNK_DONE (R326, R327): the first push with a credit granted writes it whole and goes on. es: the reports on
the chunk's blocks, then on the next segment's header. -/
def State.pushChunk (s : State) (q : Nat) (es : List Ecc) : State :=
  match (s.quay q).pushes.find? fun x => x.recNo.isSome with
  | none => s
  | some x =>
    let t := x.post.tile
    let c := x.recNo.getD 0
    let as := (List.range (x.size / 64)).map x.addrOf
    match as.find? fun a => (s.gbad a 64).isSome with
    | some a => s.pushFail q x ⟨0x09, 0, a⟩
    | none =>
      if as.any fun a => !s.servesRead a 64 2 q then s else
      let p := s.tilePartN t
      let (s, go) := s.bucketAdmit p false (as.map fun a => s.policedBytes a 64 p).sum
      if !go then s
      else
      match s.pushCheck as es with
      | (s, some a) => s.pushFail q x ⟨0x0D, 0, a⟩
      | (s, none) =>
        let s := as.foldl (fun s a => (s.gcountRead a 64 fun k => k != q).chargeRead a 64 p fun k => k != q) s
        let (s, code) := s.credFill t c 2 q 0 (as.map fun a => s.gbytes a 64)
        if code ≠ 0 then s.pushFail q x (opCase 0x0110 code)
        else
          let s := s.inc F.Q_PUSH_BYTES_BYTES x.size q
          let y := { x with pos := x.pos + x.size, segs := x.segs + 1, next := x.next + x.size, recNo := none }
          let s := s.upQuay q fun z => { z with pushes := mapFirst (fun v => v == x) (fun _ => y) z.pushes }
          let spent := if x.post.seg then decide (x.post.rows ≤ y.segs) else decide (x.post.rows * x.post.rowBytes ≤ y.pos)
          if spent then s.pushDone q y else s.pushAsk q y (es.getD as.length .ok)

/-! ## Gradients -/

/-- QUAY_GRADIENT_ADD (R330, R331, R333): the earliest inbound gradient flit is added into its block, lane by lane, after
the writes accepted before it. -/
def State.gradAdd (s : State) (q : Nat) (e : Ecc) : State :=
  match (s.quay q).grads with
  | [] => s
  | r :: l =>
    if !s.serves q 2 then s else
    let s := (s.upQuay q fun x => { x with grads := l, retries := 0 }).flushBefore q r
    let d := leVal (r.data.getD [])
    let (s, bad) := s.gcheck r.addr 5 e
    let old := match s.gmap r.addr with
      | some (k, o) => s.ldn (gkey k o) 64
      | none => 0
    let s := s.inc F.Q_RD_BYTES_BYTES 64 q
    if bad then s.halt r.unit 0x0D 7 (s.rd F.T_PC_ADDR r.unit) 0 r.addr
    else match lanes (fun i => fadd (lane old 32 i) (lane d 32 i)) 16 0 with
      | .error (c, _) => s.halt r.unit 0x02 7 (s.rd F.T_PC_ADDR r.unit) c r.addr
      | .ok xs =>
        let s := (s.gset r.addr (leBytes (joinLanes 32 xs) 64)).upQuay q fun x =>
          { x with wback := x.wback.filter fun b => b != r.addr / 64 * 64 }
        (s.inc F.Q_WR_BYTES_BYTES 64 q).inc F.Q_ADD_FLITS_FLITS 1 q

/-! ## Commands -/

/-- QUAY_DESCRIPTOR_ACCEPT (R319). -/
def execQuayDescriptorAccept (q : QuayId) (s : State) : Host.Outcome State Fault Refusal :=
  .next (if s.quayFenced q.val then s else s.timedAccept q.val)

/-- QUAY_BARRIER_ARRIVE (R320). -/
def execQuayBarrierArrive (q : QuayId) (part : PartId) (c : BitVec 8) (s : State) : Host.Outcome State Fault Refusal :=
  .next (s.quayArrive q.val part.val c.toNat)

/-- QUAY_FETCH_START (R321). -/
def execQuayFetchStart (q : QuayId) (tpl : BitVec 8) (s : State) : Host.Outcome State Fault Refusal :=
  .next (s.fetchStart q.val tpl.toNat)

/-- GDDR7_ACCESS_COMPLETE (R328). -/
def execGddr7AccessComplete (q : QuayId) (ecc : Ecc) (s : State) : Host.Outcome State Fault Refusal :=
  .next (s.accessComplete q.val ecc)

/-- REFRESH_INTERVAL_DUE (R324). -/
def execRefreshIntervalDue (q : QuayId) (s : State) : Host.Outcome State Fault Refusal := .next (s.refreshDue q.val)

/-- REFRESH_WINDOW_OPEN (R325). -/
def execRefreshWindowOpen (q : QuayId) (s : State) : Host.Outcome State Fault Refusal := .next (s.refreshWindow q.val)

/-- QUAY_PUSH_START (R326). -/
def execQuayPushStart (q : QuayRead) (s : State) : Host.Outcome State Fault Refusal :=
  .next (s.pushStart q.quay.val q.ecc)

/-- PUSH_CHUNK_DONE (R326). -/
def execPushChunkDone (q : QuayId) (eccs : List Ecc) (s : State) : Host.Outcome State Fault Refusal :=
  .next (s.pushChunk q.val eccs)

/-- QUAY_GRADIENT_ADD (R331). -/
def execQuayGradientAdd (q : QuayId) (ecc : Ecc) (s : State) : Host.Outcome State Fault Refusal :=
  .next (s.gradAdd q.val ecc)

/-- RING_REQUEST_ARRIVE (R314, R315, R329): a request whose address lies on the quay joins its scheduler: a write once
there is space for it, a read behind its source's writes that the quay has not accepted. Any other gets the error
response of R71 and changes nothing. -/
def State.ringArrive (s : State) (q : Nat) (r : QReq) : State :=
  let x := s.quay q
  if r.data.isSome then
    if x.resWait.isEmpty && decide (x.blocks < 2048) then s.upQuay q fun x => { x with reserved := x.reserved ++ [r] }
    else s.upQuay q fun x => { x with resWait := x.resWait ++ [r] }
  else if x.resWait.any fun w => w.cls == r.cls && w.unit == r.unit then s.upQuay q fun x => { x with resWait := x.resWait ++ [r] }
  else if x.sending r.cls r.unit then s.upQuay q fun x => { x with reserved := x.reserved ++ [r] }
  else s.qaccept q r

/-- RING_REQUEST_ARRIVE (R314, R315). -/
def execRingRequestArrive (q : QuayId) (req : RingReq) (s : State) : Host.Outcome State Fault Refusal :=
  let a := req.addr.toNat
  .next (match s.gmap a with
    | some (k, _) =>
      if k ≠ q.val ∨ s.quayFenced q.val then s
      else s.ringArrive q.val ⟨a, if req.write then some (req.data.take (64 - a % 64)) else none, req.kind.toNat, req.src.toNat, false, 0, 0⟩
    | none => s)

end Sys2Proof.Machine
end

