-- ==== Sys2Proof/Machine/Manifest.lean ====
section
/-! DEFINITION. The manifest engine (R279–R304): descriptors and their checks, neighbourhood sampling, slotting and
carry-over, completion. -/

namespace Sys2Proof.Machine

/-! ## Descriptors -/

/-- A field of a started descriptor. -/
def MfDesc.at (d : MfDesc) (o n : Nat) : Nat := leAt d.body o n
/-- DONE_EN. -/
def MfDesc.doneEn (d : MfDesc) : Bool := if d.kind = 0 then (d.at 4 1).testBit 5 else (d.at 1 1).testBit 1
/-- DONEOBJ. -/
def MfDesc.doneObj (d : MfDesc) : Nat := (if d.kind = 0 then d.at 6 2 else d.at 2 2) % 8192
/-- The manifest of a manifest-lane descriptor. -/
def MfDesc.mnum (d : MfDesc) : Nat := d.at 0 1 % 32
/-- The slip that holds seeds, indices or gradient rows. -/
def MfDesc.inSlip (d : MfDesc) : Nat := (if d.kind = 0 then d.at 0x24 1 else d.at 8 1) % 32
/-- The output slip; MFREV has none. -/
def MfDesc.outSlip (d : MfDesc) : Option Nat :=
  match d.kind with
  | 0 => some (d.at 0x25 1 % 32)
  | 1 => some (d.at 9 1 % 32)
  | _ => none
/-- SUBROWS. -/
def MfDesc.sub (d : MfDesc) : Nat := d.at 0x0A 2
/-- KEEP. -/
def MfDesc.keep (d : MfDesc) : Nat := d.at 0x0C 4
/-- Seeds, indices or record entries. -/
def MfDesc.count (d : MfDesc) : Nat := if d.kind = 0 then d.at 0x20 4 else d.at 4 4
/-- Bytes of one input entry: 4 or 8 (R285, R294). -/
def MfDesc.entry (d : MfDesc) : Nat :=
  if d.kind = 0 then (if (d.at 4 1).testBit 4 then 8 else 4) else (if (d.at 1 1).testBit 0 then 8 else 4)
/-- FANOUT. -/
def MfDesc.fan (d : MfDesc) : Nat := d.at 5 1
/-- Requests of a manifest descriptor. -/
def MfDesc.requests (d : MfDesc) : Nat := if d.kind = 1 then d.count * d.sub else d.count

/-- Row bytes of a manifest. -/
def State.mfRow (s : State) (t m : Nat) : Nat := s.rd F.MF_MT_GEOM_ROWBYTES t m
/-- Gradient row bytes. -/
def State.mfGrad (s : State) (t m : Nat) : Nat := s.rd F.MF_MT_GEOM_RBYTES t m
/-- Slots per pair. -/
def State.mfSlots (s : State) (t m : Nat) : Nat := s.rd F.MF_MT_GEOM_SLOTS t m
/-- Destinations. -/
def State.mfDsts (s : State) (t m : Nat) : Nat := s.rd F.MF_MT_GEOM_NDST t m
/-- Whether a manifest is of QUAY kind. -/
def State.mfIsQuay (s : State) (t m : Nat) : Bool := s.rd F.MF_MT_CTL_KIND t m == 1
/-- SB of a manifest (R292). -/
def State.mfSB (s : State) (t m : Nat) : Nat := (s.mfSlots t m * 4 + 63) / 64 * 64
/-- The crossing of a manifest descriptor. -/
def State.mfCross (s : State) (t : Nat) (d : MfDesc) : Nat :=
  if d.kind = 2 then s.rd F.MF_MT_CTL_RX t d.mnum else s.rd F.MF_MT_CTL_FX t d.mnum

/-- Bytes of a descriptor's input. -/
def State.mfInLen (s : State) (t : Nat) (d : MfDesc) : Nat :=
  if d.kind = 2 then d.count * s.mfGrad t d.mnum else d.count * d.entry
/-- Bytes of a descriptor's output, or their bound. -/
def State.mfOutLen (s : State) (t : Nat) (d : MfDesc) : Nat :=
  match d.kind with
  | 0 => d.count * d.fan * 8
  | 1 => d.requests * s.mfRow t d.mnum
  | _ => 0
/-- Bytes of a descriptor's record area. -/
def MfDesc.recLen (d : MfDesc) : Nat := if d.kind = 0 then 0 else 4 * d.requests

/-- A reserved value of a descriptor (R281, R285, R294, R302). -/
def State.mfReserved (s : State) (t : Nat) (d : MfDesc) : Bool :=
  let q := s.mfIsQuay t d.mnum
  match d.kind with
  | 0 => d.at 0 4 == 0 || d.at 4 1 % 4 == 3 || d.at 4 1 ≥ 64 || d.fan == 0 || d.fan > 64 || d.at 6 2 ≥ 8192
      || d.at 0x0E 2 != 0 || d.at 0x16 2 != 0 || d.at 0x1D 3 != 0 || d.count == 0 || d.count > 65536
      || d.at 0x24 1 ≥ 32 || d.at 0x25 1 ≥ 32 || d.at 0x26 18 != 0
  | 1 => d.at 0 1 ≥ 32 || d.at 1 1 ≥ 4 || d.at 2 2 ≥ 8192 || d.count > 65535 || d.at 8 1 ≥ 32 || d.at 9 1 ≥ 32
      || (if q then d.sub == 0 || d.sub > 64 else d.sub != 1) || d.keep % 4 != 0 || d.keep ≥ 2 ^ 19
      || d.at 0x16 2 != 0 || d.at 0x1D 3 != 0 || d.at 0x25 3 != 0 || d.at 0x28 16 != 0 || (!q && d.at 0x10 24 != 0)
  | _ => d.at 0 1 ≥ 32 || (d.at 1 1 != 0 && d.at 1 1 != 2) || d.at 2 2 ≥ 8192 || d.count > 4194240 || d.at 8 1 ≥ 32
      || d.at 9 3 != 0 || d.keep % 4 != 0 || d.keep ≥ 2 ^ 19 || d.at 0x16 2 != 0 || d.at 0x1D 3 != 0
      || d.at 0x20 24 != 0 || (!q && d.at 0x10 16 != 0)

/-- The case of a descriptor at its start (R281), in the order of its table. -/
def State.mfCase (s : State) (t : Nat) (d : MfDesc) : Option Case :=
  let slips := d.inSlip :: d.outSlip.toList
  if s.mfReserved t d then some (opCase 0x010C)
  else if slips.any fun i => s.slipSize t i == 0 then some (opCase 0x0103)
  else if (d.outSlip.toList.any fun i => s.slipClass t i != 3) || (slips.any fun i => s.rd F.SLIP_ATTR_EXEC t i == 1)
      || (decide (0 < d.recLen) && s.inExec t d.keep d.recLen) then some (opCase 0x010D)
  else if s.mfInLen t d > s.slipSize t d.inSlip || (d.outSlip.toList.any fun i => decide (s.slipSize t i < s.mfOutLen t d)) then
    some (opCase 0x010E)
  else if d.keep + d.recLen > 0x6_0000 && d.kind != 0 then some (opCase 0x0101)
  else if d.kind ≠ 0 ∧ (s.rd F.MF_MT_CTL_VALID t d.mnum = 0 ∨ s.rd F.MF_MT_CTL_REQ t d.mnum = 0) then some (opCase 0x010F)
  else none

/-- An engine case (R282): the tile halts with SLOT 3, and its lane halts. A manifest descriptor that names a manifest of
the tile's stays, so that the engine takes part in the runs of its use with every slot empty, the first among them:
DEDUCED (log 157). -/
def State.mfHalt (s : State) (t : Nat) (d : MfDesc) (c : Case) : State :=
  let keep := s.rd F.MF_MT_CTL_VALID t d.mnum == 1 && s.rd F.MF_MT_CTL_REQ t d.mnum == 1
  (s.upTile t fun x => (if d.kind = 0 then x else { x with manRun := if keep then some d else none }).laneHalt (d.kind == 0)).halt
    t c.reason 3 d.addr c.detail c.aux

/-- INDEX_RANGE with the failing check (R282). -/
def idxCase (check v : Nat) : Case := ⟨0x09, 0, v % 2 ^ 32 + 2 ^ 32 * check⟩

/-! ## Seeds -/

/-- The null id. -/
def nullId : Nat := 0xFFFF_FFFF

/-- Entry i of a descriptor's input: its low 4 bytes, relative to the slip's tail (R283). -/
def State.mfInput (s : State) (t : Nat) (d : MfDesc) (i : Nat) : Nat :=
  leVal (s.slipBytes t d.inSlip ((s.slipTail t d.inSlip + i * d.entry) % 2 ^ 32) 4)

/-- Whether the input slip holds all of a descriptor's input, and FREE covers its output (R283). -/
def State.mfReady (s : State) (t : Nat) (d : MfDesc) : Bool :=
  decide (s.mfInLen t d ≤ s.slipHeld t d.inSlip) &&
    d.outSlip.toList.all fun i => decide ((s.mfOutLen t d : Int) ≤ s.slipFree t i)

/-- The first seed that is not null and not below NNODES (R289). -/
def State.badSeed (s : State) (t : Nat) (d : MfDesc) : Option Nat :=
  ((List.range d.count).map (s.mfInput t d)).find? fun v => v != nullId && decide (d.at 0 4 ≤ v)

/-- LOC. -/
def MfDesc.far (d : MfDesc) : Bool := (d.at 4 1).testBit 3

/-- Read a word of the adjacency: scratchpad with LOC 0, GDDR7 with LOC 1; none where R71 excludes it. -/
def State.mfAdj (s : State) (t : Nat) (d : MfDesc) (a n : Nat) : Option Nat :=
  if d.far then (if (s.gbad a n).isSome then none else some (s.gldn a n))
  else if a + n > 0x6_0000 then none else some (s.ldn (spad t a) n)

/-- The offsets of a node: lo and degree, or the value that fails check 1 (R284, R289). -/
def State.mfOffs (s : State) (t : Nat) (d : MfDesc) (v : Nat) : Except Nat (Nat × Nat) :=
  let a := d.at 8 6 + 8 * v
  match s.mfAdj t d a 8, s.mfAdj t d (a + 8) 8 with
  | some lo, some hi =>
    if lo ≥ 2 ^ 40 then .error lo
    else if hi ≥ 2 ^ 40 ∨ hi < lo ∨ hi > d.at 0x18 5 ∨ hi - lo ≥ 2 ^ 32 then .error hi
    else .ok (lo, hi - lo)
  | none, _ => .error a
  | _, none => .error (a + 8)

/-- Insert into an ascending list. -/
def insAsc (x : Nat) : List Nat → List Nat
  | [] => [x]
  | y :: r => if x ≤ y then x :: y :: r else y :: insAsc x r

/-- Positions that WITHOUT chooses (R286): n more draws from position j on. -/
def choose (draw : Nat → Nat) (base : Nat) : Nat → Nat → List Nat → List Nat
  | 0, _, c => c
  | n + 1, i, c =>
    let j := base + i
    let p := draw i * (j + 1) / 2 ^ 32
    choose draw base n (i + 1) (if c.contains p then insAsc j c else insAsc p c)

/-- The positions taken of a neighbour list of degree d (R286), and how many draws they took. -/
def samplePos (mode k d : Nat) (draw : Nat → Nat) : List Nat × Nat :=
  match mode with
  | 0 => (List.range (min k d), 0)
  | 1 => if d = 0 then ([], 0) else ((List.range k).map fun i => draw i * d / 2 ^ 32, k)
  | _ => if d ≤ k then (List.range d, 0) else (choose draw (d - k) k 0 [], k)

/-- The draws of the present seed: 32 bits each (R287). -/
def MfDesc.drawn (d : MfDesc) (i : Nat) : Nat := bits (Config.rng d.draw).toNat (32 * i) 32

/-- The present seed of a sampling descriptor. -/
def State.mfSeed (s : State) (t : Nat) (d : MfDesc) : Nat := s.mfInput t d d.seed

/-- What the present seed takes: lo and positions with their draws, or the failing offset. -/
def State.mfTake (s : State) (t : Nat) (d : MfDesc) : Except Nat (Nat × List Nat × Nat) :=
  if s.mfSeed t d = nullId then .ok (0, [], 0)
  else match s.mfOffs t d (s.mfSeed t d) with
    | .error v => .error v
    | .ok (lo, dg) =>
      let e := samplePos (d.at 4 1 % 4) d.fan dg d.drawn
      .ok (lo, e.1, e.2)

/-- Drop repeats that follow one another. -/
def dedupAdj : List Nat → List Nat
  | a :: b :: r => if a = b then dedupAdj (b :: r) else a :: dedupAdj (b :: r)
  | l => l

/-- The 64-byte GDDR7 blocks read for the present seed (R290): offsets, then sampling reads. -/
def State.mfReads (s : State) (t : Nat) (d : MfDesc) : List Nat × List Nat :=
  if !d.far || s.mfSeed t d == nullId then ([], [])
  else
    let a := d.at 8 6 + 8 * s.mfSeed t d
    let offs := dedupAdj [a / 64 * 64, (a + 15) / 64 * 64]
    match s.mfTake t d with
    | .error _ => (offs, [])
    | .ok (lo, ps, _) =>
      let bs := ps.map fun p => (d.at 0x10 6 + 4 * (lo + p)) / 64 * 64
      (offs, if d.at 4 1 % 4 = 0 then dedupAdj bs else bs)

/-- The neighbour ids taken, or the value that fails check 2 (R289). -/
def State.mfIds (s : State) (t : Nat) (d : MfDesc) (lo : Nat) : List Nat → Except Nat (List Nat)
  | [] => .ok []
  | p :: r =>
    match s.mfAdj t d (d.at 0x10 6 + 4 * (lo + p)) 4 with
    | none => .error (d.at 0x10 6 + 4 * (lo + p))
    | some v =>
      if v ≥ d.at 0 4 then .error v
      else match s.mfIds t d lo r with
        | .error e => .error e
        | .ok vs => .ok (v :: vs)

/-- The scratchpad that the present seed's work reads (R283, R289, R290): at the first seed every seed, then the seed's
own entry; with LOC 0 its two offsets and the neighbours taken. -/
def State.mfSpans (s : State) (t : Nat) (d : MfDesc) : List (Nat × Nat) :=
  let c := s.slipTail t d.inSlip
  let seeds := if d.seed = 0 then s.slipSpan t d.inSlip c (d.count * d.entry)
    else s.slipSpan t d.inSlip ((c + d.seed * d.entry) % 2 ^ 32) d.entry
  if d.far || s.mfSeed t d == nullId then seeds
  else seeds ++ [(d.at 8 6 + 8 * s.mfSeed t d, 16)] ++ match s.mfTake t d with
    | .error _ => []
    | .ok (lo, ps, _) => ps.map fun p => (d.at 0x10 6 + 4 * (lo + p), 4)

/-- MF_SEED_COMPLETE (R286–R289): the present seed's records are written and HEAD advances over them; an uncorrectable
word among what it reads halts the tile (R243). -/
def State.seedComplete (s : State) (t : Nat) (ecc : Ecc) : State :=
  match (s.tile t).sampRun with
  | none => s
  | some d =>
    if d.seed ≥ d.count || (d.seed == 0 && !s.mfReady t d) then s
    else
      let rs := s.mfReads t d
      if d.reads < rs.1.length + rs.2.length then s
      else
      let (s, bad) := s.readCheck t (s.mfSpans t d) 3 ecc
      if bad.isSome then s.mfHalt t d ⟨0x06, 0, bad.getD 0⟩
      else if d.seed = 0 ∧ (s.badSeed t d).isSome then s.mfHalt t d (idxCase 0 ((s.badSeed t d).getD 0))
      else match s.mfTake t d with
        | .error v => s.mfHalt t d (idxCase 1 v)
        | .ok (lo, ps, n) =>
          let s := s.inc F.T_RNG_DRAWN_MF_BITS (32 * n) t
          match s.mfIds t d lo ps with
          | .error v => s.mfHalt t d (idxCase 2 v)
          | .ok ids =>
            let pads := if (d.at 4 1).testBit 2 then d.fan - ids.length else 0
            let recs := (ids ++ List.replicate pads nullId).map fun v => leBytes v 4 ++ leBytes d.seed 4
            let o := d.outSlip.getD 0
            let s := s.putSlip t o (s.slipHead t o) recs.flatten
            let s := s.headAdd t o (8 * recs.length)
            let s := (s.inc F.MF_SAMP_RECORDS_RECORDS recs.length t).inc F.MF_SAMP_PADS_RECORDS pads t
            let f := s.free
            s.drawn.upTile t fun x => { x with sampRun := some { d with seed := d.seed + 1, reads := 0, draw := f } }

/-- MF_SAMPLING_READ_RETURN (R290, R333): the next GDDR7 read of the present seed returns. -/
def State.sampReturn (s : State) (t : Nat) (e : Ecc) : State :=
  match (s.tile t).sampRun with
  | none => s
  | some d =>
    if d.seed ≥ d.count || (d.seed == 0 && !s.mfReady t d) then s
    else
      let rs := s.mfReads t d
      match (rs.1 ++ rs.2)[d.reads]? with
      | none => s
      | some a =>
        if !s.servesRead a 64 3 t then s else
        let p := s.tilePartN t
        let (s, go) := s.bucketAdmit p false (s.policedBytes a 64 p)
        if !go then s
        else
        let s := if d.reads < rs.1.length then s else s.inc F.MF_SAMP_READS_READS 1 t
        let (s, bad) := s.gcheck a 3 e
        let s := (s.gcountRead a 64 fun q => q != homeQuay t).chargeRead a 64 p fun q => q != homeQuay t
        if bad then s.mfHalt t d ⟨0x0D, 0, a⟩
        else s.upTile t fun x => { x with sampRun := some { d with reads := d.reads + 1 } }

/-! ## Starting -/

/-- MF_DESCRIPTOR_START (R279, R281): a free lane starts its next descriptor, unless the other lane's unfinished one
has the same output slip. -/
def State.mfStart (s : State) (t : Nat) (sampler : Bool) (ecc : Ecc) : State :=
  let x := s.tile t
  let (q, run, other) := if sampler then (x.sampQ, x.sampRun, x.manRun) else (x.manQ, x.manRun, x.sampRun)
  match q, run with
  | d :: r, none =>
    let d := { d with body := s.bytes (spad t d.off) 64 }
    let clash := other.any fun o => !o.dead && o.outSlip.isSome && o.outSlip == d.outSlip
    if x.manHalt || clash || s.tstate t == 4 then s
    else
      let s := s.upTile t fun x => if sampler then { x with sampQ := r } else { x with manQ := r }
      let (s, bad) := s.readCheck t [(d.off, 64)] 3 ecc
      match (bad.map fun w => ⟨0x06, 0, w⟩).or (s.mfCase t d) with
      | some c => s.mfHalt t d c
      | none =>
        let d := { d with outBase := d.outSlip.elim 0 (s.slipHead t), draw := s.free }
        let s := if sampler then s.drawn.upTile t fun x => { x with sampRun := some d }
                 else s.upTile t fun x => { x with manRun := some d }
        if sampler && decide (s.mfInLen t d ≤ s.slipHeld t d.inSlip) then
          match s.badSeed t d with
          | some v => s.mfHalt t d (idxCase 0 v)
          | none => s
        else s
  | _, _ => s

/-! ## Slotting -/

/-- The row address of request u of an index, QUAY kind (R293). -/
def MfDesc.rowAddr (d : MfDesc) (i u : Nat) : Nat :=
  if d.kind = 2 then d.at 0x10 6 + i * d.at 0x18 5 else d.at 0x10 6 + i * d.at 0x18 5 + u * d.at 0x20 5

/-- The destination of a request: TILE kind by its index, QUAY kind by its row's quay. -/
def State.mfDest (s : State) (t : Nat) (d : MfDesc) (ord i : Nat) : Nat :=
  if s.mfIsQuay t d.mnum then
    match s.gmap (d.rowAddr i (ord % max 1 d.sub)) with
    | some (q, _) => (s.mfQuays t d.mnum).idxOf q
    | none => 0
  else i / max 1 (s.rd F.MF_MT_BOUND_PER t d.mnum)

/-- The check that a request fails (R293), with the offending value. -/
def State.mfReqCase (s : State) (t : Nat) (d : MfDesc) (ord i : Nat) : Option Case :=
  if i = nullId then none
  else if s.mfIsQuay t d.mnum then
    let a := d.rowAddr i (ord % max 1 d.sub)
    match s.gmap a with
    | none => some (idxCase 3 a)
    | some (q, _) =>
      if a % 4096 + s.mfRow t d.mnum > 4096 ∨ ¬ (s.mfQuays t d.mnum).contains q then some (idxCase 3 a) else none
  else if i ≥ s.mfDsts t d.mnum * s.rd F.MF_MT_BOUND_PER t d.mnum then some (idxCase 0 i) else none

/-- The requests of a manifest post in ordinal order: ordinal and index. -/
def State.mfRequests (s : State) (t : Nat) (d : MfDesc) : List (Nat × Nat) :=
  (List.range d.requests).map fun o => (o, s.mfInput t d (o / max 1 d.sub))

/-- Entry of a manifest record. -/
def State.mfRec (s : State) (t : Nat) (d : MfDesc) (o : Nat) : Nat := s.ldn (spad t (d.keep + 4 * o)) 4

/-- Slot pending requests in order (R295): the lowest free slot of each destination; those that find none are
carried. -/
def State.mfAssign (s : State) (t : Nat) (d : MfDesc) (run cap : Nat) :
    List (Nat × Nat) → List (Nat × Nat × Nat × Nat) → List (Nat × Nat) → List (Nat × Nat × Nat × Nat) × List (Nat × Nat)
  | [], a, c => (a, c)
  | (o, i) :: r, a, c =>
    let k := s.mfDest t d o i
    let n := (a.filter fun e => e.2.1 == k).length
    if n < cap then s.mfAssign t d run cap r (a ++ [(o, k, n, run)]) c
    else s.mfAssign t d run cap r a (c ++ [(o, i)])

/-- A null request is slotted (R293, R301): a row of zeros, a null record entry, complete at once. -/
def State.mfNull (s : State) (t : Nat) (d : MfDesc) (o : Nat) : State :=
  let n := s.mfRow t d.mnum
  let s := s.putSlip t (d.outSlip.getD 0) ((d.outBase + o * n) % 2 ^ 32) (List.replicate n 0)
  (s.stn (spad t (d.keep + 4 * o)) 4 nullId).inc F.MF_REQS_REQUESTS 1 t

/-- HEAD of the output slip advances over the completed prefix of rows (R299). -/
def State.mfHead (s : State) (t : Nat) (d : MfDesc) : State :=
  let n := s.mfRow t d.mnum
  let k := ((List.range (d.requests + 1)).find? fun j => !d.done.contains j).getD d.requests
  s.wr F.SLIP_HEAD_COUNT (d.outBase + k * n) t (d.outSlip.getD 0)

/-- The index that a slotted request sends: its own, or with MFREV the one its MFPOST had. -/
def State.mfIndex (s : State) (t : Nat) (d : MfDesc) (o : Nat) : Nat :=
  if d.kind = 1 then s.mfInput t d (o / max 1 d.sub)
  else match find2 (s.tile t).mfIdx d.mnum with
    | some l => l.getD o nullId
    | none => nullId

/-- The staging area or the quays' lists of a run (R295). -/
def State.mfStage (s : State) (t : Nat) (d : MfDesc) (sl : List (Nat × Nat × Nat × Nat)) : State :=
  let m := d.mnum
  if s.mfIsQuay t m then
    let c := s.mfCross t d
    ((List.range (s.mfDsts t m)).zip (s.mfQuays t m)).foldl (fun s e =>
      let l := (sl.filter fun x => x.2.1 == e.1).map fun x => (x.2.2.1, d.rowAddr (s.mfIndex t d x.1) (x.1 % max 1 d.sub))
      s.upQuay e.2 fun q => { q with lists := (q.lists.filter fun y => y.1 != t * 256 + c) ++ [(t * 256 + c, l)] }) s
  else
    let base := 64 * s.rd F.MF_MT_AREA_STAGE t m
    let sb := s.mfSB t m
    let s := s.setBytes (spad t base) (List.replicate (s.mfDsts t m * sb) 0xFF)
    sl.foldl (fun s x => s.stn (spad t (base + x.2.1 * sb + 4 * x.2.2.1)) 4 (s.mfIndex t d x.1)) s

/-- The greatest RUN of a record. -/
def State.mfMaxRun (s : State) (t : Nat) (d : MfDesc) : Nat :=
  (List.range d.count).foldl (fun a o => let e := s.mfRec t d o; if e = nullId then a else max a (e / 2 ^ 24)) 0

/-- The first record entry that fails check 4 (R303). -/
def State.mfBadRec (s : State) (t : Nat) (d : MfDesc) : Option Nat :=
  ((List.range d.count).map (s.mfRec t d)).find? fun e => e != nullId &&
    (decide (s.mfDsts t d.mnum ≤ e % 4096) || decide (s.mfSlots t d.mnum ≤ e / 4096 % 4096) || e / 2 ^ 24 == 0)

/-- The case found before run 1 (R295, R303). -/
def State.mfFirst (s : State) (t : Nat) (d : MfDesc) : Option Case :=
  if d.kind = 1 then (s.mfRequests t d).findSome? fun e => s.mfReqCase t d e.1 e.2
  else (s.mfBadRec t d).map (idxCase 4)

/-- Slot one run of a live descriptor (R295, R303). -/
def State.mfSlot (s : State) (t : Nat) (d : MfDesc) : State :=
  let run := d.run + 1
  if d.kind = 1 then
    let all := if d.run = 0 then s.mfRequests t d else d.pend
    let nulls := (all.filter fun e => e.2 == nullId).map (·.1)
    let (sl, carry) := s.mfAssign t d run (s.mfSlots t d.mnum) (all.filter fun e => e.2 != nullId) [] []
    let s := if d.run = 0 then s.upTile t fun x =>
        { x with mfIdx := (x.mfIdx.filter fun e => e.1 != d.mnum) ++ [(d.mnum, all.map (·.2))] } else s
    let s := nulls.foldl (fun s o => s.mfNull t d o) s
    let s := sl.foldl (fun s x => s.stn (spad t (d.keep + 4 * x.1)) 4 (x.2.1 + 2 ^ 12 * x.2.2.1 + 2 ^ 24 * run)) s
    let d' := { d with run := run, pend := carry, slots := sl, done := d.done ++ nulls }
    let s := (s.mfStage t d' sl).mfHead t d'
    let s := (s.wr F.MF_CARRY_COUNT carry.length t).wr F.MF_CARRY_RUN run t
    s.upTile t fun x => { x with manRun := some d' }
  else
    let sl := ((List.range d.count).map fun o => (o, s.mfRec t d o)).filterMap fun e =>
      if e.2 ≠ nullId ∧ e.2 / 2 ^ 24 = run then some (e.1, e.2 % 4096, e.2 / 4096 % 4096, run) else none
    let d' := { d with run := run, slots := sl }
    let s := (s.mfStage t d' sl).wr F.MF_CARRY_RUN run t
    s.upTile t fun x => { x with manRun := some d' }

/-- An empty run: every slot of the tile's staging area is empty, and its lists at the quays are; nothing is carried. -/
def State.mfEmptyRun (s : State) (t m c run : Nat) : State :=
  let s := (s.wr F.MF_CARRY_COUNT 0 t).wr F.MF_CARRY_RUN run t
  if s.mfIsQuay t m then
    (s.mfQuays t m).foldl (fun s q => s.upQuay q fun x =>
      { x with lists := (x.lists.filter fun y => y.1 != t * 256 + c) ++ [(t * 256 + c, [])] }) s
  else s.setBytes (spad t (64 * s.rd F.MF_MT_AREA_STAGE t m)) (List.replicate (s.mfDsts t m * s.mfSB t m) 0xFF)

/-- A manifest engine arrives at the barrier of its crossing (R295, R269). -/
def State.mfArrive (s : State) (t c : Nat) : State :=
  match s.barOf (s.rd F.XT_RCFG_PART t) c with
  | none => s
  | some b => s.gridStart.arrive b 3

/-- The use that awaits this tile's engine at its next run (R297). -/
def State.mfDue (s : State) (t : Nat) : Option CarryUse :=
  s.hub.uses.find? fun u => decide (1 < u.run) && decide (0 < u.expect) && u.engines.contains t && !u.arrived.contains t

/-- The scratchpad that slotting a run reads: before run 1 the indices or the record, in a later reverse run the record
(R295, R303). -/
def State.slotSpans (s : State) (t : Nat) (d : MfDesc) : List (Nat × Nat) :=
  if d.kind = 2 then [(d.keep, d.recLen)]
  else if d.run = 0 then s.slipSpan t d.inSlip (s.slipTail t d.inSlip) (d.count * d.entry) else []

/-- The checks and the slotting of a live descriptor's next run (R243, R295, R303): an engine that halts slots nothing. -/
def State.slotOrHalt (s : State) (t : Nat) (d : MfDesc) (ecc : Ecc) : State :=
  let (s, bad) := s.readCheck t (s.slotSpans t d) 3 ecc
  match (bad.map fun w => (⟨0x06, 0, w⟩ : Case)).or (if d.run = 0 then s.mfFirst t d else none) with
  | some k => s.mfHalt t d k
  | none => s.mfSlot t d

/-- Whether the lane's descriptor is live. -/
def TileX.manLive (x : TileX) : Bool := x.manRun.any fun d => !d.dead

/-- An engine's part in a run of a crossing after the first: its carried requests where it has any, else empty slots. -/
def State.carryPart (s : State) (t c run : Nat) (ecc : Ecc) : State :=
  let empty (s : State) : State := match s.mfEntry t c with
    | some (m, _) => s.mfEmptyRun t m c run
    | none => s
  match (s.tile t).manRun with
  | some d =>
    if s.mfCross t d = c ∧ 0 < d.run ∧ !d.dead then
      let s1 := s.slotOrHalt t d ecc
      if (s1.tile t).manLive then s1 else empty s1
    else empty s
  | none => empty s

/-- MF_RUN_SLOTTING (R295–R297): an engine slots a carry run that the hub has called, with empty slots where it
carries nothing; otherwise the first run of its descriptor once its input is there and its output has space. A halted
engine arrives at that run with every slot empty (R282). -/
def State.runSlotting (s : State) (t : Nat) (ecc : Ecc) : State :=
  match s.mfDue t with
  | some u =>
    let s := s.upHub fun h => { h with uses := mapFirst (fun v => v == u) (fun v => { v with arrived := v.arrived ++ [t] }) h.uses }
    (s.carryPart t u.num u.run ecc).mfArrive t u.num
  | none => match (s.tile t).manRun with
    | none => s
    | some d =>
      let c := s.mfCross t d
      let open_ := s.hub.uses.any fun u => u.part == s.rd F.XT_RCFG_PART t && u.num == c
      if d.run ≠ 0 || open_ || !(d.dead || s.mfReady t d) then s
      else
        let s := if d.dead then s else s.slotOrHalt t d ecc
        if (s.tile t).manLive then s.mfArrive t c
        else
          let s := s.upTile t fun x => { x with manRun := x.manRun.map fun d => { d with run := 1 } }
          (s.mfEmptyRun t d.mnum c 1).mfArrive t c

/-! ## Runs -/

/-- STATUS of a descriptor (R280). -/
def State.mfStatus (s : State) (t : Nat) (d : MfDesc) (n : Nat) (fin : Bool) : State :=
  s.stn (spad t (d.off + 0x38)) 8 (n % 2 ^ 32 + 2 ^ 32 * (d.pend.length % 2 ^ 24) + 2 ^ 56 * min d.run 127 + 2 ^ 63 * b2n fin)

/-- Requests or rows a manifest descriptor has completed. -/
def MfDesc.doneCount (d : MfDesc) : Nat := d.done.length

/-- MF_RUN_END (R280, R297, R298): the run's crossing is over at this engine: the carry is counted and checked, and
its report leaves for the hub. -/
def State.runEnd (s : State) (t : Nat) : State :=
  let part := s.rd F.XT_RCFG_PART t
  match s.hub.uses.find? fun u => u.part == part && u.expect == 0 && u.engines.contains t && !u.ended.contains t
      && !(s.hub.running.any fun x => x.part == u.part && x.num == u.num)
      && !(s.hub.starting.any fun x => x.part == u.part && x.num == u.num) with
  | none => s
  | some u =>
    let s := s.upHub fun h => { h with uses := mapFirst (fun v => v == u) (fun v => { v with ended := v.ended ++ [t] }) h.uses }
    let s := if 1 < u.run then s.inc F.MF_CARRY_RUNS_RUNS 1 t else s
    let report (s : State) (carry : Bool) : State := s.upHub fun h => { h with reports := h.reports ++ [(t, part, u.num, carry)] }
    match (s.tile t).manRun with
    | none => report s false
    | some d =>
      if s.mfCross t d ≠ u.num ∨ d.dead = true ∨ d.run = 0 then report s false
      else
        let d := if d.kind = 2 then { d with done := d.done ++ d.slots.map (·.1) } else d
        let s := s.upTile t fun x => { x with manRun := some d }
        let n := d.pend.length
        let s := (s.inc F.MF_CARRIED_REQUESTS n t).wr F.MF_CARRY_MAX_COUNT (max n (s.rd F.MF_CARRY_MAX_COUNT t)) t
        let s := s.mfStatus t d d.doneCount false
        if d.kind = 1 ∧ (n > s.rd F.MF_MT_BOUND_CARRY_BOUND t d.mnum ∨ (d.run = 255 ∧ 0 < n)) then
          report (s.mfHalt t d ⟨0x0E, 0, n⟩) false
        else report s (if d.kind = 1 then decide (0 < n) else decide (d.run < s.mfMaxRun t d))

/-- CARRY_REPORT (R297): an engine's report reaches the hub. -/
def State.carryReport (s : State) (t : Nat) : State :=
  match s.hub.reports.find? fun r => r.1 == t with
  | none => s
  | some r => s.upHub fun h =>
    { h with reports := dropFirst (fun x => x == r) h.reports,
             uses := mapFirst (fun u => u.part == r.2.1 && u.num == r.2.2.1)
                       (fun u => { u with reported := u.reported ++ [t], any := u.any || r.2.2.2 }) h.uses }

/-- CARRY_RUN_START (R297): with every engine's report in, the hub calls a further run where one carries, and
otherwise the use ends. -/
def State.carryRun (s : State) (part c : Nat) : State :=
  match s.hub.uses.find? fun u => u.part == part && u.num == c with
  | none => s
  | some u =>
    if u.reported.length < u.engines.length then s
    else if u.any then
      let quays := match s.barOf part c with
        | some b => s.rd F.XT_BAR_EXPECT 0 b - 2 * u.engines.length
        | none => 0
      let v : CarryUse := { u with run := u.run + 1, expect := u.engines.length + quays, arrived := [], ended := [],
                                   reported := [], any := false }
      s.upHub fun h => { h with uses := mapFirst (fun w => w == u) (fun _ => v) h.uses }
    else
      let s := u.engines.foldl (fun s t => s.upTile t fun x => match x.manRun with
        | some d => if d.dead && s.mfCross t d == c then { x with manRun := none } else x
        | none => x) s
      s.upHub fun h => { h with uses := dropFirst (fun w => w == u) h.uses }

/-- Whether a lane's descriptor is complete (R280, R288, R299, R303). -/
def State.mfDone (s : State) (t : Nat) (d : MfDesc) : Bool :=
  match d.kind with
  | 0 => decide (d.count ≤ d.seed)
  | 1 => decide (0 < d.run) && decide (d.requests ≤ d.done.length)
  | _ => decide (0 < d.run) && decide (s.mfMaxRun t d ≤ d.run) && d.slots.all fun x => d.done.contains x.1

/-- MF_DESCRIPTOR_COMPLETE (R280): STATUS is written, DONEOBJ added to where enabled, the lane is free. -/
def State.mfComplete (s : State) (t : Nat) (sampler : Bool) : State :=
  let x := s.tile t
  match (if sampler then x.sampRun else x.manRun) with
  | none => s
  | some d =>
    if d.dead || !s.mfDone t d then s
    else
      let s := s.mfStatus t d (if d.kind = 0 then d.count else d.doneCount) true
      let s := s.upTile t fun x => if sampler then { x with sampRun := none } else { x with manRun := none }
      if d.doneEn then s.toHub ⟨3, t, 1, d.doneObj, 1, s.tilePartN t, false, d.addr, d.kind == 0⟩ else s

/-- How many lanes wait for their input or for output space (R283), for MF_WAIT_TC. -/
def State.mfWaiting (s : State) (t : Nat) : Nat :=
  let x := s.tile t
  b2n (x.sampRun.any fun d => d.seed == 0 && !s.mfReady t d) + b2n (x.manRun.any fun d => d.run == 0 && !d.dead && !s.mfReady t d)

/-! ## Commands -/

/-- MF_DESCRIPTOR_START (R279). -/
def execMfDescriptorStart (t : TileId) (l : MfLane) (ecc : Ecc) (s : State) : Host.Outcome State Fault Refusal :=
  .next (s.mfStart t.val (l == .sampler) ecc)

/-- MF_SEED_COMPLETE (R288). -/
def execMfSeedComplete (t : TileRead) (s : State) : Host.Outcome State Fault Refusal :=
  .next (s.seedComplete t.tile.val t.ecc)

/-- MF_SAMPLING_READ_RETURN (R290). -/
def execMfSamplingReadReturn (t : TileId) (ecc : Ecc) (s : State) : Host.Outcome State Fault Refusal :=
  .next (s.sampReturn t.val ecc)

/-- MF_RUN_SLOTTING (R295). -/
def execMfRunSlotting (t : TileRead) (s : State) : Host.Outcome State Fault Refusal :=
  .next (s.runSlotting t.tile.val t.ecc)

/-- MF_RUN_END (R298). -/
def execMfRunEnd (t : TileId) (s : State) : Host.Outcome State Fault Refusal := .next (s.runEnd t.val)

/-- CARRY_REPORT (R297). -/
def execCarryReport (t : TileId) (s : State) : Host.Outcome State Fault Refusal := .next (s.carryReport t.val)

/-- CARRY_RUN_START (R297). -/
def execCarryRunStart (part : PartId) (c : BitVec 8) (s : State) : Host.Outcome State Fault Refusal :=
  .next (s.carryRun part.val c.toNat)

/-- MF_DESCRIPTOR_COMPLETE (R280). -/
def execMfDescriptorComplete (t : TileId) (l : MfLane) (s : State) : Host.Outcome State Fault Refusal :=
  .next (s.mfComplete t.val (l == .sampler))

end Sys2Proof.Machine
end

