-- ==== Sys2Proof/Machine/Issue.lean ====
section
/-! DEFINITION. The issue of native long words (R77–R92, R96–R102, R111–R118, R227, R262, R273, R319, R326): fetch,
the causes that suppress a word, its waits, its effects, control flow, hardware loops, end of phase. -/

namespace Sys2Proof.Machine

/-- A word about to issue (R77–R79): its address and length, its header's EOP and BRK, whether the header is a reserved
encoding, its slots as class and raw bits. -/
structure NWord where
  addr  : Nat
  len   : Nat
  eop   : Bool
  brk   : Bool
  bad   : Bool
  slots : List (Nat × Nat)
deriving DecidableEq, Repr

/-- A one-slot word at the present address, as a slot's own command issues it. -/
def State.oneSlot (s : State) (t : Nat) (sl : Slot) : NWord :=
  { addr := s.rd F.T_PC_ADDR t, len := 6, eop := false, brk := false, bad := false, slots := [(sl.op.cls, sl.enc)] }

/-- Slots a header announces, S, V, M, X in order. -/
def hdrSlots (h : Nat) : List Nat := (List.range 4).filter fun i => h.testBit i

/-- The word at T_PC, none where a byte of it lies outside every execute slip or it is misaligned (R79). -/
def State.fetchWord (s : State) (t : Nat) : Option NWord :=
  let a := s.rd F.T_PC_ADDR t
  if a % 2 = 1 ∨ s.allExec t a 2 = false then none
  else
    let h := s.ldn (spad t a) 2
    let cs := hdrSlots h
    let len := 2 + 4 * cs.length
    if s.allExec t a len = false then none
    else
      let raw := (List.range cs.length).map fun i => (cs.getD i 0, s.ldn (spad t (a + 2 + 4 * i)) 4)
      some { addr := a, len := len, eop := h.testBit 8, brk := h.testBit 9,
             bad := bits h 10 6 != 0 || (cs.isEmpty && bits h 4 4 == 0 && !h.testBit 8), slots := raw }

/-- The length of the word at an address, by its header (R77). -/
def State.wordLen (s : State) (t a : Nat) : Nat := 2 + 4 * (hdrSlots (s.ldn (spad t a) 2)).length

/-! ## What suppresses a word -/

/-- The breakpoint that halts a word before it issues (R93, R101). -/
def State.bpCause (s : State) (t addr : Nat) (brk : Bool) : Option Case :=
  if (s.tile t).skipBp then none
  else if brk && s.rd F.T_CTRL_BP_EN t == 1 then some ⟨0x10, 1, 0⟩
  else if s.rd F.T_BPADDR_EN t 0 = 1 ∧ s.rd F.T_BPADDR_ADDR t 0 = addr then some ⟨0x10, 2, 0⟩
  else if s.rd F.T_BPADDR_EN t 1 = 1 ∧ s.rd F.T_BPADDR_ADDR t 1 = addr then some ⟨0x10, 3, 0⟩
  else none

/-- Whether a word is the last of an active loop body. -/
def State.endsBody (s : State) (t addr : Nat) : Bool :=
  [0, 1].any fun l => s.rd F.T_LOOP_ACTIVE t l == 1 && s.rd F.T_LOOP_RANGE_END t l == addr

/-- The rules of branches and loops that a control slot breaks (R90). -/
def State.ctrlCase (s : State) (t addr : Nat) (sl : Slot) : Option Case :=
  match sl.op with
  | .br _ => if s.endsBody t addr then some (illegal 0x07 sl.enc) else none
  | .brr _ => if s.endsBody t addr then some (illegal 0x07 sl.enc) else none
  | .loop l _ n =>
    if s.predOn t sl && (n == 0 || s.rd F.T_LOOP_ACTIVE t l == 1 || (l == 1 && s.rd F.T_LOOP_ACTIVE t 0 == 0)) then
      some (illegal 0x08 sl.enc)
    else none
  | _ => none

/-- The cases of a wait that are met before it ends (R117, R275, R276): XWAIT's, and the hub's answer to a SOWAIT. -/
def State.waitCase (s : State) (t : Nat) (o : SlotOp) : Option Case :=
  match o with
  | .xwait a sl =>
    if s.slipSize t sl = 0 then some (opCase 0x0103)
    else if s.g t a > s.slipSize t sl then some (opCase 0x0104) else none
  | .sowait _ obj => match (s.tile t).soWait with
    | some (_, 2) => some ⟨0x0A, 0, obj⟩
    | some (_, 0) => none
    | some (_, 1) => none
    | some (_, c) => some (opCase c)
    | none => none
  | _ => none

/-- The causes by which a slot suppresses its word, its checks in order: a reserved field that the state makes so, pending
registers and write conflicts (R84), branches and loops (R90), a true slot's field and wait cases. -/
def State.slotCause (s : State) (t addr : Nat) (sl : Slot) (seen : List Dst) : List Case :=
  (s.matReserved t sl).toList ++ s.pendingCases t sl seen ++ (s.ctrlCase t addr sl).toList
    ++ (if s.predOn t sl then (s.matIssueCase t sl).toList ++ (s.waitCase t sl.op).toList else [])

/-- The causes of a word's slots, with their slot numbers; seen are the registers that earlier slots write. -/
def State.slotCauses (s : State) (t addr : Nat) : List (Nat × Nat) → List Dst → List (Nat × Case)
  | [], _ => []
  | (c, raw) :: r, seen =>
    match decodeSlot c raw with
    | .error d => (c, illegal d raw) :: s.slotCauses t addr r seen
    | .ok sl => ((s.slotCause t addr sl seen).map fun k => (c, k)) ++ s.slotCauses t addr r (seen ++ sl.writes)

/-- Every cause that suppresses a word, in the order of R97. -/
def State.wordCauses (s : State) (t : Nat) (w : NWord) : List (Nat × Case) :=
  ((s.bpCause t w.addr w.brk).map fun k => (4, k)).toList
    ++ (if w.bad then [(4, illegal 0x03 0)] else []) ++ s.slotCauses t w.addr w.slots []

/-- A word is suppressed (R96): the first cause writes the record, the others set MORE. -/
def State.suppress (s : State) (t addr : Nat) (l : List (Nat × Case)) : State :=
  l.foldl (fun s e => s.halt t e.2.reason e.1 addr e.2.detail e.2.aux) (s.upTile t fun x => { x with skipBp := false })

/-! ## Waits -/

/-- The decoded slots of a word whose predicate holds, in slot order. -/
def State.onSlots (s : State) (t : Nat) (w : NWord) : List Slot :=
  w.slots.filterMap fun e => match decodeSlot e.1 e.2 with
    | .ok sl => if s.predOn t sl then some sl else none
    | .error _ => none

/-- The idle cause of a wait on a slip, by its producer class (R92): a manifest engine's is CARRY_WAIT while it still
has carried requests to deliver. -/
def State.slipCause (s : State) (t sl : Nat) : Nat :=
  match s.slipClass t sl with
  | 2 => 4
  | 3 => match (s.tile t).manRun with
    | some d => if d.outSlip = some sl ∧ ((0 < d.run ∧ d.pend ≠ []) ∨ (1 < d.run ∧ d.done.length < d.requests)) then 5 else 2
    | none => 2
  | 4 => 3
  | 5 => 2
  | _ => 1

/-- The scratchpad range and direction of a core access that raises no address case. -/
def State.coreRange (s : State) (t : Nat) (o : SlotOp) : Option (Nat × Nat × Bool) :=
  let go (x n : Nat) (st : Bool) : Option (Nat × Nat × Bool) := if (addrCase x n).isSome then none else some (x, n, st)
  match o with
  | .mem m _ a i => go (s.memAddr t m a i) m.size (m == .st || m == .sth)
  | .vld _ a off => go (s.vecAddr t a off) 64 false
  | .vst _ a off => go (s.vecAddr t a off) 64 true
  | _ => none

/-- The 64 bytes of a descriptor that a QPOST reads, none where its address raises a case. -/
def State.qpostBody (s : State) (t a : Nat) : Option (List Byte) :=
  let x := s.g t a
  if (addrCase x 64).isSome then none else some (s.bytes (spad t x) 64)

/-- Whether a descriptor of QPOST is a PUSH (R318). -/
def isPush (b : List Byte) : Bool := (byteAt b 0) % 2 == 1

/-- The wait of a true slot (R92): none, or its idle cause, 0 for a wait that is busy time. -/
def State.slotWait (s : State) (t : Nat) (o : SlotOp) : Option Nat :=
  match o with
  | .mem .. | .vld .. | .vst .. => match s.coreRange t o with
    | some (x, n, st) => if s.matHazard t (x, n) st || s.svHazard t (x, n) then some 0 else none
    | none => none
  | .sv _ _ => if (s.tile t).sq.length ≥ 2 then some 0 else none
  | .mzero .. | .mldw .. | .mrun .. | .mblk .. | .mspill .. | .mepi .. | .mout .. | .mrda .. | .mlook .. => s.matWait t o
  | .xwait a sl => if s.g t a ≤ s.slipHeld t sl then none else some (s.slipCause t sl)
  | .sowait _ obj => match (s.tile t).soWait with
    | some (_, 1) => none
    | _ => some (s.soCause obj)
  | .mf .samp _ => if (s.tile t).sampQ.length ≥ 4 then some 7 else none
  | .mf _ _ => if (s.tile t).manQ.length ≥ 4 then some 7 else none
  | .qpost a => match s.qpostBody t a with
    | none => none
    | some b =>
      if isPush b then
        let q := s.quay (homeQuay t)
        if q.pushQ.length + q.pushes.length ≥ 64 then some 7 else none
      else if (s.tplQuay t (byteAt b 1)).isNone || (s.tile t).qpost == some true then none else some 7
  | _ => none

/-- The first unmet wait of a word in slot order; a word with EOP waits, as busy time, for the sieve (R388). -/
def State.wordWait (s : State) (t : Nat) (w : NWord) : Option Nat :=
  match (s.onSlots t w).findSome? fun sl => s.slotWait t sl.op with
  | some c => some c
  | none => if w.eop && ((s.tile t).srun.isSome || !(s.tile t).sq.isEmpty) then some 0 else none

/-- What leaves the tile when a word reaches issue (R273, R319): a SOWAIT's operation at once, a timed post once
nothing else of the word waits. -/
def State.reach (s : State) (t : Nat) (w : NWord) : State :=
  (s.onSlots t w).foldl (fun s sl => match sl.op with
    | .sowait _ obj => match (s.tile t).soWait with
      | none => (s.upTile t fun x => { x with soWait := some (obj, 0) }).toHub ⟨0, t, 3, obj, 0, s.tilePartN t, false, w.addr, false⟩
      | some _ => s
    | .qpost a =>
      let others := (s.onSlots t w).filter fun x => x.op.cls != 3
      match s.qpostBody t a with
      | none => s
      | some b => match s.tplQuay t (byteAt b 1) with
        | none => s
        | some q =>
          if isPush b || (s.tile t).qpost.isSome || others.any (fun x => (s.slotWait t x.op).isSome) then s
          else (s.upTile t fun x => { x with qpost := some false }).upQuay q fun y => { y with posts := y.posts ++ [⟨t, w.addr, b⟩] }
    | _ => s) s

/-! ## Effects -/

/-- The scratchpad range of a true slot that reads scratchpad as it issues: a load, a partial store or a quay's
descriptor (R243, R318). -/
def State.readRange (s : State) (t : Nat) (o : SlotOp) : Option (Nat × Nat) :=
  match o with
  | .mem .. | .vld .. => (s.coreRange t o).map fun x => (x.1, x.2.1)
  | .qpost a => if (addrCase (s.g t a) 64).isNone then some (s.g t a, 64) else none
  | _ => none

/-- The effect of an X slot (R114, R117, R223, R224): s0 is the state at issue. -/
def State.runX (s s0 : State) (t addr : Nat) (o : SlotOp) : State :=
  let post (d : MfDesc) (samp : Bool) : State :=
    s.upTile t fun x => if samp then { x with sampQ := x.sampQ ++ [d] } else { x with manQ := x.manQ ++ [d] }
  match o with
  | .xtake a sl =>
    let n := s0.g t a
    if s0.slipSize t sl = 0 then s.caseHalt t 3 addr (opCase 0x0103)
    else if s0.slipAvail t sl < n then s.caseHalt t 3 addr ⟨0x04, 0, sl⟩
    else s.inc F.SLIP_TAIL_COUNT n t sl
  | .xput a sl =>
    let n := s0.g t a
    if s0.slipSize t sl = 0 then s.caseHalt t 3 addr (opCase 0x0103)
    else if s0.slipClass t sl ≠ 0 then s.caseHalt t 3 addr (opCase 0x0108)
    else if s0.slipFree t sl < (n : Int) then s.caseHalt t 3 addr ⟨0x03, 0, sl⟩
    else s.headAdd t sl n
  | .soadd a obj => s.toHub ⟨0, t, 1, obj, s0.g t a, s0.tilePartN t, false, addr, false⟩
  | .soset a obj => s.toHub ⟨0, t, 2, obj, s0.g t a, s0.tilePartN t, false, addr, false⟩
  | .mf k a =>
    match addrCase (s0.g t a) 64 with
    | some c => s.caseHalt t 3 addr c
    | none =>
      let kind := match k with
        | .samp => 0
        | .post => 1
        | .rev => 2
      post { kind := kind, addr := addr, off := s0.g t a } (k == .samp)
  | .qpost a =>
    match addrCase (s0.g t a) 64, s0.qpostBody t a with
    | some c, _ => s.caseHalt t 3 addr c
    | _, none => s
    | none, some b =>
      if isPush b then s.upQuay (homeQuay t) fun y => { y with pushQ := y.pushQ ++ [⟨t, addr, b⟩] }
      else if (s0.tplQuay t (byteAt b 1)).isNone then s.caseHalt t 3 addr ⟨0x09, 0, byteAt b 1⟩
      else
        let s := s.upTile t fun x => { x with qpost := none, qfail := none }
        match (s0.tile t).qfail with
        | none => s
        | some (r, d, x) => s.caseHalt t 3 addr ⟨r, d, x⟩
  | .sowait _ _ => s.upTile t fun x => { x with soWait := none }
  | _ => s

/-- The effect of a true slot: s0 is the state at issue. -/
def State.runSlot (s s0 : State) (t addr : Nat) (o : SlotOp) : State :=
  match o.cls with
  | 2 => s.matIssue s0 t addr o
  | 3 => s.runX s0 t addr o
  | _ =>
    let s := s.runCompute s0 t addr o
    match o with
    | .sv k a => s.svIssue s0 t addr k a ((Config.rng s0.free).toNat % 2 ^ 512)
    | _ => s

/-- The effects of a word's true slots in order S, V, M, X. The report of the scratchpad code concerns the first slot
that reads scratchpad: an uncorrectable word halts the tile and that slot does nothing more (R243). -/
def State.runSlots (s s0 : State) (t addr : Nat) : List Slot → Ecc → State
  | [], _ => s
  | sl :: r, ecc =>
    match s0.readRange t sl.op with
    | none => (s.runSlot s0 t addr sl.op).runSlots s0 t addr r ecc
    | some x => match s.readCheck t [x] 0 ecc with
      | (s, none) => (s.runSlot s0 t addr sl.op).runSlots s0 t addr r .ok
      | (s, some w) => (s.caseHalt t sl.op.cls addr ⟨0x06, 0, w⟩).runSlots s0 t addr r .ok

/-! ## Control flow -/

/-- End a loop level. -/
def State.endLoop (s : State) (t l : Nat) : State := (s.wr F.T_LOOP_ACTIVE 0 t l).wr F.T_LOOP_COUNT 0 t l

/-- Whether an address lies in the body of an active level. -/
def State.inBody (s : State) (t l a : Nat) : Bool :=
  s.rd F.T_LOOP_ACTIVE t l == 1 && decide (s.rd F.T_LOOP_RANGE_START t l ≤ a) && decide (a ≤ s.rd F.T_LOOP_RANGE_END t l)

/-- A taken branch (R90): to an address outside an active body it ends that level, and level 1 with it. -/
def State.branchTo (s : State) (t a : Nat) : State :=
  let s := if s.rd F.T_LOOP_ACTIVE t 0 = 1 ∧ s.inBody t 0 a = false then (s.endLoop t 0).endLoop t 1
           else if s.rd F.T_LOOP_ACTIVE t 1 = 1 ∧ s.inBody t 1 a = false then s.endLoop t 1 else s
  s.wr F.T_PC_ADDR a t

/-- After a word that is not a taken branch (R89): the start of a body that it ends, level 1 first, or the word that
follows. -/
def State.advance (s : State) (t addr next : Nat) : List Nat → State
  | [] => s.wr F.T_PC_ADDR next t
  | l :: r =>
    if s.rd F.T_LOOP_ACTIVE t l = 1 ∧ s.rd F.T_LOOP_RANGE_END t l = addr then
      if s.rd F.T_LOOP_COUNT t l > 1 then
        (s.wr F.T_LOOP_COUNT (s.rd F.T_LOOP_COUNT t l - 1) t l).wr F.T_PC_ADDR (s.rd F.T_LOOP_RANGE_START t l) t
      else (s.endLoop t l).advance t addr next r
    else s.advance t addr next r

/-- The next word's address, and what the control slot of the word does (R87–R90). DESIGN CHOICE (log 159): the target of
a BR wraps modulo 2^19; the halt of a BRR to a bad address has SLOT 4 and AUX 0; a LOOP of count 0 goes behind its body and
neither ends an enclosing level nor takes its loop-back there. -/
def State.control (s s0 : State) (t : Nat) (w : NWord) : Option SlotOp → State
  | some (.br off) => s.branchTo t (wrap ((w.addr : Int) + 2 * sgn off 21) 19)
  | some (.brr a) =>
    let g := s0.g t a
    let s := s.branchTo t (g % 2 ^ 19)
    if g % 2 = 1 ∨ g ≥ 2 ^ 19 then s.halt t 0x01 4 w.addr 0x06 0 else s
  | some (.loop l a n) =>
    let e := w.addr + 2 * n
    if s0.g t a = 0 then s.wr F.T_PC_ADDR (e + s0.wordLen t e) t
    else
      let s := (s.wr F.T_LOOP_COUNT (s0.g t a) t l).wr F.T_LOOP_ACTIVE 1 t l
      let s := (s.wr F.T_LOOP_RANGE_START (w.addr + w.len) t l).wr F.T_LOOP_RANGE_END e t l
      s.advance t w.addr (w.addr + w.len) [1, 0]
  | _ => s.advance t w.addr (w.addr + w.len) [1, 0]

/-- The DETAIL of an EOP that arrives nowhere (R262). -/
def State.eopCase (s : State) (t : Nat) : Option Nat :=
  if s.rd F.XT_CUR_VALID t = 0 then some 5
  else
    let c := s.rd F.XT_CUR_CROSSING t
    let b := s.rd F.DIR_BARRIER t c
    if s.rd F.DIR_VALID t c = 0 ∨ s.rd F.DIR_LOCAL t c = 0 ∨ s.rd F.XT_BAR_ALLOC 0 b = 0
        ∨ s.rd F.XT_BAR_PART 0 b ≠ s.rd F.XT_RCFG_PART t then some 6 else none

/-- A tile that issued an EOP arrives at the barrier of its crossing (R48, R262), and waits there unless its word also
halted it. -/
def State.arriveEop (s : State) (t : Nat) : State :=
  (s.upTile t fun x => { x with atBar := true, wait := if s.tstate t = 1 then 14 else x.wait }).arrive (s.rd F.DIR_BARRIER t (s.rd F.XT_CUR_CROSSING t)) 0

/-- RUN of a tile's partition clears when every placed tile reads DONE (R497). -/
def State.doneRun (s : State) (t : Nat) : State :=
  match s.tilePart t with
  | none => s
  | some p => match s.curImage p with
    | some im => if s.run p && im.tiles.all (fun t => s.tstate t == 3) then (s.setRun p false).settle s else s
    | none => s

/-- A word issues: every slot reads the state at issue, s; then control flow, the end of a phase, the single step, the
program's end. A slot that halts the tile as it issues keeps only its own result from being written (R96): an EOP still
arrives, but not where it names no barrier or the word ends the program (R98). DESIGN CHOICE (log 159): a STEP that issues
an END leaves the tile DONE and no BREAKPOINT. -/
def State.issueNow (s : State) (t : Nat) (w : NWord) (ecc : Ecc) : State :=
  let on := s.onSlots t w
  let ctl : Option SlotOp := (on.map fun x => x.op).find? fun o => o.isCtl
  let s1 : State := s.upTile t fun x => { x with wait := 0, skipBp := false }
  let miss := if w.eop then s.eopCase t else none
  let s1 : State := if w.eop then s1.wr F.T_WDOG_COUNT_TC 0 t else s1
  let s1 : State := match miss with
    | some d => s1.halt t 0x0C 4 w.addr d 0
    | none => s1
  let s1 : State := s1.runSlots s t w.addr on ecc
  let s1 : State := s1.control s t w ctl
  if ctl == some SlotOp.endp then
    (if s1.tstate t ≠ 1 then s1 else ((s1.clearLoops t).wr F.T_STATUS_STATE 3 t).doneRun t)
  else
    let s1 : State := if w.eop && miss.isNone then s1.arriveEop t else s1
    if s1.rd F.T_CTRL_STEP t = 1 then s1.halt t 0x10 4 (s1.rd F.T_PC_ADDR t) 0x0005 0 else s1

/-- A word that reached issue issues, or waits under a cause of R92 (0 a busy wait). -/
def State.issueOrWait (s : State) (t : Nat) (w : NWord) (ecc : Ecc) : State :=
  let s := s.reach t w
  match s.wordWait t w with
  | some c => s.upTile t fun x => { x with wait := c }
  | none => s.issueNow t w ecc

/-- A word reaches issue (R83, R84, R92, R97): it is suppressed, waits, or issues whole. DESIGN CHOICE (log 159): the
causes of a word that waits are looked for at each attempt, from the first one on. -/
def State.tryWord (s : State) (t : Nat) (w : NWord) (ecc : Ecc) : State :=
  match s.wordCauses t w with
  | [] => s.issueOrWait t w ecc
  | l => s.suppress t w.addr l

/-- Whether a tile issues words at all now: RUNNING, not in crossing, not at a barrier, its clock running and no slack
holding it. -/
def State.canIssue (s : State) (t : Nat) : Bool :=
  s.tstate t == 1 && !s.inCrossing t && !(s.tile t).atBar && s.clockRuns

/-- WORD_ISSUE (R83): the word at T_PC; a fetch outside every execute slip halts the tile (R79). -/
def State.wordIssue (s : State) (t : Nat) (ecc : Ecc) : State :=
  if !s.canIssue t then s
  else match s.fetchWord t with
    | some w => s.tryWord t w ecc
    | none =>
      let a := s.rd F.T_PC_ADDR t
      s.suppress t a (((s.bpCause t a false).map fun k => (4, k)).toList ++ [(4, illegal 0x06 0)])

/-- A slot's own command: a word of that slot alone issues at T_PC. -/
def State.slotIssue (s : State) (t : Nat) (p : Pred) (o : SlotOp) : State :=
  if s.canIssue t then s.tryWord t (s.oneSlot t ⟨p.reg.toNat, p.neg, o⟩) .ok else s

/-- Whether the descriptor a QPOST would read is a PUSH; one at an address that raises a case counts as none. -/
def State.postsPush (s : State) (t a : Nat) : Bool := match s.qpostBody t a with
  | some b => isPush b
  | none => false

/-- RESULT_RETIRE (R84): the earliest due result of a tile is written, and its pending flag clears. -/
def State.retireOne (s : State) (t : Nat) : State :=
  if s.stands t then s else
  match (s.tile t).results with
  | [] => s
  | r :: rs =>
    let m := rs.foldl (fun a b => if b.due < a.due then b else a) r
    (s.setReg t m.dst m.val).upTile t fun x => { x with results := dropFirst (fun y => y == m) x.results }

/-- A watchdog that has counted to a limit other than 0 halts its tile (R100). -/
def State.watchdog (s : State) (t : Nat) : State :=
  let l := s.rd F.T_WDOG_LIMIT_LIMIT t
  if s.tstate t = 1 ∧ s.inCrossing t = false ∧ l ≠ 0 ∧ l ≤ s.rd F.T_WDOG_COUNT_TC t then
    s.halt t 0x11 7 (s.rd F.T_PC_ADDR t) 0 l
  else s

/-! ## Commands -/

/-- WORD_ISSUE (R83). -/
def execWordIssue (t : TileId) (ecc : Ecc) (s : State) : Host.Outcome State Fault Refusal := .next (s.wordIssue t.val ecc)

/-- RESULT_RETIRE (R84). -/
def execResultRetire (t : TileId) (s : State) : Host.Outcome State Fault Refusal := .next (s.retireOne t.val)

/-- WATCHDOG_EXPIRE (R100). -/
def execWatchdogExpire (t : TileId) (s : State) : Host.Outcome State Fault Refusal := .next (s.watchdog t.val)

/-- T_CTRL_GO (R93). -/
def execTCtrlGo (t : TileId) (s : State) : Host.Outcome State Fault Refusal := .next (s.go t.val)

/-- T_CTRL_RESUME (R101). -/
def execTCtrlResume (t : TileId) (s : State) : Host.Outcome State Fault Refusal := .next (s.resume t.val)

/-- T_CTRL_STOP (R93). -/
def execTCtrlStop (t : TileId) (s : State) : Host.Outcome State Fault Refusal := .next (s.stop t.val)

end Sys2Proof.Machine
end

