-- ==== Sys2Proof/Machine/Conf.lean ====
section
/-! DEFINITION. The confluence engines (R394–R424): wire blocks and their arithmetic, segments, grid channels, and the
collectives from descriptor to verdict. -/

namespace Sys2Proof.Machine

/-! ## Lanes and wire blocks -/

/-- The local byte of a source element (R408): its biased exponent, 0 for a zero, a subnormal, a NaN or an infinity. -/
def expByte (f32 : Bool) (x : Nat) : Nat :=
  let e := if f32 then bits x 23 8 else bits x 7 8
  if e = 255 then 0 else e

/-- Whether a source element is a NaN or an infinity. -/
def nonFinite (f32 : Bool) (x : Nat) : Bool := (if f32 then bits x 23 8 else bits x 7 8) == 255

/-- Bits that the conversion of an element draws under scale E (R142, R410). -/
def laneBits (f32 : Bool) (x e : Nat) : Nat :=
  let ex := expByte f32 x
  if ex = 0 then 0 else (min (max ((e : Int) - ex + (if f32 then 9 else -7)) 0) 16).toNat

/-- A source element as a 16-bit lane of unit 2^(E − 141), given the bits it draws, and whether it saturated (R410). -/
def laneOf (f32 : Bool) (x e r : Nat) : Int × Bool :=
  let ex := expByte f32 x
  if ex = 0 then (0, false)
  else
    let neg := if f32 then x.testBit 31 else x.testBit 15
    let m := if f32 then 2 ^ 23 + x % 2 ^ 23 else 128 + x % 128
    let sh : Int := (e : Int) - ex + (if f32 then 9 else -7)
    let k := laneBits f32 x e
    let a := if sh ≤ 0 then m <<< (-sh).toNat else m >>> (sh.toNat - k)
    let q := a / 2 ^ k + (if a % 2 ^ k + r ≥ 2 ^ k then 1 else 0)
    (sgnd neg (min q 32767), decide (q > 32767))

/-- The lanes of a rank's 32 elements from a stream of random bits, and how many bits they take (R410). -/
def lanesOf (f32 : Bool) (e : Nat) : List Nat → Nat → Nat → List (Int × Bool) × Nat
  | [], _, n => ([], n)
  | x :: r, rnd, n =>
    let k := laneBits f32 x e
    let (l, m) := lanesOf f32 e r rnd (n + k)
    (laneOf f32 x e (bits rnd n k) :: l, m)

/-- The residue of a set of integers (R406). -/
def residue (l : List Int) : Nat := (l.foldl (· + ·) 0 % 255).toNat

/-- Fields of a wire block, 36 bytes as a number (R405). -/
def wbM (b i : Nat) : Int := sgn (lane b 8 i) 8
/-- Its mantissas. -/
def wbMs (b : Nat) : List Int := (List.range 32).map (wbM b)
/-- Its scale. -/
def wbE (b : Nat) : Nat := bits b 256 8
/-- Its residue. -/
def wbRes (b : Nat) : Nat := bits b 264 8
/-- OVF. -/
def wbOvf (b : Nat) : Bool := b.testBit 272
/-- EXCESS. -/
def wbExcess (b : Nat) : Nat := bits b 273 3
/-- CONTRIB. -/
def wbContrib (b : Nat) : Nat := bits b 276 12

/-- A wire block of its fields. -/
def mkBlock (ms : List Int) (e : Nat) (ovf : Bool) (ex contrib : Nat) : Nat :=
  joinLanes 8 (ms.map fun m => wrap m 8) + e * 2 ^ 256 + residue ms * 2 ^ 264 + b2n ovf * 2 ^ 272 + ex * 2 ^ 273
    + contrib % 4096 * 2 ^ 276

/-- Step 1 of R411: whether a block's residue is right and its scale the agreed one, neither reserved. -/
def wbCheck (b e : Nat) : Bool := wbRes b == residue (wbMs b) && wbE b == e && wbE b != 255 && wbRes b != 255

/-- The smallest excess e ≥ 1 with |q| ≤ 127 × 2^e, capped at 7 (R412). -/
def excessOf (q : Nat) : Nat := ((List.range 7).map (· + 1)).find? (fun e => decide (q ≤ 127 * 2 ^ e)) |>.getD 7

/-- Step 3 of R411 on one lane: the clamped mantissa, whether the lane overflowed, its excess (R412). -/
def roundLane (s : Int) (sat : Bool) (r : Nat) : Int × Bool × Nat :=
  let q := s.natAbs / 256 + (if s.natAbs % 256 + r ≥ 256 then 1 else 0)
  let o := sat || decide (q > 127) || decide (s.natAbs > 32767)
  (sgnd (decide (s < 0)) (min q 127), o, if o then excessOf q else 0)

/-- The outgoing block of an adder whose exact lane sums are given (R411 steps 3 and 4, R412). Steps 2 and 4 check
sums that are exact here, so they hold. -/
def addBlock (ss : List (Int × Bool)) (rnd e : Nat) (ovf : Bool) (ex contrib : Nat) : Nat × Bool :=
  let ls := (List.range 32).map fun i => roundLane (ss.getD i (0, false)).1 (ss.getD i (0, false)).2 (lane rnd 8 i)
  let o := ls.any fun l => l.2.1
  let x := ls.foldl (fun m l => max m l.2.2) ex
  (mkBlock (ls.map fun l => l.1) e (ovf || o) x contrib, o)

/-- The 32 values of a completed block as bytes (R413). -/
def wbValues (f32 : Bool) (b : Nat) : List Byte :=
  (List.range 32).flatMap fun i =>
    let x := match dq8Lane (lane b 8 i) (wbE b) with
      | .ok v => v
      | .error _ => 0
    if f32 then leBytes x 4 else leBytes (x / 65536) 2

/-! ## Descriptors -/

namespace Coll

/-- A field of the descriptor (R401). -/
def at' (c : Coll) (o n : Nat) : Nat := leAt c.body o n
/-- KIND. -/
def kind (c : Coll) : Nat := c.at' 0 1
/-- A reduction. -/
def reduces (c : Coll) : Bool := c.kind == 1 || c.kind == 3
/-- An exchange under a map. -/
def maps (c : Coll) : Bool := c.kind == 4 || c.kind == 5
/-- CLASS REPLICA. -/
def replica (c : Coll) : Bool := c.at' 1 1 == 1
/-- DONE_EN. -/
def doneEn (c : Coll) : Bool := (c.at' 2 1).testBit 0
/-- SFMT: FP32 source. -/
def f32 (c : Coll) : Bool := (c.at' 2 1).testBit 1
/-- ROLE: this module is the backup. -/
def backup (c : Coll) : Bool := (c.at' 2 1).testBit 2
/-- COLLID. -/
def collid (c : Coll) : Nat := c.at' 4 4
/-- STEP. -/
def step (c : Coll) : Nat := c.at' 8 4
/-- NPEER. -/
def n (c : Coll) : Nat := c.at' 0x0C 2
/-- RANK. -/
def r (c : Coll) : Nat := c.at' 0x0E 2
/-- SRC. -/
def src (c : Coll) : Nat := c.at' 0x18 6
/-- DST. -/
def dst (c : Coll) : Nat := c.at' 0x20 6
/-- SCALES. -/
def scalesAt (c : Coll) : Nat := c.at' 0x28 6
/-- NELEM. -/
def nelem (c : Coll) : Nat := c.at' 0x30 5
/-- Bytes of an element. -/
def es (c : Coll) : Nat := if c.f32 then 4 else 2
/-- Wire blocks of a chunk. -/
def blocks (c : Coll) : Nat := c.nelem / max 1 c.n / 32
/-- 64-byte source blocks of a wire block. -/
def per (c : Coll) : Nat := if c.f32 then 2 else 1
/-- The rank d places before this one in the ring. -/
def before (c : Coll) (d : Nat) : Nat := (c.r + c.n - d % max 1 c.n) % max 1 c.n
/-- How many places before this rank a chunk lies, counting chunk r − 1 as 0. -/
def place (c : Coll) (ch : Nat) : Nat := (c.r + c.n - 1 - ch) % max 1 c.n
/-- The map entries of one direction with one rank, in order. -/
def pair (c : Coll) (dir rank : Nat) : List (Nat × Nat × Nat × Nat) :=
  c.map.filter fun e => e.1 == rank && e.2.1 == dir
/-- Send entries whose peer is another rank, or all of them. -/
def sendsOf (c : Coll) : List (Nat × Nat × Nat × Nat) := c.map.filter fun e => e.2.1 == 0
/-- Bytes of a list of entries. -/
def total (l : List (Nat × Nat × Nat × Nat)) : Nat := l.foldl (fun a e => a + e.2.2.1) 0
/-- Source blocks of 64 bytes that the present phase reads. -/
def reads (c : Coll) : Nat :=
  match c.phase with
  | 1 => c.n * c.blocks * c.per
  | 2 => c.n * c.blocks * c.per
  | 3 => if c.kind = 2 then c.nelem / 64 else 0
  | 4 => total c.sendsOf / 64
  | _ => 0
/-- Units that the present phase receives in its first pass, and in its second. -/
def expects (c : Coll) : Nat × Nat :=
  match c.phase with
  | 1 => ((c.n - 1) * c.blocks, (c.n - 1) * c.blocks)
  | 2 => ((c.n - 1) * c.blocks, 0)
  | 3 => if c.kind = 2 then ((c.n - 1) * c.nelem, 0) else (0, (c.n - 1) * c.blocks)
  | 4 => (total (c.map.filter fun e => e.2.1 == 1 && e.1 != c.r), 0)
  | _ => (0, 0)
/-- The verdict's rounds: ceil(log₂ NPEER). -/
def rounds (c : Coll) : Nat := (List.range 12).find? (fun i => decide (c.n ≤ 2 ^ i)) |>.getD 11
/-- The agreed scale of a block under this run. -/
def scale (c : Coll) (g : Nat) : Nat := aget 0 c.agreed g
/-- A flag set. -/
def flag (c : Coll) (b : Nat) : Coll := { c with flags := c.flags ||| 2 ^ b }
/-- Whether a flag is set. -/
def has (c : Coll) (b : Nat) : Bool := c.flags.testBit b
/-- The k-th source block read in the present phase: its device address. Chunks are read in the order in which the
ring needs them, an exchange's blocks in map order. -/
def readAddr (c : Coll) (k : Nat) : Nat :=
  match c.phase with
  | 1 => c.src + c.before (1 + k / max 1 (c.blocks * c.per)) * c.blocks * c.per * 64 + k % max 1 (c.blocks * c.per) * 64
  | 2 => c.src + c.before (1 + k / max 1 (c.blocks * c.per)) * c.blocks * c.per * 64 + k % max 1 (c.blocks * c.per) * 64
  | 3 => c.src + 64 * k
  | _ =>
    let rec go : List (Nat × Nat × Nat × Nat) → Nat → Nat
      | [], _ => c.src
      | e :: l, o => if o < e.2.2.1 then c.src + e.2.2.2 + o else go l (o - e.2.2.1)
    go c.sendsOf (64 * k)

end Coll

/-- Bytes that a descriptor, peer list or map is read from: GDDR7 or the landing SRAM. -/
def State.dbytes (s : State) (a n : Nat) : List Byte :=
  if a ≥ 0x3000_1000_0000 then s.bytes a n else s.gbytes a n

/-- Whether n bytes at an address are reached: in GDDR7, or where allowed in the landing SRAM. -/
def State.dgood (s : State) (sram : Bool) (a n : Nat) : Bool :=
  (sram && decide (0x3000_1000_0000 ≤ a)
    && decide (a + n ≤ 0x3000_1000_0000 + s.rd F.L_CFG_LSRAM * 2 ^ 20)) || (s.gbad a n).isNone

/-- Whether two ranges share a byte. -/
def rangesMeet (a n b m : Nat) : Bool := decide (a < b + m) && decide (b < a + n) && decide (0 < n) && decide (0 < m)

/-- Bytes of SRC that a collective reads. -/
def Coll.srcLen (c : Coll) : Nat :=
  if c.reduces then c.nelem * c.es
  else if c.kind = 2 then c.nelem
  else c.sendsOf.foldl (fun m e => max m (e.2.2.2 + e.2.2.1)) 0

/-- Bytes of DST that a collective may write. -/
def Coll.dstLen (c : Coll) : Nat :=
  if c.kind = 1 then c.nelem / max 1 c.n * c.es
  else if c.kind = 2 then c.nelem * c.n
  else if c.kind = 3 then c.nelem * c.es
  else c.nelem

/-- Insert a range by its start. -/
def insRange (x : Nat × Nat) : List (Nat × Nat) → List (Nat × Nat)
  | [] => [x]
  | y :: r => if x.1 ≤ y.1 then x :: y :: r else y :: insRange x r

/-- Whether ranges in rising order cover [p, e) exactly once. -/
def coversOnce (e : Nat) : Nat → List (Nat × Nat) → Bool
  | p, [] => p == e
  | p, x :: r => x.1 == p && coversOnce e (p + x.2) r

/-- The exchange map's checks (R416). -/
def Coll.mapOk (c : Coll) (raw : List Byte) : Bool :=
  ((List.range c.map.length).all fun i =>
    let e := c.map.getD i (0, 0, 0, 0)
    decide (e.1 < c.n) && decide (e.2.1 < 2) && byteAt raw (16 * i + 3) == 0 && e.2.2.1 != 0 && e.2.2.1 % 64 == 0
      && e.2.2.2 % 64 == 0 && leAt raw (16 * i + 13) 3 == 0
      && (e.2.1 == 0 || decide (e.2.2.2 + e.2.2.1 ≤ c.nelem)))
  && (c.kind != 4 || coversOnce c.nelem 0
        (((c.map.filter fun e => e.2.1 == 1).map fun e => (e.2.2.2, e.2.2.1)).foldl (fun l x => insRange x l) []))

/-- The peer list's checks (R402). -/
def State.peersOk (s : State) (c : Coll) : Bool :=
  (c.peers.all fun p => bits p 11 5 == 0 && bits p 27 4 == 0 && p.testBit 31 == c.replica)
  && (let p := c.peers.getD c.r 0
      (if c.backup then bits p 16 11 else bits p 0 11) == s.boot.modnum)

/-- Whether a field outside every descriptor's, or outside this KIND's, is set or out of range (R401, R403). -/
def Coll.fieldsOk (c : Coll) : Bool :=
  let p := fun o => leAt c.body (o + 6) 2 == 0
  decide (1 ≤ c.kind ∧ c.kind ≤ 5) && decide (c.at' 1 1 ≤ 1) && decide (c.at' 2 2 < 8)
  && decide (2 ≤ c.n ∧ c.n ≤ 2048) && decide (c.r < c.n) && p 0x10 && p 0x18 && p 0x20 && p 0x28 && p 0x48
  && c.at' 0x35 3 == 0 && decide (c.at' 0x38 1 ≤ 15) && decide (c.at' 0x39 1 ≤ 7) && decide (c.at' 0x3A 2 < 8192)
  && decide (1 ≤ c.at' 0x3C 4 ∧ c.at' 0x3C 4 ≤ 1000000) && decide (1 ≤ c.at' 0x40 2) && decide (c.at' 0x42 1 < 4)
  && c.at' 0x43 5 == 0 && leAt c.body 0x54 36 == 0
  && (c.reduces || (!c.f32 && c.scalesAt == 0 && c.at' 0x38 2 == 0))
  && (c.maps || (c.at' 0x48 8 == 0 && c.at' 0x50 4 == 0))
  && (if c.reduces then c.nelem % (32 * c.n) == 0 else if c.kind = 2 then c.nelem % 64 == 0 else true)

/-- The descriptor check (R403). -/
def State.collOk (s : State) (c : Coll) : Bool :=
  let peersAt := c.at' 0x10 6
  let mapAt := c.at' 0x48 6
  c.fieldsOk && peersAt % 64 == 0 && c.src % 64 == 0 && c.dst % 64 == 0 && c.scalesAt % 64 == 0 && mapAt % 64 == 0
  && s.dgood true peersAt (4 * c.n) && s.peersOk c
  && (!c.maps || (s.dgood true mapAt (16 * c.at' 0x50 4) && c.mapOk (s.dbytes mapAt (16 * c.at' 0x50 4))))
  && s.dgood false c.src c.srcLen && s.dgood false c.dst c.dstLen
  && (!c.reduces || s.dgood false c.scalesAt (c.nelem / 32))
  && (c.kind == 2 || !rangesMeet c.src c.srcLen c.dst c.dstLen)

/-- A collective as its descriptor, peer list and map give it. -/
def State.collAt (s : State) (a : Nat) : Coll :=
  let b := s.dbytes a 128
  let c : Coll := { desc := a, body := b, peers := [], map := [] }
  let ps := (List.range (min c.n 2048)).map fun i => leVal (s.dbytes (c.at' 0x10 6 + 4 * i) 4)
  let ms := if c.maps then (List.range (c.at' 0x50 4)).map fun i =>
      let e := s.dbytes (c.at' 0x48 6 + 16 * i) 16
      (leAt e 0 2, leAt e 2 1, leAt e 4 4, leAt e 8 5) else []
  { c with peers := ps, map := ms }

/-! ## Registers and the send side -/

/-- CF_STATUS and CF_CUR follow the engine (R426). -/
def State.cfSync (s : State) (k : Nat) : State :=
  let e := s.eng k
  let s := (s.wr F.CF_STATUS_BUSY (b2n e.run.isSome) k).wr F.CF_STATUS_QUEUED e.queue.length k
  let s := s.wr F.CF_STATUS_PHASE (match e.run with | some c => c.phase | none => 0) k
  let s := s.wr F.CF_CUR_COLLID (match e.run with | some c => c.collid | none => 0) k
  s.wr F.CF_CUR_RERUN (match e.run with | some c => c.rerun | none => 0) k

/-- The running collective replaced. -/
def State.setColl (s : State) (k : Nat) (c : Coll) : State := (s.upEng k fun e => { e with run := some c }).cfSync k

/-- A segment header (R404). -/
def segHead (c : Coll) (ty chunk count off : Nat) : List Byte :=
  leBytes c.collid 4 ++ leBytes c.step 4 ++ leBytes c.r 2 ++ leBytes c.rerun 1 ++ leBytes ty 1 ++ leBytes chunk 2
    ++ leBytes count 2 ++ leBytes off 8 ++ leBytes (b2n c.backup) 2 ++ leBytes 0 6

/-- The modules a rank's copies go to (R418). -/
def Coll.modulesOf (c : Coll) (rank : Nat) : List Nat :=
  let p := c.peers.getD rank 0
  if c.replica then [bits p 0 11, bits p 16 11] else [bits p 0 11]

/-- Bytes of the forward queue (R440). -/
def EngX.fwdBytes (e : EngX) : Nat := e.sends.foldl (fun n x => n + if x.fwd then x.body.length else 0) 0

/-- Bytes in the transit area. -/
def EngX.spillBytes (e : EngX) : Nat := e.spill.foldl (fun n x => n + x.body.length) 0

/-- Write a segment into the transit area, where the last one ended, wrapping (R440). -/
def State.spillOut (s : State) (k : Nat) (x : SegOut) : State :=
  let base := s.rd F.FL_TRANSIT_A_BASE k / 4096 * 4096
  let size := s.rd F.FL_TRANSIT_B_SIZE k * 4096
  let o := (s.eng k).spilled % max 1 size
  let n := min x.body.length (size - o)
  let s := (s.gpost (base + o) (x.body.take n) 4 k).gpost base (x.body.drop n) 4 k
  let s := s.inc F.FL_SPILL_BYTES_BYTES x.body.length k
  s.upEng k fun e => { e with spill := e.spill ++ [x], spilled := e.spilled + x.body.length }

/-- Whether a segment to be forwarded finds room in the forward queue, or else in the transit area (R440, R441). -/
def State.fwdRoom (s : State) (k n : Nat) : Bool :=
  let e := s.eng k
  (e.spill.isEmpty && decide (e.fwdBytes + n ≤ 262144)) || decide (e.spillBytes + n ≤ s.rd F.FL_TRANSIT_B_SIZE k * 4096)

/-- A segment joins the send side for a rank: one copy, or one for each of the rank's modules. -/
def State.cfSend (s : State) (k : Nat) (c : Coll) (rank : Nat) (fwd : Bool) (seg : List Byte) : State :=
  (c.modulesOf rank).foldl (fun s m =>
    let x : SegOut := ⟨m, fwd, byteAt c.body 0x42, seg⟩
    let e := s.eng k
    if !fwd || (e.spill.isEmpty && decide (e.fwdBytes + seg.length ≤ 262144)) then
      s.upEng k fun e => { e with sends := e.sends ++ [x] }
    else s.spillOut k x) s

/-- The next rank of the ring. -/
def Coll.next (c : Coll) : Nat := (c.r + 1) % max 1 c.n

/-! ## Verdict -/

/-- The status record on the wire: flags, EXCESS, the lowest LATE rank or 0xFFFF. The spec gives its fields and no
layout. PRESUMED (log 29). -/
def Coll.record (c : Coll) : List Byte :=
  leBytes c.flags 1 ++ leBytes c.excess 1 ++ leBytes (if c.late = 0 then 65535 else c.late - 1) 2

/-- A record combined with a received one (R419). -/
def Coll.combine (c : Coll) (b : List Byte) : Coll :=
  let l := leAt b 2 2
  let late := if l = 65535 then c.late else if c.late = 0 then l + 1 else min c.late (l + 1)
  { c with flags := c.flags ||| byteAt b 0 % 64, excess := max c.excess (byteAt b 1 % 8), late := late }

/-- A collective ends with a verdict (R422, R442). -/
def State.cfEnd (s : State) (k : Nat) (c : Coll) (v : Nat) : State :=
  let detail := if c.has 0 then (if c.late = 0 then 0 else c.late - 1) else if c.has 1 then k else 0
  let mx := max c.maxEx c.excess
  let st := v + 2 ^ 8 * (c.rerun % 8) + 2 ^ 11 * (mx % 8) + 2 ^ 16 * (detail % 65536) + 2 ^ 63
  let s := if c.desc ≥ 0x3000_1000_0000 then s.setBytes (c.desc + 0x78) (leBytes st 8)
           else s.gpost (c.desc + 0x78) (leBytes st 8) 4 k
  let s := (s.wr F.CF_LAST_VERDICT v k).wr F.CF_LAST_RERUNS c.rerun k
  let s := (s.wr F.CF_LAST_EXCESS mx k).wr F.CF_LAST_DETAIL detail k
  let s := (s.wr F.CF_LAST_COLLID c.collid k).inc F.CF_COLLECTIVES_COUNT 1 k
  let s := if 1 ≤ v ∧ v ≤ 3 then s.inc F.CF_REPEATS_COUNT 1 k else s
  let chan := fun (x : SegOut) => byteAt x.body 0x0B == 4
  let s := s.upEng k fun e => { e with run := none, sends := e.sends.filter chan, spill := e.spill.filter chan }
  let s := s.cfSync k
  if v = 0 then
    (if c.doneEn then s.toHub ⟨4, k, 1, c.at' 0x3A 2, 1, c.at' 0x42 1, false, 0, false⟩ else s)
  else s.event 7 4 k (0x70 + v) c.collid

/-- The present phase begins: nothing read, nothing taken. -/
def Coll.enter (c : Coll) (p : Nat) : Coll := { c with phase := p, read := 0 }

/-- This rank's record of a round goes to the rank 2^i ahead (R419). -/
def State.sendRecord (s : State) (k : Nat) (c : Coll) : State :=
  s.cfSend k c ((c.r + 2 ^ c.round) % max 1 c.n) false
    (segHead c 3 c.round c.record.length 0 ++ c.record)

/-- The run repeated (R413, R421): the flags of the status record start anew, and the reduction starts again. -/
def Coll.again (c : Coll) (raise : Nat) : Coll :=
  { c with phase := 2, rerun := c.rerun + 1, flags := 0, maxEx := max c.maxEx c.excess, excess := 0, late := 0,
           round := 0, read := 0, copies := [], taken := [], recv0 := 0, recv1 := 0, recs := [], own := [],
           agreed := c.agreed.map fun e => (e.1, if raise = 0 then e.2 else min 254 (e.2 + raise)) }

/-- The combined record decides (R421). -/
def State.verdict (s : State) (k : Nat) (c : Coll) : State :=
  if c.has 5 then s.cfEnd k c 7
  else if c.has 2 then s.cfEnd k c 4
  else if c.has 3 then s.cfEnd k c 3
  else if c.has 0 then s.cfEnd k c 1
  else if (c.has 1 || c.has 4) && c.rerun == c.at' 0x39 1 then s.cfEnd k c 2
  else if c.has 1 || c.has 4 then
    let c' := c.again (if c.has 1 then 0 else c.excess)
    let s := if c.has 1 then s
      else s.gpost c.scalesAt ((List.range (c.nelem / 32)).map fun g => BitVec.ofNat 8 (c'.scale g)) 4 k
    (s.inc F.CF_RERUNS_COUNT 1 k).setColl k c'
  else s.cfEnd k c 0

/-- Rounds whose records are in hand are combined, each followed by the next round's record, to the verdict. -/
def State.verdictRounds (s : State) (k : Nat) : Nat → Coll → State
  | 0, c => s.setColl k c
  | n + 1, c =>
    if c.round ≥ c.rounds then s.verdict k c
    else match find2 c.recs c.round with
      | none => s.setColl k c
      | some b =>
        let c := { c.combine b with round := c.round + 1 }
        if c.round ≥ c.rounds then s.verdict k c
        else (s.sendRecord k c).verdictRounds k n c

/-- A rank enters the verdict (R419). -/
def State.enterVerdict (s : State) (k : Nat) (c : Coll) : State :=
  let c := { c.enter 5 with round := 0 }
  (s.sendRecord k c).verdictRounds k 12 c

/-! ## Phases -/

/-- Segments of a chunk of a length in units, at most m each: offsets and counts. -/
def cuts (len m : Nat) : List (Nat × Nat) := (List.range ((len + m - 1) / m)).map fun i => (i * m, min m (len - i * m))

/-- The end of a unit of own data closes a segment: its offset and count, where it does. -/
def closes (i len m : Nat) : Option (Nat × Nat) :=
  if (i + 1) % m = 0 ∨ i + 1 = len then some (i / m * m, i + 1 - i / m * m) else none

/-- This rank's own lanes of a global block (R410): the lanes, the bits drawn, the random bits after them. -/
def State.ownLanes (s : State) (c : Coll) (g : Nat) : List (Int × Bool) × Nat × Nat :=
  let d := leVal (s.gbytes (c.src + g * c.per * 64) (c.per * 64))
  let xs := (List.range 32).map fun i => lane d (8 * c.es) i
  let rnd := (Config.rng s.free).toNat
  let (l, n) := lanesOf c.f32 (c.scale g) xs rnd 0
  (l, n, bits rnd n 256)

/-- The engine's generator has drawn n bits (R395). -/
def State.cfDrew (s : State) (k n : Nat) : State := (s.inc F.CF_RNG_DRAWN_BITS n k).drawn

/-- This rank's own wire block of step 0 (R410). -/
def State.firstBlock (s : State) (k : Nat) (c : Coll) (g : Nat) : State × Nat :=
  let (l, n, rnd) := s.ownLanes c g
  let (b, o) := addBlock (l.map fun x => (256 * 0 + x.1, x.2)) rnd (c.scale g) false 0 1
  let s := s.cfDrew k (n + 256)
  (if o then s.inc F.CF_OVF_BLOCKS_BLOCKS 1 k else s, b)

/-- An adder operation on an incoming block (R411): the outgoing block and whether it failed its residue check. -/
def State.adder (s : State) (k : Nat) (c : Coll) (g b : Nat) : State × Nat × Bool :=
  let s := s.inc F.CF_BLOCKS_ADDED_BLOCKS 1 k
  if wbCheck b (c.scale g) then
    let (l, n, rnd) := s.ownLanes c g
    let ss := (List.range 32).map fun i => (256 * wbM b i + (l.getD i (0, false)).1, (l.getD i (0, false)).2)
    let (b', o) := addBlock ss rnd (c.scale g) (wbOvf b) (wbExcess b) (wbContrib b + 1)
    let s := s.cfDrew k (n + 256)
    (if o then s.inc F.CF_OVF_BLOCKS_BLOCKS 1 k else s, b', false)
  else (s.inc F.CF_RESIDUE_FAILS_COUNT 1 k, b, true)

/-- Blocks of this rank's own chunk r − 1 as the segment of step 0. -/
def State.firstBlocks (s : State) (k : Nat) (c : Coll) : List Nat → State × List Byte
  | [] => (s, [])
  | g :: r =>
    let (s, b) := s.firstBlock k c g
    let (s, l) := s.firstBlocks k c r
    (s, leBytes b 36 ++ l)

/-- A source block of the reduction's or agreement's order has come: the chunk and index of the wire block it
completes. -/
def Coll.completes (c : Coll) : Option (Nat × Nat) :=
  if c.read % c.per = 0 ∧ 0 < c.read then
    let j := c.read / c.per - 1
    some (c.before (1 + j / max 1 c.blocks), j % max 1 c.blocks)
  else none

/-- The local byte of a block of 32 source elements, and whether one is not finite (R408). -/
def State.localByte (s : State) (c : Coll) (g : Nat) : Nat × Bool :=
  let d := leVal (s.gbytes (c.src + g * c.per * 64) (c.per * 64))
  let xs := (List.range 32).map fun i => lane d (8 * c.es) i
  (xs.foldl (fun m x => max m (expByte c.f32 x)) 0, xs.any (nonFinite c.f32))

/-- Bytes of agreement sent on for a range of a chunk. -/
def Coll.rawBytes (c : Coll) (ch o n : Nat) : List Byte :=
  (List.range n).map fun i => BitVec.ofNat 8 (aget 0 c.raw (ch * c.blocks + o + i))

/-- The agreed scales of a range of a chunk: H added, capped at 254, written at SCALES (R408). -/
def State.agree (s : State) (k : Nat) (c : Coll) (ch o : Nat) (raw : List Byte) : State × Coll :=
  let es := raw.map fun b => min 254 (b.toNat + c.at' 0x38 1)
  let s := s.gpost (c.scalesAt + ch * c.blocks + o) (es.map fun e => BitVec.ofNat 8 e) 4 k
  let a := (List.range es.length).foldl (fun m i => aput 0 m (ch * c.blocks + o + i) (es.getD i 0)) c.agreed
  (s, { c with agreed := a })

/-- The block of bytes a gather or exchange sends. -/
def dataSeg (c : Coll) (chunk off : Nat) (d : List Byte) : List Byte := segHead c 2 chunk d.length off ++ d

/-- The send entry, the entry's number within its pair and the offset of the source block last read. -/
def Coll.atSend (c : Coll) : Option ((Nat × Nat × Nat × Nat) × Nat × Nat) :=
  let rec go : List (Nat × Nat × Nat × Nat) → List Nat → Nat → Option ((Nat × Nat × Nat × Nat) × Nat × Nat)
    | [], _, _ => none
    | e :: l, seen, o =>
      if o < e.2.2.1 then some (e, (seen.filter fun x => x == e.1).length, o) else go l (e.1 :: seen) (o - e.2.2.1)
  go c.sendsOf [] (64 * (c.read - 1))

/-- What a source block just read lets the engine send (R408–R410, R414, R417). -/
def State.afterRead (s : State) (k : Nat) (c : Coll) : State × Coll :=
  match c.phase with
  | 1 => match c.completes with
    | none => (s, c)
    | some (ch, i) =>
      let (b, bad) := s.localByte c (ch * c.blocks + i)
      let c := if bad then c.flag 2 else c
      let g := ch * c.blocks + i
      let c := { c with raw := aput 0 c.raw g (max (aget 0 c.raw g) b) }
      if ch = c.before 1 then match closes i c.blocks 2016 with
        | some (o, n) => (s.cfSend k c c.next false (segHead c 0 ch n o ++ c.rawBytes ch o n), c)
        | none => (s, c)
      else (s, c)
  | 2 => match c.completes with
    | none => (s, c)
    | some (ch, i) =>
      if ch = c.before 1 then match closes i c.blocks 56 with
        | some (o, n) =>
          let (s, d) := s.firstBlocks k c ((List.range n).map fun j => ch * c.blocks + o + j)
          (s.cfSend k c c.next false (segHead c 1 ch n o ++ d), c)
        | none => (s, c)
      else (s, c)
  | 3 =>
    if c.kind = 2 then
      let i := c.read - 1
      let s := s.gpost (c.dst + c.r * c.nelem + 64 * i) (s.gbytes (c.src + 64 * i) 64) 4 k
      let cutsNow := (cuts c.nelem 2016).filter fun x =>
        decide (64 * i < x.1 + x.2) && decide (x.1 + x.2 ≤ 64 * (i + 1))
      (cutsNow.foldl (fun s x => s.cfSend k c c.next false (dataSeg c c.r x.1 (s.gbytes (c.src + x.1) x.2))) s, c)
    else (s, c)
  | 4 => match c.atSend with
    | none => (s, c)
    | some (e, j, o) =>
      let (rank, _, len, off) := e
      if rank = c.r then
        match (c.pair 1 c.r).drop j with
        | [] => (s, c.flag 5)
        | d :: _ => if d.2.2.1 = len then (s.gpost (c.dst + d.2.2.2 + o) (s.gbytes (c.src + off + o) 64) 4 k, c) else (s, c.flag 5)
      else
        let cutsNow := (cuts len 2016).filter fun x => decide (o < x.1 + x.2) && decide (x.1 + x.2 ≤ o + 64)
        (cutsNow.foldl (fun s x => s.cfSend k c rank false (dataSeg c j x.1 (s.gbytes (c.src + off + x.1) x.2))) s, c)
  | _ => (s, c)

/-- The gather of an ALL_REDUCE begins: this rank's completed blocks go round (R415). -/
def State.startGather (s : State) (k : Nat) (c : Coll) : State :=
  (cuts c.blocks 56).foldl (fun s x => s.cfSend k c c.next false (segHead c 1 c.r x.2 x.1 ++
    ((List.range x.2).flatMap fun i => leBytes (aget 0 c.own (x.1 + i)) 36))) s

/-- Whether the present data phase has all it reads and receives. -/
def Coll.phaseDone (c : Coll) : Bool :=
  decide (c.reads ≤ c.read) && decide (c.expects.1 ≤ c.recv0) && decide (c.expects.2 ≤ c.recv1)

/-- The present phase ends where it is complete, and the next begins (R407–R419). -/
def State.cfAdvance (s : State) (k : Nat) : Nat → Coll → State
  | 0, c => s.setColl k c
  | n + 1, c =>
    if c.phase = 5 then s.setColl k c
    else if !c.phaseDone then s.setColl k c
    else match c.phase with
      | 1 => s.cfAdvance k n { c.enter 2 with recv0 := 0, recv1 := 0 }
      | 2 =>
        if c.kind = 3 then (s.startGather k (c.enter 3)).cfAdvance k n (c.enter 3)
        else s.enterVerdict k c
      | _ => s.enterVerdict k c

/-- The engine starts the descriptor at the front of its queue (R400, R403), where its KIND is the command's or
reserved. -/
def State.cfStart (s : State) (k kind : Nat) : State :=
  let e := s.eng k
  match e.queue, e.run with
  | a :: q, none =>
    let c := s.collAt a
    if c.kind = kind ∨ c.kind = 0 ∨ c.kind > 5 then
      let s := s.upEng k fun e => { e with queue := q }
      if s.collOk c then
        let c := c.enter (if c.reduces then 1 else if c.kind = 2 then 3 else 4)
        (s.setColl k c).cfAdvance k 4 c
      else s.cfEnd k c 6
    else s
  | _, _ => s

/-! ## Segments -/

/-- A field of a segment (R404). -/
def segAt (b : List Byte) (o n : Nat) : Nat := leAt b o n

/-- Whether a segment carries no reserved value and is as long as it says (R404). -/
def segOk (b : List Byte) : Bool :=
  let ty := segAt b 0x0B 1
  let cnt := segAt b 0x0E 2
  decide (ty ≤ 4) && decide (segAt b 0x0A 1 < 8) && segAt b 0x15 3 == 0 && decide (segAt b 0x18 2 < 2)
  && segAt b 0x1A 6 == 0 && decide (1 ≤ cnt) && decide (cnt ≤ if ty = 1 then 56 else 2016)
  && b.length == 32 + (if ty = 1 then 36 * cnt else cnt)
  && (ty != 4 || segAt b 0 8 == 0)

/-- Whether a segment belongs to a running collective. -/
def Coll.owns (c : Coll) (b : List Byte) : Bool :=
  segAt b 0 4 == c.collid && segAt b 4 4 == c.step && segAt b 0x0A 1 == c.rerun

/-- Count a segment as stray. -/
def State.stray (s : State) (k : Nat) : State := s.inc F.CF_STRAY_SEGMENTS 1 k

/-- The key of a segment: type, chunk (or round, or pair entry), sender and offset. -/
def segKey (b : List Byte) : Nat :=
  ((segAt b 0x0B 1 * 65536 + segAt b 0x0C 2) * 65536 + segAt b 0x08 2) * 2 ^ 40 + segAt b 0x10 5

/-- The pass of the ring a segment belongs to: how often this copy's sender has sent it before, or the second pass for
the chunk that comes only in the gather (R408, R415). -/
def Coll.passOf (c : Coll) (b : List Byte) : Nat :=
  let ty := segAt b 0x0B 1
  if 2 ≤ ty then 0
  else if segAt b 0x0C 2 = c.before 1 then 1
  else min 1 (aget 0 c.copies (2 * segKey b + segAt b 0x18 1))

/-- A segment taken or discarded as the second copy (R418): the collective with the copy counted, and whether the
segment is to be placed. -/
def State.takeCopy (s : State) (k : Nat) (c : Coll) (b : List Byte) (pass : Nat) : State × Coll × Bool :=
  let c := { c with copies := aadd c.copies (2 * segKey b + segAt b 0x18 1) 1 }
  let key := 2 * segKey b + pass
  if aget 0 c.taken key = 1 then ((if c.replica then s.inc F.CF_DUPLICATES_SEGMENTS 1 k else s.stray k), c, false)
  else
    let s := if !c.replica then s
      else if segAt b 0x18 1 = 1 then s.inc F.CF_BACKUP_TAKEN_SEGMENTS 1 k else s.inc F.CF_PRIMARY_TAKEN_SEGMENTS 1 k
    (s, { c with taken := aput 0 c.taken key 1 }, true)

/-- The header a rank puts on a segment it sends on (R404, R418). -/
def reHead (c : Coll) (b : List Byte) (body : List Byte) : List Byte :=
  segHead c (segAt b 0x0B 1) (segAt b 0x0C 2) (segAt b 0x0E 2) (segAt b 0x10 5) ++ body

/-- Scales received (R408): the maximum with this rank's own goes on; a final chunk is agreed and goes round. -/
def State.placeScales (s : State) (k : Nat) (c : Coll) (b : List Byte) (pass : Nat) : State × Coll :=
  let ch := segAt b 0x0C 2
  let o := segAt b 0x10 5
  let d := b.drop 32
  let n := d.length
  if pass = 0 then
    let raw := (List.range n).foldl (fun m i =>
      let g := ch * c.blocks + o + i
      aput 0 m g (max (aget 0 m g) (byteAt d i))) c.raw
    let c := { c with raw := raw, recv0 := c.recv0 + n }
    let out := c.rawBytes ch o n
    let s := s.cfSend k c c.next true (reHead c b out)
    if ch = c.r then s.agree k c ch o out else (s, c)
  else
    let s := if ch = c.next then s else s.cfSend k c c.next true (reHead c b d)
    let (s, c) := s.agree k c ch o d
    (s, { c with recv1 := c.recv1 + n })

/-- A block kept by its owner or from the gather: its values written, a wrong CONTRIB a residue failure, its OVF and
EXCESS into the status (R409, R413, R415). -/
def State.keepBlock (s : State) (k : Nat) (c : Coll) (ch i b : Nat) : State × Coll :=
  let bad := wbContrib b != c.n
  let s := if bad then s.inc F.CF_RESIDUE_FAILS_COUNT 1 k else s
  let c := if bad then c.flag 1 else c
  let e := if c.kind = 3 then ch * c.blocks * 32 + 32 * i else 32 * i
  let s := s.gpost (c.dst + e * c.es) (wbValues c.f32 b) 4 k
  let c := if ch = c.r && wbOvf b then { c.flag 4 with excess := max c.excess (wbExcess b) } else c
  (s, if ch = c.r then { c with own := aput 0 c.own i b } else c)

/-- Reduction blocks received (R409, R411): added and sent on, or kept; each block in turn. -/
def State.placeReduce (s : State) (k : Nat) (c : Coll) (ch : Nat) : List Nat → Nat → State × Coll × List Byte
  | [], _ => (s, c, [])
  | b :: r, i =>
    let (s, b', bad) := s.adder k c (ch * c.blocks + i) b
    let c := if bad then c.flag 1 else c
    let (s, c) := if ch = c.r then s.keepBlock k c ch i b' else (s, c)
    let (s, c, l) := s.placeReduce k c ch r (i + 1)
    (s, c, leBytes b' 36 ++ l)

/-- Gathered blocks received (R415): checked by step 1 of R411 and written. -/
def State.placeGather (s : State) (k : Nat) (c : Coll) (ch : Nat) : List Nat → Nat → State × Coll
  | [], _ => (s, c)
  | b :: r, i =>
    let bad := !wbCheck b (c.scale (ch * c.blocks + i))
    let s := if bad then s.inc F.CF_RESIDUE_FAILS_COUNT 1 k else s
    let c := if bad then c.flag 1 else c
    let (s, c) := s.keepBlock k c ch i b
    s.placeGather k c ch r (i + 1)

/-- The wire blocks of a segment's body. -/
def segBlocks (d : List Byte) (n : Nat) : List Nat := (List.range n).map fun i => leAt d (36 * i) 36

/-- Whether a segment of a running collective can be placed now: its phase has begun, this rank's own source blocks
are in hand and what is to be sent on finds room (R409, R440). -/
def State.canPlace (s : State) (k : Nat) (c : Coll) (b : List Byte) : Bool :=
  let ty := segAt b 0x0B 1
  let ch := segAt b 0x0C 2
  let pass := c.passOf b
  let last := segAt b 0x10 5 + segAt b 0x0E 2
  let need := (c.place ch * c.blocks + last) * c.per
  let copies := if c.replica then 2 else 1
  let room := s.fwdRoom k (copies * b.length)
  match ty with
  | 0 => c.phase != 1 || (room && (pass != 0 || decide (need ≤ c.read)))
  | 1 => c.phase == 5 || (if pass = 0 then (c.phase == 2 && decide (need ≤ c.read) && room) else c.phase == 3 && room)
  | 2 => c.kind != 2 || c.phase == 5 || room
  | _ => true

/-- Whether a segment has a place in its collective: a type of its phases, the sender and range it should have. -/
def Coll.fits (c : Coll) (b : List Byte) : Bool :=
  let ty := segAt b 0x0B 1
  let ch := segAt b 0x0C 2
  let last := segAt b 0x10 5 + segAt b 0x0E 2
  let prev := segAt b 0x08 2 == c.before 1
  match ty with
  | 0 => c.reduces && prev && decide (ch < c.n) && decide (last ≤ c.blocks) && (c.passOf b == 0 || ch != c.r)
  | 1 => c.reduces && prev && decide (ch < c.n) && decide (last ≤ c.blocks)
          && (c.passOf b == 0 || (c.kind == 3 && ch != c.r))
  | 2 => (c.kind == 2 && prev && decide (ch < c.n) && ch != c.r && decide (last ≤ c.nelem)) || c.maps
  | _ => decide (ch < c.rounds) && segAt b 0x08 2 == c.before (2 ^ ch)

/-- Data received (R414, R416): written at its rank's place and sent on, or under its map entry. -/
def State.placeData (s : State) (k : Nat) (c : Coll) (b : List Byte) : State × Coll :=
  let ch := segAt b 0x0C 2
  let o := segAt b 0x10 5
  let d := b.drop 32
  if c.kind = 2 then
    let s := s.gpost (c.dst + ch * c.nelem + o) d 4 k
    let s := if ch = c.next then s else s.cfSend k c c.next true (reHead c b d)
    (s, { c with recv0 := c.recv0 + d.length })
  else match (c.pair 1 (segAt b 0x08 2)).drop ch with
    | [] => (s, c.flag 5)
    | e :: _ =>
      if o + d.length > e.2.2.1 ∨ (d.length < 2016 ∧ o + d.length ≠ e.2.2.1) then (s, c.flag 5)
      else (s.gpost (c.dst + e.2.2.2 + o) d 4 k, { c with recv0 := c.recv0 + d.length })

/-- A segment of the running collective is placed. -/
def State.placeSeg (s : State) (k : Nat) (c : Coll) (b : List Byte) : State :=
  let ty := segAt b 0x0B 1
  if !c.fits b then (if c.maps && ty == 2 then s.setColl k (c.flag 5) else s.stray k)
  else
    let pass := c.passOf b
    let (s, c, new) := s.takeCopy k c b pass
    if !new then s.setColl k c
    else if ty = 3 then
      let c := { c with recs := c.recs ++ [(segAt b 0x0C 2, b.drop 32)] }
      if c.phase = 5 then s.verdictRounds k 12 c else s.setColl k c
    else if c.phase = 5 then s.setColl k c
    else
      let n := segAt b 0x0E 2
      let ch := segAt b 0x0C 2
      let o := segAt b 0x10 5
      let (s, c) := match ty with
        | 0 => if c.phase = 1 then s.placeScales k c b pass else (s, c)
        | 1 =>
          if pass = 0 then
            let (s, c, out) := s.placeReduce k c ch (segBlocks (b.drop 32) n) o
            let c := { c with recv0 := c.recv0 + n }
            (if ch = c.r then s else s.cfSend k c c.next true (reHead c b out), c)
          else
            let (s, c) := s.placeGather k c ch (segBlocks (b.drop 32) n) o
            let s := if ch = c.next then s else s.cfSend k c c.next true (reHead c b (b.drop 32))
            (s, { c with recv1 := c.recv1 + n })
        | _ => s.placeData k c b
      s.cfAdvance k 4 c

/-! ## Grid channels -/

/-- A channel beyond its registers. -/
def EngX.chan (e : EngX) (c : Nat) : ChanX := aget {} e.chans c
/-- Change a channel. -/
def State.upChan (s : State) (k c : Nat) (f : ChanX → ChanX) : State :=
  s.upEng k fun e => { e with chans := aput {} e.chans c (f (e.chan c)) }
/-- KIND of a channel that is enabled, 0 otherwise. -/
def State.chanKind (s : State) (k c : Nat) : Nat :=
  if s.rd F.CF_CHAN_A_EN k c = 1 then s.rd F.CF_CHAN_A_KIND k c else 0
/-- Bytes of a channel in a buffer. -/
def chanBytes (l : List (Nat × List Byte)) (c : Nat) : List Byte := (l.filter fun e => e.1 == c).flatMap (·.2)
/-- Drop n bytes of a channel from a buffer. -/
def dropChan (c : Nat) : Nat → List (Nat × List Byte) → List (Nat × List Byte)
  | _, [] => []
  | n, e :: r =>
    if e.1 ≠ c then e :: dropChan c n r
    else if e.2.length ≤ n then dropChan c (n - e.2.length) r
    else (c, e.2.drop n) :: r

/-- A message on VC 1 queued at a port (R435). -/
def State.vc1 (s : State) (k dst : Nat) (body : List Byte) : State :=
  s.upPort k fun p => { p with txq := p.txq ++ [{ seq := 0, vc := 1, dst := dst, body := body, tries := 0 }] }

/-- The share of the delivery buffer of each enabled channel of kinds 3 and 4 (R438). -/
def State.chanShare (s : State) (k : Nat) : Nat :=
  let n := ((List.range 16).filter fun c => s.chanKind k c == 3 || s.chanKind k c == 4).length
  2 ^ 20 / max 1 n / 64 * 64

/-- Grant a channel's peer what its share now holds free, in a running count (R438). -/
def State.chanGrant (s : State) (k c : Nat) : State :=
  if s.chanKind k c = 3 ∨ s.chanKind k c = 4 then
    let x := (s.eng k).chan c
    let g := x.passed + s.chanShare k
    if g > x.given then
      (s.upChan k c fun x => { x with given := g }).vc1 k (s.rd F.CF_CHAN_A_PEER k c)
        ([2, 0, 0, 0] ++ leBytes c 1 ++ leBytes 0 3 ++ leBytes (g % 2 ^ 32) 4)
    else s
  else s

/-- n bytes of a channel leave the delivery buffer. -/
def State.chanPass (s : State) (k c n : Nat) : State :=
  let s := s.inc F.CF_GRID_OUT_BYTES_BYTES n k
  let s := s.upEng k fun e => { e with deliver := dropChan c n e.deliver }
  (s.upChan k c fun x => { x with passed := x.passed + n }).chanGrant k c

/-- A TO_SLIP channel stops on a refusal (R399). -/
def State.chanStop (s : State) (k c code : Nat) : State :=
  let t := s.rd F.CF_CHAN_A_TILE k c
  let s := (s.wr F.CF_CHAN_A_ERR code k c).upChan k c fun x => { x with asked := false, recNo := none }
  s.event 11 4 k 0xA0 (code + 2 ^ 8 * t + 2 ^ 20 * s.rd F.CF_CHAN_A_SLIP k c)

/-- CHUNK of a TO_SLIP channel. -/
def State.chanChunk (s : State) (k c : Nat) : Nat := s.rd F.CF_CHAN_B_BASE k c % 2 ^ 20

/-- Whether another TO_SLIP channel of the engine waits for a credit of the same tile (R399). -/
def State.chanBusy (s : State) (k c : Nat) : Bool :=
  (List.range 16).any fun d => d != c && s.chanKind k d == 4 && s.rd F.CF_CHAN_A_TILE k d == s.rd F.CF_CHAN_A_TILE k c
    && ((s.eng k).chan d).asked

/-- A TO_SLIP channel goes on (R399): with data at the front it asks for a credit; with a credit and its bytes in hand
it fills and closes it. -/
def State.chanPump (s : State) (k c : Nat) : State :=
  let x := (s.eng k).chan c
  let t := s.rd F.CF_CHAN_A_TILE k c
  let n := s.chanChunk k c
  let d := chanBytes (s.eng k).deliver c
  if s.chanKind k c ≠ 4 ∨ s.rd F.CF_CHAN_A_ERR k c ≠ 0 then s
  else match x.recNo with
    | some rec =>
      if d.length < n then s
      else
        let (s, code) := s.credFill t rec 5 k 0 ((cuts n 64).map fun p => (d.drop p.1).take p.2)
        if code = 0 then (s.upChan k c fun x => { x with recNo := none }).chanPass k c n
        else s.chanStop k c code
    | none =>
      if d.isEmpty || x.asked || s.chanBusy k c then s
      else match s.credRefusal t (s.rd F.CF_CHAN_A_SLIP k c) n 5 with
        | 0 => (s.upChan k c fun x => { x with asked := true }).credQueue t (s.rd F.CF_CHAN_A_SLIP k c) n 5 k
        | code => s.chanStop k c code

/-- Every TO_SLIP channel of an engine goes on. -/
def State.chanPumpAll (s : State) (k : Nat) : State := (List.range 16).foldl (fun s c => s.chanPump k c) s

/-- A credit of class 5 is granted to an engine: its channel takes the record, fills it where it can, and asks for the
next (R399). -/
def State.chanGranted (s : State) (k t slip rec : Nat) : State :=
  match (List.range 16).find? fun c => ((s.eng k).chan c).asked && s.rd F.CF_CHAN_A_TILE k c == t
      && s.rd F.CF_CHAN_A_SLIP k c == slip with
  | none => s
  | some c => ((s.upChan k c fun x => { x with asked := false, recNo := some rec }).chanPump k c).chanPumpAll k

/-- Channel data received (R396): held in the delivery buffer, or stray. -/
def State.chanSegment (s : State) (k : Nat) (b : List Byte) : State :=
  let c := segAt b 0x0C 2
  let ok := decide (c < 16) && (s.chanKind k c == 3 || s.chanKind k c == 4)
    && s.rd F.CF_CHAN_A_PEER k c == segAt b 0x08 2
  if ok then (s.upEng k fun e => { e with deliver := e.deliver ++ [(c, b.drop 32)] }).chanPump k c
  else s.stray k

/-- A flit delivered by a crossing into a channel (R396): TO_MEM writes it on from its position, TO_FABRIC holds it. -/
def State.chanDeliver (s : State) (k c key : Nat) (d : List Byte) : State :=
  let s := s.inc F.CF_GRID_IN_BYTES_BYTES d.length k
  let s := s.upEng k fun e => { e with resv := asub e.resv (1024 + key) d.length }
  match s.chanKind k c with
  | 1 =>
    let size := s.rd F.CF_CHAN_A_SIZE k c * 4096
    let p := ((s.eng k).chan c).pos
    let s := s.gpost (s.rd F.CF_CHAN_B_BASE k c / 4096 * 4096 + p) d 4 k
    s.upChan k c fun x => { x with pos := if p + d.length ≥ size then p + d.length - size else p + d.length }
  | 2 => s.upEng k fun e => { e with gridIn := e.gridIn ++ [(c, d)] }
  | _ => s

/-- A crossing's take from a FROM_FABRIC channel: its next 64 bytes, where they are in hand (R396, R398). -/
def State.chanTake (s : State) (k c key : Nat) : State × Option (List Byte) :=
  let d := chanBytes (s.eng k).deliver c
  let s := s.upEng k fun e => { e with owed := asub e.owed (16 * (1024 + key) + c) 64 }
  if s.chanKind k c = 3 ∧ 64 ≤ d.length then (s.chanPass k c 64, some (d.take 64)) else (s, none)

/-- Whether a running crossing uses a channel. -/
def State.chanRunning (s : State) (k c : Nat) : Bool :=
  s.hub.running.any fun x => s.chanUse k c x.part x.num != (0, 0)

/-- A write of a channel register (R396, R399): refused while a running crossing uses the channel. -/
def State.chanWrite (s : State) (k c : Nat) (second : Bool) (v : Nat) : State :=
  if s.chanRunning k c then s
  else if second then s.wr F.CF_CHAN_B_BASE v k c
  else
    let was := s.rd F.CF_CHAN_A_EN k c
    let s := [F.CF_CHAN_A_KIND, F.CF_CHAN_A_EN, F.CF_CHAN_A_PEER, F.CF_CHAN_A_TILE, F.CF_CHAN_A_SLIP, F.CF_CHAN_A_SIZE].foldl
      (fun s f => s.wr f (bits v f.lo f.width) k c) s
    if s.rd F.CF_CHAN_A_EN k c = 1 then
      let s := s.wr F.CF_CHAN_A_ERR 0 k c
      let s := if was = 0 then s.upChan k c fun _ => {} else s
      (s.chanGrant k c).chanPump k c
    else s

/-- An engine arrives at a crossing's barrier (R397): grid-in space for every delivery reserved, every byte of its
takes in hand, beyond those that crossings it arrived at before are still to take. -/
def State.engArrive (s : State) (k part c : Nat) : State :=
  let e := s.eng k
  let uses := (List.range 16).map fun i => s.chanUse k i part c
  let need := uses.foldl (fun n u => n + u.1) 0
  let held := (e.gridIn.foldl (fun n x => n + x.2.length) 0) + (e.resv.foldl (fun n x => n + x.2) 0)
  let owed := fun i => e.owed.foldl (fun n x => if x.1 % 16 = i then n + x.2 else n) 0
  let takes := (List.range 16).all fun i =>
    let n := (s.chanUse k i part c).2
    n == 0 || decide (owed i + n ≤ (chanBytes e.deliver i).length)
  if decide (held + need ≤ 2 ^ 20) && takes && !e.arrived.contains (256 * part + c) then
    match s.barOf part c with
    | none => s
    | some b => (s.gridStart.arrive b 4).upEng k fun e =>
        { e with arrived := e.arrived ++ [256 * part + c], resv := aadd e.resv (256 * part + c) need,
                 owed := (List.range 16).foldl (fun m i => aadd m (16 * (256 * part + c) + i) (s.chanUse k i part c).2) e.owed }
  else s

/-! ## The engine's events -/

/-- Link words of a VC 0 frame that carries a segment. -/
def frameWords (n : Nat) : Nat := (12 + n + 63) / 64

/-- A payload that the port had received has been acted on: its frame's words are free (R437). -/
def State.actedOn (s : State) (k vc : Nat) (b : List Byte) : State :=
  if (s.port k).inbox.contains (vc, b) then
    let n := frameWords b.length
    s.upPort k fun p => { p with inbox := dropFirst (fun x => x == (vc, b)) p.inbox,
                                 freed0 := if vc = 0 then (p.freed0 + n) % 2 ^ 32 else p.freed0,
                                 freed1 := if vc = 1 then (p.freed1 + n) % 2 ^ 32 else p.freed1 }
  else s

/-- SEGMENT_RECEIVE (R404): a segment is placed, discarded as stray, or waits in the port until it can be placed. A
segment that the port had received frees its words (R437). -/
def State.segReceive (s : State) (k : Nat) (b : List Byte) : State :=
  let done := fun (s : State) =>
    let s := s.inc F.CF_RX_BYTES_BYTES b.length k
    s.actedOn k 0 b
  if !segOk b then (done s).stray k
  else if segAt b 0x0B 1 = 4 then (done s).chanSegment k b
  else match (s.eng k).run with
    | none => (done s).stray k
    | some c =>
      if !c.owns b then (done s).stray k
      else if c.fits b && !s.canPlace k c b then s
      else (done s).placeSeg k c b

/-- A spoke read returns (R394, R408, R409): the next source block of the phase, or the error response that takes the
rank to the verdict with MEM_UNCORR. -/
def State.spokeRead (s : State) (k : Nat) (e : Ecc) : State :=
  match (s.eng k).run with
  | none => s
  | some c =>
    if c.phase = 5 ∨ c.reads ≤ c.read then s
    else
      let a := c.readAddr c.read
      if !s.servesRead a 64 4 k then s else
      let s := (s.gcountRead a 64 fun _ => false).chargeRead a 64 4 fun _ => true
      let (s, bad) := s.gcheck a 4 e
      if bad then s.enterVerdict k (c.flag 3)
      else
        let (s, c) := s.afterRead k { c with read := c.read + 1 }
        s.cfAdvance k 4 c

/-- The lowest rank a phase still awaits (R418): the ring's predecessor, or the lowest of an exchange. -/
def Coll.awaited (c : Coll) : Nat :=
  if c.phase = 4 then
    let done := fun (e : Nat × Nat × Nat × Nat) (j : Nat) => (cuts e.2.2.1 2016).all fun x =>
      aget 0 c.taken (2 * (((2 * 65536 + j) * 65536 + e.1) * 2 ^ 40 + x.1)) == 1
    ((List.range c.n).find? fun rank => rank != c.r &&
      ((List.range (c.pair 1 rank).length).any fun j => !done ((c.pair 1 rank).getD j (0, 0, 0, 0)) j)).getD c.r
  else if c.recv0 < c.expects.1 ∨ c.recv1 < c.expects.2 then c.before 1
  else c.r

/-- The running collective of an engine ends as ABORTED, and its queue is discarded (R424). -/
def State.cfAbort (s : State) (k : Nat) : State :=
  let s := (s.upEng k fun e => { e with queue := [] }).cfSync k
  match (s.eng k).run with
  | none => s
  | some c => s.cfEnd k c 8

/-! ## Commands -/

/-- CF_POST (R400): a descriptor's address is queued, or discarded when eight are. -/
def execCfPost (k : PortId) (addr : BitVec 48) (s : State) : Host.Outcome State Fault Refusal :=
  .next (if (s.eng k.val).queue.length ≥ 8 then s.wr F.CF_STATUS_DROPPED 1 k.val
    else (s.upEng k.val fun e => { e with queue := e.queue ++ [addr.toNat] }).cfSync k.val)

/-- REDUCE_SCATTER (R409). -/
def execReduceScatter (k : PortId) (s : State) : Host.Outcome State Fault Refusal := .next (s.cfStart k.val 1)

/-- ALL_GATHER (R414). -/
def execAllGather (k : PortId) (s : State) : Host.Outcome State Fault Refusal := .next (s.cfStart k.val 2)

/-- ALL_REDUCE (R415). -/
def execAllReduce (k : PortId) (s : State) : Host.Outcome State Fault Refusal := .next (s.cfStart k.val 3)

/-- PERMUTE (R416). -/
def execPermute (k : PortId) (s : State) : Host.Outcome State Fault Refusal := .next (s.cfStart k.val 4)

/-- ALL_TO_ALL (R417). -/
def execAllToAll (k : PortId) (s : State) : Host.Outcome State Fault Refusal := .next (s.cfStart k.val 5)

/-- SEGMENT_RECEIVE (R404). -/
def execSegmentReceive (k : PortId) (seg : List (BitVec 8)) (s : State) : Host.Outcome State Fault Refusal :=
  .next (s.segReceive k.val seg)

/-- PHASE_DEADLINE_EXPIRE (R418): a data phase ends at its deadline with LATE. -/
def execPhaseDeadlineExpire (k : PortId) (s : State) : Host.Outcome State Fault Refusal :=
  .next (match (s.eng k.val).run with
    | none => s
    | some c =>
      if c.phase = 5 then s
      else
        let l := c.awaited + 1
        s.enterVerdict k.val { c.flag 0 with late := if c.late = 0 then l else min c.late l })

/-- VERDICT_DEADLINE_EXPIRE (R420). -/
def execVerdictDeadlineExpire (k : PortId) (s : State) : Host.Outcome State Fault Refusal :=
  .next (match (s.eng k.val).run with
    | none => s
    | some c => if c.phase = 5 then s.cfEnd k.val c 5 else s)

/-- CF_ABORT (R424). -/
def execCfAbort (k : PortId) (s : State) : Host.Outcome State Fault Refusal := .next (s.cfAbort k.val)

/-- CF_CHAN_WRITE (R396). -/
def execCfChanWrite (k : PortId) (chan : BitVec 4) (second : Bool) (value : BitVec 64) (s : State) :
    Host.Outcome State Fault Refusal := .next (s.chanWrite k.val chan.toNat second value.toNat)

/-- ENGINE_BARRIER_ARRIVE (R397). -/
def execEngineBarrierArrive (k : PortId) (part : PartId) (c : BitVec 8) (s : State) : Host.Outcome State Fault Refusal :=
  .next (s.engArrive k.val part.val c.toNat)

/-- SPOKE_READ_COMPLETE (R394). -/
def execSpokeReadComplete (k : PortId) (ecc : Ecc) (s : State) : Host.Outcome State Fault Refusal :=
  .next (s.spokeRead k.val ecc)

end Sys2Proof.Machine
end

