-- ==== Sys2Proof/Machine/Fabric.lean ====
section
/-! DEFINITION. The crossing fabric (R246–R267): the router graph, timetable entries, sending reads, takes, ejects,
misses, and what a manifest crossing moves (R300–R304). -/

namespace Sys2Proof.Machine

/-! ## The graph -/

/-- The tile and its input port that an output of a router joins (R246). -/
def hop (t o : Nat) : Option (Nat × Nat) :=
  let x := tileX t
  let y := tileY t
  match o with
  | 1 => if y < 47 then some (t + 64, 2) else none
  | 2 => if 0 < y then some (t - 64, 1) else none
  | 3 => if x < 63 then some (t + 1, 4) else none
  | 4 => if 0 < x then some (t - 1, 3) else none
  | 5 => if y % 8 = 0 ∧ y ≤ 32 then some (t + 512, 6) else none
  | 6 => if y % 8 = 0 ∧ 8 ≤ y ∧ y ≤ 40 then some (t - 512, 5) else none
  | 7 => if x % 8 = 0 ∧ x ≤ 48 then some (t + 8, 8) else none
  | 8 => if x % 8 = 0 ∧ 8 ≤ x ∧ x ≤ 56 then some (t - 8, 7) else none
  | _ => none

/-- The unit at an edge port (R247): a quay, or an engine as 24 + k. -/
def edgeUnit (t o : Nat) : Option Nat :=
  let x := tileX t
  let y := tileY t
  if o = 4 ∧ x = 0 then some (y / 4)
  else if o = 3 ∧ x = 63 then some (y / 4 + 12)
  else if o = 1 ∧ y = 47 ∧ 8 ≤ x ∧ x < 56 ∧ x % 8 < 4 then some (24 + (x / 8 - 1))
  else if o = 2 ∧ y = 0 ∧ 8 ≤ x ∧ x < 56 ∧ x % 8 < 4 then some (24 + 6 + (x / 8 - 1))
  else none

/-- Whether a router has a port. -/
def hasPort (t p : Nat) : Bool := p == 9 || (hop t p).isSome || (edgeUnit t p).isSome

/-- The inject cost I (R250). -/
def State.injectTc (s : State) : Nat := if s.isB0 then 2 else 3
/-- The cost of a hop over an output (R250): X for an express link. -/
def State.hopTc (s : State) (o : Nat) : Nat := if 5 ≤ o then (if s.isB0 then 5 else 6) else 1
/-- The turn delay T (R250). -/
def State.turnTc (s : State) : Nat := if s.isB0 then 0 else 1
/-- The eject cost E (R250). -/
def State.ejectTc (s : State) : Nat := if s.isB0 then 1 else 2

/-- Whether a port lies in the y dimension (R251). -/
def portY (p : Nat) : Bool := p == 1 || p == 2 || p == 5 || p == 6

/-- Whether an input and an output count as of one dimension (R251): L and the edge ports count as both. -/
def straight (t p o : Nat) : Bool := p == 9 || o == 9 || (hop t p).isNone || (hop t o).isNone || portY p == portY o

/-! ## Timetables -/

/-- The input that feeds output o (1–9) in an entry (R259). -/
def State.sel (s : State) (t e o : Nat) : Nat := bits (s.rd F.TT_OUT t e) (4 * (o - 1)) 4

/-- The entry that holds a crossing cycle, and the cycle in which it began (R260). -/
def State.entryAt (s : State) (t cycle : Nat) : Nat → Nat → Nat → Option (Nat × Nat)
  | 0, _, _ => none
  | n + 1, e, b =>
    let next := b + s.rd F.TT_DUR t e + 1
    if cycle < next then some (e, b)
    else if s.rd F.TT_LAST t e = 1 then none
    else s.entryAt t cycle n ((e + 1) % 4096) next

/-- Whether an entry's connections take flits in a cycle (R259). -/
def State.paceOn (s : State) (t e b cycle : Nat) : Bool := s.rd F.TT_PACE t e == 0 || (cycle - b) % 4 == 0

/-- A use of a port in the present crossing: how many came before it, and the count moved on. -/
def State.useOf (s : State) (t key : Nat) : State × Nat :=
  let n := aget 0 (s.tile t).moved key
  (s.upTile t fun x => { x with moved := aadd x.moved key 1 }, n)

/-- Whether the entry that a router holds has lasted its DUR + 1 cycles (R260). -/
def State.entryOver (s : State) (t : Nat) : Bool :=
  decide ((s.tile t).rtStart + s.rd F.TT_DUR t (s.tile t).rtEntry + 1 ≤ s.rd F.XT_RSTATUS_CYCLE t)

/-! ## Sending reads -/

/-- The row a response slot serves (R300): the flit's bytes and their offset, or none for an empty slot. -/
def State.serveOff (s : State) (t m : Nat) (x : XferSlot) : Option Nat :=
  let e := s.ldn (spad t (64 * s.rd F.MF_MT_AREA_SSTAGE t m + x.peer * s.mfSB t m + 4 * x.slot)) 4
  if e = nullId then none
  else some (64 * s.rd F.MF_MT_AREA_SERVE t m + e % max 1 (s.rd F.MF_MT_BOUND_PER t m) * s.mfRow t m + 64 * x.part)

/-- The gradient row's flit that a requester sends in a slot (R303): its scratchpad offset, or none where the slot is
empty. -/
def State.gradOff (s : State) (t m : Nat) (x : XferSlot) : Option Nat :=
  match (s.tile t).manRun with
  | none => none
  | some d =>
    if d.dead ∨ d.kind ≠ 2 then none
    else match d.slots.find? fun y => y.2.1 == x.peer && y.2.2.1 == x.slot with
      | none => none
      | some y =>
        let c := aget 0 (s.tile t).tails d.inSlip + y.1 * s.mfGrad t m + 64 * x.part
        some (s.slipOff t d.inSlip (c % 2 ^ 32))

/-- What a sending read of a manifest crossing reads: an offset, or an empty slot, with the count of rows it ends. -/
def State.mfSendOff (s : State) (t m : Nat) (x : XferSlot) : State × Option Nat :=
  match x.kind with
  | 1 => (s, some (64 * s.rd F.MF_MT_AREA_STAGE t m + x.peer * s.mfSB t m + 64 * x.part))
  | 2 =>
    let o := s.serveOff t m x
    (if o.isSome && x.part + 1 == s.mfRow t m / 64 then s.inc F.MF_SERVED_ROWS 1 t else s, o)
  | _ =>
    let o := s.gradOff t m x
    (if o.isSome && x.part + 1 == s.mfGrad t m / 64 then s.inc F.MF_REV_ROWS_ROWS 1 t else s, o)

/-- A flit comes to the L input of a router I tc after its sending read began (R250, R260). -/
def State.inject (s : State) (t : Nat) (void : Bool) (data : Nat) : State :=
  let f : Flit := { part := s.rd F.XT_RCFG_PART t, cross := s.rd F.XT_RSTATUS_CROSSING t, void := void, held := false,
                    data := data, bad := none }
  s.upTile t fun x => { x with inputs := x.inputs ++ [⟨9, s.spine + s.injectTc, false, f⟩] }

/-- Bytes leave scratchpad into the router's L input (R242, R243, R260): an uncorrectable word sends nothing, and the
slot stays empty. -/
def State.injectRead (s : State) (t off : Nat) (e : Ecc) : State :=
  let (s, bad) := s.readCheck t [(off, 64)] 2 e
  if bad.isSome then s else s.inject t false (s.ldn (spad t off) 64)

/-- The empty flit of an empty slot (R300). -/
def State.injectVoid (s : State) (t : Nat) : State := s.inject t true 0

/-- A sending read from a slip (R255, R263): consecutive bytes from the tail at the crossing's start; beyond the head,
or from a slip that is off, nothing is sent and the tile halts. -/
def State.slipRead (s : State) (t slip : Nat) (e : Ecc) : State :=
  let x := s.tile t
  let tail := aget 0 x.tails slip
  let n := aget 0 x.sent slip
  if s.slipSize t slip = 0 ∨ s.slipSize t slip < s.slipHeld t slip ∨ (s.slipHead t slip + 2 ^ 32 - tail) % 2 ^ 32 < n + 64 then
    s.halt t 0x04 7 (s.rd F.T_PC_ADDR t) 0 slip
  else (s.upTile t fun x => { x with sent := aadd x.sent slip 64 }).injectRead t (s.slipOff t slip ((tail + n) % 2 ^ 32)) e

/-- SENDING_READ (R260, R264): the read for the take from L in a crossing cycle, I tc before it. -/
def State.sendingRead (s : State) (t cycle : Nat) (ecc : Ecc) : State :=
  let c := s.rd F.XT_RSTATUS_CROSSING t
  match s.entryAt t cycle 4096 (s.rd F.DIR_FIRST t c) 0 with
  | none => s
  | some (e, b) =>
    let used := (List.range 9).any fun o => s.sel t e (o + 1) == 9
    let again := match (s.tile t).lastRead with
      | some l => decide (cycle ≤ l)
      | none => false
    if s.frozen || s.rd F.XT_RSTATUS_RUN t == 0 || !used || !s.paceOn t e b cycle || again
        || s.tstate t == 4 || cycle != s.rd F.XT_RSTATUS_CYCLE t + s.injectTc then s
    else
      let s := s.upTile t fun x => { x with lastRead := some cycle }
      if s.rd F.TT_RAW t e = 1 then
        let o := 64 * (s.tile t).rawTx
        let s := s.upTile t fun x => { x with rawTx := x.rawTx + 1 }
        if o ≥ 0x6_0000 then s else s.injectRead t o ecc
      else match s.mfEntry t c with
        | some (m, _) =>
          let (s, k) := s.useOf t 9
          let (s, o) := s.mfSendOff t m (s.xferSlot t c 9 k)
          match o with
          | some off => s.injectRead t off ecc
          | none => s.injectVoid t
        | none => s.slipRead t (s.rd F.TT_ISLIP t e) ecc

/-! ## Takes -/

/-- A miss at a take onto L (R263). -/
def State.crossMiss (s : State) (t detail : Nat) : State :=
  (s.inc F.XT_MISSES_COUNT 1 t).halt t 0x0C 7 (s.rd F.T_PC_ADDR t) detail (s.rd F.XT_RSTATUS_CYCLE t)

/-- A take onto L (R251, R263, R266): a good flit is on its way into scratchpad. -/
def State.takeL (s : State) (t e : Nat) (f : Option Flit) : State :=
  let c := s.rd F.XT_RSTATUS_CROSSING t
  let raw := s.rd F.TT_RAW t e == 1
  let slip := s.rd F.TT_ESLIP t e
  let cls := s.slipClass t slip
  let man := (s.mfEntry t c).isSome && !raw
  let (s, k) := if man then s.useOf t 10 else (s, 0)
  let step := (s.tile t).rawRx
  let s := if raw then s.upTile t fun x => { x with rawRx := x.rawRx + 1 } else s
  if s.tstate t = 4 then s.inc F.XT_DROPPED_FLITS 1 t
  else match f with
    | none => s.crossMiss t 1
    | some f =>
      if f.held then s.crossMiss t 3
      else if f.part ≠ s.rd F.XT_RCFG_PART t ∨ f.cross ≠ c then s.crossMiss t 2
      else match f.bad with
        | some a => s.halt t 0x0D 7 (s.rd F.T_PC_ADDR t) 0 a
        | none =>
          if !raw && !man && cls != 1 && cls != 3 then s.crossMiss t 4
          else
            let j : Eject := { flit := f, slip := slip, raw := if raw then some (64 * step) else none,
                               man := if man then some (s.xferSlot t c 10 k) else none,
                               cross := c, cycle := s.rd F.XT_RSTATUS_CYCLE t, due := s.spine + s.ejectTc - 1 }
            s.upTile t fun x => { x with ejects := x.ejects ++ [j] }

/-- A take onto an edge port: a gradient flit to a quay (R304, R331), bytes to a grid channel (R396). -/
def State.takeEdge (s : State) (t u o : Nat) (f : Flit) : State :=
  let (s, k) := s.useOf t (16 + o)
  let x := s.xferSlot t f.cross (16 + o) k
  if f.held ∨ f.bad.isSome then s
  else if u ≥ 24 then s.chanDeliver (u - 24) (x.peer % 16) (256 * f.part + f.cross) (leBytes f.data 64)
  else if f.void then s
  else match find2 (s.quay u).lists (x.peer * 256 + f.cross) with
    | none => s
    | some l => match find2 l x.slot with
      | none => s
      | some a => s.qaccept u ⟨a + 64 * x.part, some (leBytes f.data 64), 0, x.peer, true, 0, 0⟩

/-- The flit that an edge port gives at a take (R295, R300, R319, R321, R396): a staged stream's, a manifest row's, whose
quay checks the block it read for it, a grid channel's. -/
def State.edgeFlit (s : State) (t u port : Nat) (e : Ecc) : State × Option Flit :=
  let c := s.rd F.XT_RSTATUS_CROSSING t
  let p := s.rd F.XT_RCFG_PART t
  let (s, k) := s.useOf t port
  let x := s.xferSlot t c port k
  let mk (d : Nat) (bad : Option Nat) (void : Bool) : Flit := { part := p, cross := c, void := void, held := false, data := d, bad := bad }
  if u ≥ 24 then
    let (s, d) := s.chanTake (u - 24) (x.peer % 16) (256 * p + c)
    (s, d.map fun b => mk (leVal b) none false)
  else if x.kind = 0 then
    let (s, d) := s.takeStaged u x.peer
    (s, d.map fun e => mk e.1 e.2 false)
  else match (find2 (s.quay u).lists (x.peer * 256 + c)).bind fun l => find2 l x.slot with
    | none => (s, some (mk 0 none true))
    | some a =>
      let (s, bad) := (s.gcountRead (a + 64 * x.part) 64 fun _ => false).gcheck (a + 64 * x.part) 1 e
      (s, some (if bad then mk 0 (some (a + 64 * x.part)) false else mk (s.gldn (a + 64 * x.part) 64) none false))

/-- A router checks a flit it receives (R248): a corrected one is counted, an uncorrectable one travels on withheld. -/
def State.linkCheck (s : State) (t : Nat) (f : Flit) (e : Ecc) : State × Flit :=
  if f.held then (s, f)
  else match e with
    | .ok => (s, f)
    | .corrected .. =>
      ((s.inc F.XT_LINK_ECC_CORR 1 t).upFault fun x => { x with corr := aadd x.corr (5 * 4096 + t) 1 }, f)
    | .uncorrectable .. =>
      ((s.inc F.XT_LINK_ECC_UNCORR 1 t).event 1 5 t 0x0002 (s.rd F.XT_RSTATUS_CYCLE t), { f with held := true })

/-- The flits that have come to an input in the present cycle are checked, once; those whose time is past are gone
(R248, R251). -/
def State.receive (s : State) (t port : Nat) (e : Ecc) : State :=
  let s := s.upTile t fun x => { x with inputs := x.inputs.filter fun a => decide (s.spine ≤ a.cycle + s.turnTc) }
  match (s.tile t).inputs.find? fun a => a.port == port && a.cycle == s.spine && !a.checked with
  | none => s
  | some a =>
    let (s, f) := s.linkCheck t a.flit e
    s.upTile t fun x => { x with inputs := mapFirst (fun b => b == a) (fun b => { b with checked := true, flit := f }) x.inputs }

/-- The flit that an output can take from an input in the present cycle (R251): one that came T tc ago where the output
lies in the other dimension. -/
def State.present (s : State) (t port o : Nat) : Option Flit :=
  ((s.tile t).inputs.find? fun a => a.port == port && a.cycle + (if straight t port o then 0 else s.turnTc) == s.spine).map (·.flit)

/-- One output takes a flit (R251, R260, R265): a flit withheld travels on as an empty slot. -/
def State.takeOut (s : State) (t e port o : Nat) (f : Option Flit) : State :=
  if o = 9 then s.takeL t e f
  else match f with
    | none => s
    | some f =>
      let busy := decide (5 ≤ o) && decide (0 < aget 0 (s.tile t).express o) && decide (s.spine + 1 < aget 0 (s.tile t).express o + 4)
      let s := if port ≠ 9 ∧ !f.held ∧ !busy ∧ ((hop t o).isSome ∨ (edgeUnit t o).isSome) then s.inc F.XT_PASS_FLITS_FLITS 1 t else s
      match hop t o, edgeUnit t o with
      | some (u, p), _ =>
        if busy then s.wr F.XT_RSTATUS_BADSEL 1 t
        else
          let s := if 5 ≤ o then s.upTile t fun x => { x with express := aput 0 x.express o (s.spine + 1) } else s
          s.upTile u fun x => { x with inputs := x.inputs ++ [⟨p, s.spine + s.hopTc o, false, f⟩] }
      | none, some u => s.takeEdge t u o f
      | none, none => s

/-- What the outputs of a router take from an input in the present cycle (R251, R260). -/
def State.takeFrom (s : State) (t e port : Nat) (outs : List Nat) (ecc mem : Ecc) : State :=
  if port ≥ 10 then outs.foldl (fun s o => s.takeOut t e port o none) (s.wr F.XT_RSTATUS_BADSEL 1 t)
  else if port = 9 then
    if s.rd F.XT_RSTATUS_CYCLE t < s.injectTc then
      outs.foldl (fun s o => s.takeOut t e port o none) (s.wr F.XT_RSTATUS_BADSEL 1 t)
    else
      let f := if s.tstate t = 4 then none else s.present t 9 9
      let s := if f.isSome then s.inc F.XT_INJ_FLITS_FLITS 1 t else s
      outs.foldl (fun s o => s.takeOut t e port o f) s
  else if (hop t port).isSome then outs.foldl (fun s o => s.takeOut t e port o (s.present t port o)) s
  else match edgeUnit t port with
    | none => outs.foldl (fun s o => s.takeOut t e port o none) s
    | some u =>
      let (s, f) := s.edgeFlit t u port mem
      let (s, f) := match f with
        | none => (s, none)
        | some f => let (s, f) := s.linkCheck t f ecc; (s, some f)
      outs.foldl (fun s o => s.takeOut t e port o f) s

/-- FLIT_TAKE (R248, R251, R260): in the present cycle, the flit present at an input is checked and goes onto every
output whose selector names the input; one that no output takes is lost. Once for each input and cycle. -/
def State.flitTake (s : State) (t port : Nat) (ecc mem : Ecc) : State :=
  if s.frozen ∨ aget 0 (s.tile t).took port = s.spine + 1 ∨ port = 0 then s
  else
    let e := (s.tile t).rtEntry
    let s := (s.upTile t fun x => { x with took := aput 0 x.took port (s.spine + 1) }).receive t port ecc
    let outs := ((List.range 9).map (· + 1)).filter fun o => s.sel t e o == port
    if s.rd F.XT_RSTATUS_RUN t = 0 ∨ s.paceOn t e (s.tile t).rtStart (s.rd F.XT_RSTATUS_CYCLE t) = false
        ∨ s.entryOver t = true ∨ outs = [] then s
    else s.takeFrom t e port outs ecc mem

/-! ## Ejects -/

/-- A response row's flit reaches its requester (R299): it is placed in the output slip; the last one completes the
row. -/
def State.landResponse (s : State) (t m : Nat) (x : XferSlot) (data : Nat) : State :=
  match (s.tile t).manRun with
  | none => s
  | some d =>
    match d.slots.find? fun y => y.2.1 == x.peer && y.2.2.1 == x.slot with
    | none => s
    | some y =>
      if d.dead ∨ d.kind ≠ 1 then s
      else
        let n := s.mfRow t m
        let s := s.putSlip t (d.outSlip.getD 0) ((d.outBase + y.1 * n + 64 * x.part) % 2 ^ 32) (leBytes data 64)
        if x.part + 1 = n / 64 then
          let d := { d with done := d.done ++ [y.1] }
          let s := (s.upTile t fun z => { z with manRun := some d }).inc F.MF_REQS_REQUESTS 1 t
          s.mfHead t d
        else s

/-- Half a gradient flit is added into its row (R304): on a case the 32 bytes stay and the tile halts. -/
def State.addHalf (s : State) (t off d : Nat) : State :=
  let old := s.ldn (spad t off) 32
  match lanes (fun i => fadd (lane old 32 i) (lane d 32 i)) 8 0 with
  | .error (c, _) => s.halt t 0x02 7 (s.rd F.T_PC_ADDR t) c off
  | .ok xs => s.setBytes (spad t off) (leBytes (joinLanes 32 xs) 32)

/-- Where a gradient flit is added at its destination, none for an empty slot (R303, R304). -/
def State.gradDest (s : State) (t m : Nat) (x : XferSlot) : Option Nat :=
  let e := s.ldn (spad t (64 * s.rd F.MF_MT_AREA_SSTAGE t m + x.peer * s.mfSB t m + 4 * x.slot)) 4
  if e = nullId then none
  else some (64 * s.rd F.MF_MT_AREA_GRAD t m + e % max 1 (s.rd F.MF_MT_BOUND_PER t m) * s.mfGrad t m + 64 * x.part)

/-- A gradient flit reaches its destination (R304). The engine reads the request's entry and the row: an uncorrectable
word halts the tile, and the bank cycle that reads it adds nothing (R243). SLOT and ADDR as R304 gives them for its
other halts: DEDUCED (log 158). -/
def State.landGradient (s : State) (t m : Nat) (x : XferSlot) (data : Nat) (ecc : Ecc) : State :=
  match s.gradDest t m x with
  | none => s
  | some off =>
    let entry := 64 * s.rd F.MF_MT_AREA_SSTAGE t m + x.peer * s.mfSB t m + 4 * x.slot
    let (s, bad) := s.readCheck t [(entry, 4), (off, 64)] 3 ecc
    let s := match bad with
      | some w => s.halt t 0x06 7 (s.rd F.T_PC_ADDR t) 0 w
      | none => s
    let half (s : State) (o d : Nat) : State := if bad.any fun w => decide (w / 32 = o / 32) || decide (w / 8 = entry / 8) then s else s.addHalf t o d
    (half (half s off (data % 2 ^ 256)) (off + 32) (data / 2 ^ 256)).inc F.MF_ADDS_FLITS 1 t

/-- A delivery refused because it would change code of a running tile (R239). -/
def State.landRefused (s : State) (t c : Nat) : State := s.evlog t 0x07 6 c

/-- A delivery into a class-1 slip lands (R223, R225, R239). -/
def State.landSlip (s : State) (t : Nat) (j : Eject) : State :=
  if s.slipClass t j.slip = 3 then s
  else if s.tstate t = 1 ∧ (s.slipSpan t j.slip (s.slipHead t j.slip) 64).any (fun r => s.inExec t r.1 r.2) then
    s.landRefused t j.cross
  else if s.slipFree t j.slip < 64 then s.halt t 0x03 7 (s.rd F.T_PC_ADDR t) 0 j.slip
  else ((s.putSlip t j.slip (s.slipHead t j.slip) (leBytes j.flit.data 64)).headAdd t j.slip 64).inc F.XT_EJ_FLITS_FLITS 1 t

/-- The offset of the 64 bytes that a manifest crossing's delivery would change (R299, R300, R304), if it changes any. -/
def State.manOff (s : State) (t m : Nat) (x : XferSlot) : Option Nat :=
  match x.kind with
  | 1 => some (64 * s.rd F.MF_MT_AREA_SSTAGE t m + x.peer * s.mfSB t m + 64 * x.part)
  | 2 => (s.tile t).manRun.bind fun d =>
    (d.slots.find? fun y => y.2.1 == x.peer && y.2.2.1 == x.slot).map fun y =>
      s.slipOff t (d.outSlip.getD 0) ((d.outBase + y.1 * s.mfRow t m + 64 * x.part) % 2 ^ 32)
  | _ => s.gradDest t m x

/-- A delivery of a manifest crossing lands (R239, R299, R300, R304). -/
def State.landMan (s : State) (t : Nat) (j : Eject) (x : XferSlot) (ecc : Ecc) : State :=
  match s.mfEntry t j.cross with
  | none => s
  | some (m, _) =>
    if j.flit.void then s
    else if s.tstate t = 1 ∧ ((s.manOff t m x).any fun o => s.inExec t o 64) = true then s.landRefused t j.cross
    else match x.kind with
      | 1 => s.setBytes (spad t (64 * s.rd F.MF_MT_AREA_SSTAGE t m + x.peer * s.mfSB t m + 64 * x.part)) (leBytes j.flit.data 64)
      | 2 => s.landResponse t m x j.flit.data
      | _ => s.landGradient t m x j.flit.data ecc

/-- FLIT_EJECT_LAND (R251, R259, R263, R299): the earliest take onto L lands, E − 1 tc after it. One whose port closed
after the take writes nothing (R266). -/
def State.ejectLand (s : State) (t : Nat) (ecc : Ecc) : State :=
  match (s.tile t).ejects with
  | [] => s
  | j :: r =>
    if s.frozen || decide (s.spine < j.due) then s
    else
      let s := s.upTile t fun x => { x with ejects := r }
      if s.tstate t = 4 then s
      else match j.raw, j.man with
        | some o, _ =>
          if o ≥ 0x6_0000 then s.inc F.XT_DROPPED_FLITS 1 t
          else if s.tstate t = 1 ∧ s.inExec t o 64 then s.landRefused t j.cross
          else (s.setBytes (spad t o) (leBytes j.flit.data 64)).inc F.XT_EJ_FLITS_FLITS 1 t
        | none, some x => (s.inc F.XT_EJ_FLITS_FLITS 1 t).landMan t j x ecc
        | none, none => s.landSlip t j

/-! ## The end of an entry -/

/-- A crossing that no router runs any more is over: it leaves the hub, and engines' reservations for it end. -/
def State.crossOver (s : State) (part c : Nat) : State :=
  if (s.crossRouters part c).any fun t => s.rd F.XT_RSTATUS_RUN t == 1 && s.rd F.XT_RSTATUS_CROSSING t == c then s
  else
    let s := (s.upHub fun h => { h with running := h.running.filter fun x => !(x.part == part && x.num == c) }).unbind part c
    s.mapEngs fun e => e.leaves (256 * part + c)

/-- TIMETABLE_ENTRY_ADVANCE (R260): once an entry has lasted DUR + 1 cycles the next one holds with no gap, or after
the last the router is done. -/
def State.entryAdvance (s : State) (t : Nat) : State :=
  if s.frozen || s.rd F.XT_RSTATUS_RUN t == 0 || !s.entryOver t then s
  else
    let e := (s.tile t).rtEntry
    let b := (s.tile t).rtStart + s.rd F.TT_DUR t e + 1
    if s.rd F.TT_LAST t e = 1 then
      (s.wr F.XT_RSTATUS_RUN 0 t).crossOver (s.rd F.XT_RCFG_PART t) (s.rd F.XT_RSTATUS_CROSSING t)
    else s.upTile t fun x => { x with rtEntry := (e + 1) % 4096, rtStart := b }

/-! ## Commands -/

/-- TIMETABLE_ENTRY_ADVANCE (R260). -/
def execTimetableEntryAdvance (t : TileId) (s : State) : Host.Outcome State Fault Refusal := .next (s.entryAdvance t.val)

/-- SENDING_READ (R260). -/
def execSendingRead (t : TileId) (cycle : BitVec 18) (ecc : Ecc) (s : State) : Host.Outcome State Fault Refusal :=
  .next (s.sendingRead t.val cycle.toNat ecc)

/-- FLIT_TAKE (R251). -/
def execFlitTake (t : TileId) (port : BitVec 4) (ecc : FlitRead) (s : State) : Host.Outcome State Fault Refusal :=
  .next (s.flitTake t.val port.toNat ecc.link ecc.mem)

/-- FLIT_EJECT_LAND (R251). -/
def execFlitEjectLand (t : TileRead) (s : State) : Host.Outcome State Fault Refusal := .next (s.ejectLand t.tile.val t.ecc)

end Sys2Proof.Machine
end

