-- ==== Sys2Proof/Machine/Links.lean ====
section
/-! DEFINITION. The fabric ports and the ferry link (R36–R38, R427–R438): frames, link states, the egress guard, replay,
credits and acknowledge words. -/

namespace Sys2Proof.Machine

/-! ## Frames -/

/-- One byte through the CRC-32 of IEEE 802.3, bit by bit. -/
def crcBits (c : Nat) : Nat → Nat
  | 0 => c
  | n + 1 => crcBits (if c % 2 = 1 then (c / 2) ^^^ 0xEDB88320 else c / 2) n

/-- The CRC-32 of IEEE 802.3 over bytes (R429). -/
def crc32 (l : List Byte) : Nat := (l.foldl (fun c b => crcBits (c ^^^ b.toNat) 8) 0xFFFF_FFFF) ^^^ 0xFFFF_FFFF

/-- A frame's header (R429). -/
def frameHead (vc len seq src dst : Nat) : List Byte :=
  leBytes (vc % 4 + 2 ^ 4 * (len % 4096) + 2 ^ 16 * (seq % 65536) + 2 ^ 32 * (src % 4096) + 2 ^ 44 * (dst % 4096)) 8

/-- A frame: header, payload, CRC and zero bytes to a word boundary (R429). -/
def mkFrame (vc seq src dst : Nat) (body : List Byte) : List Byte :=
  let h := frameHead vc body.length seq src dst ++ body
  let f := h ++ leBytes (crc32 h) 4
  f ++ List.replicate (64 * frameWords body.length - f.length) 0

/-- Whether a received frame has its CRC, its length and no reserved value (R429). -/
def frameOk (f : List Byte) : Bool :=
  let h := leAt f 0 8
  let len := bits h 4 12
  bits h 0 2 != 3 && bits h 2 2 == 0 && bits h 56 8 == 0 && decide (len ≤ 2048) && f.length == 64 * frameWords len
    && crc32 (f.take (8 + len)) == leAt f (8 + len) 4

/-- Payload of a frame. -/
def framePayload (f : List Byte) : List Byte := (f.drop 8).take (bits (leAt f 0 8) 4 12)

/-! ## Ports -/

/-- FL_STATUS.STATE. -/
def State.plState (s : State) (k : Nat) : Nat := s.rd F.FL_STATUS_STATE k

/-- A frame goes out on a port (R448). -/
def State.emit (s : State) (k : Nat) (f : List Byte) : State :=
  (s.inc F.FL_TX_WORDS_WORDS (f.length / 64) k).upPort k fun p => { p with wire := p.wire ++ [f] }

/-- An acknowledge word is sent (R436). -/
def State.sendAck (s : State) (k : Nat) (nak : Bool) : State :=
  let p := s.port k
  let ack := (p.rxSeq + 65535) % 65536
  let body := leBytes (ack + 65536 * b2n nak) 4 ++ leBytes p.freed0 4 ++ leBytes p.freed1 4 ++ List.replicate 40 0
  let dst := s.rd F.FL_STATUS_PEER k
  (s.emit k (mkFrame 2 0 s.boot.modnum dst body)).upPort k fun p => { p with unacked := 0 }

/-- A NAK is sent, once for each expected SEQ (R434, R435). -/
def State.sendNak (s : State) (k : Nat) : State :=
  let p := s.port k
  if s.plState k ≠ 4 ∨ p.nakFor = some p.rxSeq then s
  else
    let s := (s.inc F.FL_NAKS_COUNT 1 k).wr F.FL_STATUS_RXREPLAY 1 k
    (s.upPort k fun p => { p with nakFor := some p.rxSeq }).sendAck k true

/-- A port goes DOWN (R433): replay buffer and queued frames are discarded, credits and replay flags cleared, the event
reported. -/
def State.linkDown (s : State) (k reason : Nat) : State :=
  let st := s.plState k
  if 2 ≤ st ∧ st ≤ 4 then
    let p := s.port k
    let s := (s.wr F.FL_STATUS_STATE 1 k).wr F.FL_STATUS_LASTDOWN reason k
    let s := (s.wr F.FL_STATUS_TXREPLAY 0 k).wr F.FL_STATUS_RXREPLAY 0 k
    let s := (s.inc F.FL_DISCARDS_FRAMES (p.replay.length + p.txq.length) k).inc F.FL_DOWNS_COUNT 1 k
    let s := s.upPort k fun p => { p with replay := [], txq := [], inbox := [], credit0 := 0, credit1 := 0, nakFor := none, resendTo := none,
                                          unacked := 0 }
    s.event 6 9 k 0x60 reason
  else s

/-- HELLO of this module (R431, R535). -/
def State.helloBody (s : State) (k : Nat) : List Byte :=
  [1, 0, 0, 0] ++ leBytes s.boot.sysid 8 ++ leBytes s.boot.modnum 2 ++ leBytes k 1 ++ [0] ++ leBytes 2048 2 ++ leBytes 256 2

/-- The body of a received HELLO, as its fields give it. -/
def helloOf (sysid endpoint peerPort buf0 buf1 : Nat) : List Byte :=
  [1, 0, 0, 0] ++ leBytes sysid 8 ++ leBytes endpoint 2 ++ leBytes peerPort 1 ++ [0] ++ leBytes buf0 2 ++ leBytes buf1 2

/-- Whether the egress guard admits a peer's HELLO (R431, R524): the same system, and the endpoint the peer table
permits on the port: the entry's PEER on a direct port, 4,095 on a switched one. -/
def State.guardAdmits (s : State) (k sysid endpoint : Nat) : Bool :=
  sysid == s.boot.sysid &&
    match aget 0 s.boot.portMode k with
    | 1 => endpoint == aget 0 s.boot.portPeer k
    | 2 => endpoint == 4095
    | _ => false

/-- Whether the guard passes a frame to a destination (R432). -/
def State.guardPasses (s : State) (k dst : Nat) : Bool := (aget 0 s.boot.dstMap k).testBit dst

/-- A peer's HELLO (R431): to UP with SEQ and credits set, or to REFUSED. -/
def State.hello (s : State) (k sysid endpoint peerPort buf0 buf1 : Nat) : State :=
  let s := s.actedOn k 1 (helloOf sysid endpoint peerPort buf0 buf1)
  if s.plState k ≠ 3 then s
  else
    let s := (s.wr F.FL_STATUS_PEER endpoint k).wr F.FL_STATUS_PEERPORT peerPort k
    if s.guardAdmits k sysid endpoint then
      (s.wr F.FL_STATUS_STATE 4 k).upPort k fun p =>
        { p with txSeq := 0, rxSeq := 0, ackSeq := 65535, credit0 := buf0, credit1 := buf1, seen0 := 0, seen1 := 0, freed0 := 0, freed1 := 0,
                 nakFor := none, resendTo := none, unacked := 0, inbox := [] }
    else s.wr F.FL_STATUS_STATE 5 k

/-! ## Receiving -/

/-- Whether a VC 1 payload is a message of R535 with no reserved value. -/
def messageOk (b : List Byte) : Bool :=
  leAt b 1 3 == 0 &&
    match byteAt b 0 with
    | 0x01 => b.length == 20 && byteAt b 15 == 0
    | 0x02 => b.length == 12 && decide (byteAt b 4 < 16) && leAt b 5 3 == 0
    | 0x10 => b.length == 52
    | 0x11 => decide (16 < b.length) && decide (b.length ≤ 2048)
    | 0x12 => b.length == 20 && decide (byteAt b 8 ≤ 2) && leAt b 9 3 == 0
    | _ => false

/-- A frame of VC 0 or VC 1 with the expected SEQ is accepted (R434–R437, R535). -/
def State.acceptFrame (s : State) (k vc : Nat) (b : List Byte) : State :=
  let keep := vc == 0 || messageOk b
  let n := frameWords b.length
  let s := (s.wr F.FL_STATUS_RXREPLAY 0 k).upPort k fun p =>
    { p with rxSeq := (p.rxSeq + 1) % 65536, unacked := p.unacked + 1, nakFor := none,
             inbox := if keep then p.inbox ++ [(vc, b)] else p.inbox,
             freed1 := if keep then p.freed1 else (p.freed1 + n) % 2 ^ 32 }
  if (s.port k).unacked ≥ 16 then s.sendAck k false else s

/-- Every unacknowledged frame is sent again, in order (R434); one already sent eight times brings the port DOWN. -/
def State.resend (s : State) (k : Nat) : State :=
  let p := s.port k
  match p.replay.getLast? with
  | none => s
  | some l =>
    if p.replay.any fun f => decide (8 ≤ f.tries) then s.linkDown k 3
    else
      let s := (s.inc F.FL_REPLAYS_COUNT 1 k).wr F.FL_STATUS_TXREPLAY 1 k
      let s := p.replay.foldl (fun s f =>
        (s.inc F.FL_REPLAY_WORDS_WORDS (frameWords f.body.length) k).emit k (mkFrame f.vc f.seq s.boot.modnum f.dst f.body)) s
      s.upPort k fun p => { p with replay := p.replay.map fun f => { f with tries := f.tries + 1 }, resendTo := some l.seq }

/-- An acknowledge word's ACKSEQ and counts (R435, R436). -/
def State.ackWord (s : State) (k : Nat) (b : List Byte) : State :=
  let p := s.port k
  let a := leAt b 0 2
  let n := (a + 65536 - p.ackSeq) % 65536
  let ok := decide (n ≤ p.replay.length)
  let passed := match p.resendTo with
    | some q => ok && decide ((q + 65536 - p.ackSeq) % 65536 ≤ n)
    | none => false
  let c0 := leAt b 4 4
  let c1 := leAt b 8 4
  let s := s.upPort k fun p =>
    { p with credit0 := p.credit0 + (c0 + 2 ^ 32 - p.seen0) % 2 ^ 32, credit1 := p.credit1 + (c1 + 2 ^ 32 - p.seen1) % 2 ^ 32,
             seen0 := c0, seen1 := c1,
             replay := if ok then p.replay.drop n else p.replay, ackSeq := if ok then a else p.ackSeq,
             resendTo := if passed then none else p.resendTo }
  let s := if passed then s.wr F.FL_STATUS_TXREPLAY 0 k else s
  if (byteAt b 2).testBit 0 then s.resend k else s

/-- A frame or acknowledge word arrives at a port (R429, R434, R436): HELLO traffic while the peers greet, everything
while UP. -/
def State.frameIn (s : State) (k : Nat) (f : List Byte) : State :=
  let st := s.plState k
  if st < 3 then s
  else
    let s := s.inc F.FL_RX_WORDS_WORDS ((f.length + 63) / 64) k
    if !frameOk f then (s.inc F.FL_RX_CRC_FRAMES 1 k).sendNak k
    else
      let h := leAt f 0 8
      let b := framePayload f
      match bits h 0 2 with
      | 2 =>
        if st ≠ 4 then s
        else if bits h 16 16 = 0 ∧ b.length = 52 ∧ byteAt b 2 < 2 ∧ byteAt b 3 = 0 ∧ leAt b 12 40 = 0 then s.ackWord k b
        else (s.inc F.FL_RX_CRC_FRAMES 1 k).sendNak k
      | vc =>
        if st ≠ 4 then
          (if vc = 1 ∧ byteAt b 0 = 1 ∧ messageOk b = true then s.upPort k fun p => { p with inbox := p.inbox ++ [(1, b)] } else s)
        else if bits h 16 16 = (s.port k).rxSeq then s.acceptFrame k vc b
        else s.sendNak k

/-! ## Sending -/

/-- Words of a port's replay buffer in use. -/
def PortX.replayWords (p : PortX) : Nat := p.replay.foldl (fun n f => n + frameWords f.body.length) 0

/-- A frame leaves for the first time (R432, R434, R437): with its credits spent and a place in the replay buffer, or
dropped by the guard. -/
def State.firstSend (s : State) (k vc dst : Nat) (body : List Byte) : State :=
  if !s.guardPasses k dst then s.inc F.FL_GUARD_DROPS_FRAMES 1 k
  else
    let n := frameWords body.length
    let q := (s.port k).txSeq
    let fr : TxFrame := { seq := q, vc := vc, dst := dst, body := body, tries := 1 }
    let s := s.upPort k fun p =>
      { p with txSeq := (p.txSeq + 1) % 65536, replay := p.replay ++ [fr],
               credit0 := if vc = 0 then p.credit0 - n else p.credit0, credit1 := if vc = 1 then p.credit1 - n else p.credit1 }
    let s := if vc = 0 then s.inc F.CF_TX_BYTES_BYTES body.length k else s
    s.emit k (mkFrame vc q s.boot.modnum dst body)

/-- Whether a new frame may go (R434, R437): credits for all its words, room in the replay buffer; none is needed by a
frame the guard drops. -/
def State.mayStart (s : State) (k vc dst n : Nat) : Bool :=
  let p := s.port k
  !s.guardPasses k dst || (decide (n ≤ if vc = 0 then p.credit0 else p.credit1) && decide ((p.replayWords + n) * 64 ≤ 262144))

/-- Bytes that a TO_FABRIC channel may send now (R438). -/
def State.chanReady (s : State) (k c : Nat) : Nat :=
  if s.chanKind k c ≠ 2 then 0
  else
    let x := (s.eng k).chan c
    let g := (x.granted + 2 ^ 32 - x.sent % 2 ^ 32) % 2 ^ 32
    min (min (if g < 2 ^ 31 then g else 0) 2016) (chanBytes (s.eng k).gridIn c).length

/-- A channel segment (R404). -/
def State.chanSeg (s : State) (c : Nat) (d : List Byte) : List Byte :=
  leBytes 0 8 ++ leBytes s.boot.modnum 2 ++ leBytes 0 1 ++ leBytes 4 1 ++ leBytes c 2 ++ leBytes d.length 2 ++ leBytes 0 8
    ++ leBytes 0 2 ++ leBytes 0 6 ++ d

/-- Segments in the transit area return to the forward queue, in order, as the send side frees (R440). -/
def State.unspill (s : State) (k : Nat) : Nat → State
  | 0 => s
  | n + 1 =>
    match (s.eng k).spill with
    | [] => s
    | x :: r =>
      if (s.eng k).fwdBytes + x.body.length ≤ 262144 then
        (s.upEng k fun e => { e with sends := e.sends ++ [x], spill := r }).unspill k n
      else s

/-- FRAME_SEND (R437): control messages first, then the engine's segments, then channel data. -/
def State.frameSend (s : State) (k : Nat) : State :=
  if s.plState k ≠ 4 then s
  else match (s.port k).txq with
    | f :: r =>
      if s.mayStart k 1 f.dst (frameWords f.body.length) then
        (s.upPort k fun p => { p with txq := r }).firstSend k 1 f.dst f.body
      else s
    | [] => match (s.eng k).sends with
      | x :: r =>
        let (s, go) := if s.mayStart k 0 x.dst (frameWords x.body.length) then s.bucketAdmit x.part true x.body.length else (s, false)
        if go then
          let s := (s.chargeF x.part k x.body.length).upEng k fun e => { e with sends := r }
          (s.unspill k (s.eng k).spill.length).firstSend k 0 x.dst x.body
        else s
      | [] => match (List.range 16).find? fun c => decide (0 < s.chanReady k c) with
        | none => s
        | some c =>
          let n := s.chanReady k c
          let dst := s.rd F.CF_CHAN_A_PEER k c
          let d := (chanBytes (s.eng k).gridIn c).take n
          let p := (s.bandPart (if k < 6 then 11 else 0)).getD 4
          let (s, go) := if s.mayStart k 0 dst (frameWords (32 + n)) then s.bucketAdmit p true (32 + n) else (s, false)
          if go then
            let s := (s.chargeF p k (32 + n)).upEng k fun e => { e with gridIn := dropChan c n e.gridIn }
            (s.upChan k c fun x => { x with sent := x.sent + n }).firstSend k 0 dst (s.chanSeg c d)
          else s

/-! ## Commands -/

/-- Bit k of a mask. -/
def maskBit (m k : Nat) (b : Bool) : Nat := m - bits m k 1 * 2 ^ k + b2n b * 2 ^ k

/-- A cage's cable comes or goes: its sideband signals, and, with the pilot running and the die powered, FL_STATUS and
the report of a port as unusable (R37). -/
def State.cage (s : State) (k : Nat) (present low : Bool) : State :=
  let s := s.upPins fun p => { p with cagePrs := maskBit p.cagePrs k present, cageLpw := maskBit p.cageLpw k low }
  if !s.pins.pwrGood then s
  else ((s.wr F.FL_STATUS_CABLE (b2n present) k).wr F.FL_STATUS_LOWPOWER (b2n low) k).upCtl fun c =>
    { c with unusable := maskBit c.unusable k low }

/-- CABLE_INSERT (R36, R37): the pilot reads the cable's power class; one of more than 1.5 W is held in low-power mode. -/
def execCableInsert (port : PortId) (mw : Nat) (s : State) : Host.Outcome State Fault Refusal :=
  .next (s.cage port.val true (decide (mw > 1500)))

/-- CABLE_REMOVE (R38, R433). -/
def execCableRemove (port : PortId) (s : State) : Host.Outcome State Fault Refusal :=
  let k := port.val
  let s := s.cage k false false
  .next (if !s.pins.pwrGood then s else if s.plState k = 5 then (s.wr F.FL_STATUS_STATE 1 k).wr F.FL_STATUS_LASTDOWN 4 k else s.linkDown k 4)

/-- LINK_TRAIN_ATTEMPT (R431, R524): a DOWN port that is enabled, with an admitted cable, starts training. -/
def execLinkTrainAttempt (port : PortId) (s : State) : Host.Outcome State Fault Refusal :=
  let k := port.val
  .next (if s.plState k = 1 ∧ s.rd F.FL_CTL_EN k = 1 ∧ s.rd F.FL_STATUS_CABLE k = 1 ∧ s.rd F.FL_STATUS_LOWPOWER k = 0
      ∧ aget 0 s.boot.portMode k ≠ 0 then s.wr F.FL_STATUS_STATE 2 k else s)

/-- LINK_TRAINED (R431). -/
def execLinkTrained (port : PortId) (s : State) : Host.Outcome State Fault Refusal :=
  .next (if s.plState port.val = 2 then s.wr F.FL_STATUS_STATE 3 port.val else s)

/-- HELLO_SEND_TIMER (R431, R432): in HELLO and REFUSED, whatever DSTMAP holds. -/
def execHelloSendTimer (port : PortId) (s : State) : Host.Outcome State Fault Refusal :=
  let k := port.val
  .next (if (s.plState k = 3 ∨ s.plState k = 5) ∧ aget 0 s.boot.portMode k ≠ 0 then
      s.emit k (mkFrame 1 0 s.boot.modnum 4095 (s.helloBody k)) else s)

/-- HELLO_RECEIVE (R431). -/
def execHelloReceive (port : PortId) (sysid : BitVec 64) (endpoint : BitVec 12) (peerPort : BitVec 4) (buf0 buf1 : BitVec 16)
    (s : State) : Host.Outcome State Fault Refusal :=
  .next (s.hello port.val sysid.toNat endpoint.toNat peerPort.toNat buf0.toNat buf1.toNat)

/-- CHCREDIT_RECEIVE (R438): the running count of bytes granted to a TO_FABRIC channel. -/
def execChcreditReceive (port : PortId) (chan : BitVec 4) (count : BitVec 32) (s : State) :
    Host.Outcome State Fault Refusal :=
  let k := port.val
  let s := s.actedOn k 1 ([2, 0, 0, 0] ++ leBytes chan.toNat 1 ++ leBytes 0 3 ++ leBytes count.toNat 4)
  .next (if s.chanKind k chan.toNat = 2 then s.upChan k chan.toNat fun x => { x with granted := count.toNat } else s)

/-- FRAME_RECEIVE (R434). -/
def execFrameReceive (port : PortId) (frame : List (BitVec 8)) (s : State) : Host.Outcome State Fault Refusal :=
  .next (s.frameIn port.val frame)

/-- ACK_RECEIVE (R436): the word arrives as any frame does. -/
def execAckReceive (port : PortId) (word : List (BitVec 8)) (s : State) : Host.Outcome State Fault Refusal :=
  .next (s.frameIn port.val word)

/-- FRAME_SEND (R437). -/
def execFrameSend (port : PortId) (s : State) : Host.Outcome State Fault Refusal := .next (s.frameSend port.val)

/-- REPLAY_TIMEOUT (R434). -/
def execReplayTimeout (port : PortId) (s : State) : Host.Outcome State Fault Refusal :=
  .next (if s.plState port.val = 4 then s.resend port.val else s)

/-- ACK_DELAY_TIMEOUT (R436): an accepted frame is not yet acknowledged. -/
def execAckDelayTimeout (port : PortId) (s : State) : Host.Outcome State Fault Refusal :=
  .next (if s.plState port.val = 4 ∧ 0 < (s.port port.val).unacked then s.sendAck port.val false else s)

/-- ACK_KEEPALIVE (R436). -/
def execAckKeepalive (port : PortId) (s : State) : Host.Outcome State Fault Refusal :=
  .next (if s.plState port.val = 4 then s.sendAck port.val false else s)

/-- FEC_LOCK_LOSS (R433). -/
def execFecLockLoss (port : PortId) (s : State) : Host.Outcome State Fault Refusal := .next (s.linkDown port.val 1)

/-- FEC_ERROR_LIMIT (R433, R448): the seventeenth uncorrectable codeword of a millisecond. DEDUCED (log 32): the 17 of the
window are counted with it. -/
def execFecErrorLimit (port : PortId) (s : State) : Host.Outcome State Fault Refusal :=
  .next ((s.inc F.FL_FEC_UNCORR_CODEWORDS 17 port.val).linkDown port.val 2)

/-- PEER_SIGNAL_LOSS (R433). -/
def execPeerSignalLoss (port : PortId) (s : State) : Host.Outcome State Fault Refusal := .next (s.linkDown port.val 5)

/-- FL_CTL_DOWN (R433). -/
def execFlCtlDown (port : PortId) (s : State) : Host.Outcome State Fault Refusal := .next (s.linkDown port.val 6)

end Sys2Proof.Machine
end

