-- ==== Sys2Proof/Machine/Cause.lean ====
section
/-! DEFINITION. What asserts a hold cause (R54, R60): what running timetables take from and deliver to the quays and
engines in the coming window, against what those hold. -/

namespace Sys2Proof.Machine

/-- Whether the pilot asserts SLACK_THERMAL: the clamp, or the throttle for the die or for GDDR7 (R54). -/
def State.thermal (s : State) : Bool := s.power.clamp || s.power.dieThr || s.power.memThr

/-- The routers that join a unit, a quay or an engine as 24 + k, with the port that does (R247). -/
def edgePorts (u : Nat) : List (Nat × Nat) :=
  (List.range 4).map fun i =>
    if u < 12 then (64 * (4 * u + i), 4)
    else if u < 24 then (64 * (4 * (u - 12) + i) + 63, 3)
    else if u < 30 then (64 * 47 + 8 * (u - 24) + 8 + i, 1)
    else (8 * (u - 30) + 8 + i, 2)

/-- Whether a router's timetable takes a flit from input p (out false), or onto output p, in a crossing cycle (R260). -/
def State.planned (s : State) (t c p : Nat) (out : Bool) (cycle : Nat) : Bool :=
  match s.entryAt t cycle 4096 (s.rd F.DIR_FIRST t c) 0 with
  | none => false
  | some (e, b) => s.paceOn t e b cycle &&
    (if out then s.sel t e p != 0 else (List.range 9).any fun o => s.sel t e (o + 1) == p)

/-- The crossing cycle at which the coming window ends (R53): 64 tc after the checkpoint at or after now. -/
def State.coverEnd (s : State) (t : Nat) : Nat := s.rd F.XT_RSTATUS_CYCLE t + (64 - s.spine % 64) % 64 + 64

/-- The routers at a unit's edge that run a crossing, with their port and the crossing. -/
def State.edgeRuns (s : State) (u : Nat) : List (Nat × Nat × Nat) :=
  (edgePorts u).filterMap fun e =>
    let c := s.rd F.XT_RSTATUS_CROSSING e.1
    if s.rd F.XT_RSTATUS_RUN e.1 = 1 ∧ s.rd F.DIR_VALID e.1 c = 1 then some (e.1, e.2, c) else none

/-- Whether a running timetable uses a unit in the coming window. -/
def State.usedSoon (s : State) (u : Nat) : Bool :=
  (s.edgeRuns u).any fun (t, p, c) =>
    let now := s.rd F.XT_RSTATUS_CYCLE t
    (List.range (s.coverEnd t - now)).any fun i => s.planned t c p false (now + i) || s.planned t c p true (now + i)

/-- What running timetables have still to take from a unit by the end of the coming window: one transfer a take. -/
def State.takesDue (s : State) (u : Nat) : List XferSlot :=
  (s.edgeRuns u).flatMap fun (t, p, c) =>
    let made := aget 0 (s.tile t).moved p
    let all := ((List.range (s.coverEnd t)).filter fun i => s.planned t c p false i).length
    (List.range (all - made)).map fun i => s.xferSlot t c p (made + i)

/-- Flits that running timetables have still to deliver to a unit by the end of the coming window. -/
def State.givesDue (s : State) (u : Nat) : Nat :=
  ((s.edgeRuns u).map fun (t, p, c) =>
    ((List.range (s.coverEnd t)).filter fun i => s.planned t c p true i).length - aget 0 (s.tile t).moved (16 + p)).sum

/-- Flits that the inbound part of a quay's staging buffer holds (R317): 32 KiB. -/
def inboundFlits : Nat := 512

/-- Whether a quay's staging does not hold a template's share of what the coming window takes. A failed use delivers
empty slots and is never short (R319). -/
def State.tplShort (s : State) (q tpl : Nat) : Bool :=
  let due := ((s.takesDue q).filter fun x => x.kind == 0 && x.peer == tpl).length
  match (s.quay q).uses.find? fun v => v.tpl == tpl && v.run with
  | some v => !v.failed && decide (v.flits.length < due)
  | none => decide (0 < due)

/-- Whether a quay used in the coming window executes a refresh outside its windows (R54, R324): a forced one, or a
per-bank one begun before the timetable started. -/
def State.slackRefresh (s : State) (q : Nat) : Bool :=
  s.usedSoon q && (decide (0 < (s.quay q).forceTc) || (s.quay q).bankTc % 54 != 0)

/-- Whether a quay lacks data or space for the coming window (R54), and not because of a refresh overrun. -/
def State.slackQuay (s : State) (q : Nat) : Bool :=
  !s.slackRefresh q && (((s.takesDue q).any fun x => x.kind == 0 && s.tplShort q x.peer)
    || decide (inboundFlits < (s.quay q).grads.length + s.givesDue q))

/-- Whether an engine used in the coming window replays on its port and does not hold all of that window's data (R54). -/
def State.slackLink (s : State) (k : Nat) : Bool :=
  let ts := s.takesDue (24 + k)
  ((s.port k).nakFor.isSome || (s.port k).resendTo.isSome) && s.usedSoon (24 + k)
    && ts.any fun x => decide ((chanBytes (s.eng k).deliver (x.peer % 16)).length < 64 * (ts.filter fun y => y.peer == x.peer).length)

/-- The units of a range that a test names, as a bit mask. -/
def maskOf (n : Nat) (p : Nat → Bool) : Nat := ((List.range n).map fun k => b2n (p k) * 2 ^ k).sum

/-- The quays and engines that assert SLACK_QUAY, SLACK_REFRESH and SLACK_LINK: only where a crossing runs (R60). -/
def State.quayMask (s : State) : Nat := if s.hub.running.isEmpty then 0 else maskOf 24 s.slackQuay
def State.refreshMask (s : State) : Nat := if s.hub.running.isEmpty then 0 else maskOf 24 s.slackRefresh
def State.linkMask (s : State) : Nat := if s.hub.running.isEmpty then 0 else maskOf 12 s.slackLink

/-- The causes asserted now, bit 0 QUAY, 1 LINK, 2 REFRESH, 3 THERMAL (R54). -/
def State.causes (s : State) : Nat :=
  b2n (s.quayMask != 0) + 2 * b2n (s.linkMask != 0) + 4 * b2n (s.refreshMask != 0) + 8 * b2n s.thermal

/-- The bit of a cause that XT_HOLD_STATUS shows as asserted now, by the field (R64). -/
def State.causeBit (s : State) (f : Fld) : Option Nat :=
  if f = F.XT_HOLD_STATUS_QUAY then some (bits s.causes 0 1)
  else if f = F.XT_HOLD_STATUS_LINK then some (bits s.causes 1 1)
  else if f = F.XT_HOLD_STATUS_REFRESH then some (bits s.causes 2 1)
  else if f = F.XT_HOLD_STATUS_THERMAL then some (bits s.causes 3 1) else none

end Sys2Proof.Machine
end

