-- ==== Sys2Proof/Machine/Regs.lean ====
section
/-! DEFINITION. Reading and writing the device's registers eight bytes at a time (R9, R10): the fields that hold no
value of their own and follow the units' state, the fields that store fewer values than they have bits. -/

namespace Sys2Proof.Machine

/-- The idle cause of a slack tc, by XT_HOLD_STATUS.ATTR (R62, R64, R93). -/
def slackIdle : Nat → Nat
  | 1 => 8
  | 2 => 9
  | 3 => 11
  | 4 => 10
  | _ => 0

/-- T_STATUS.IDLE (R91, R93): the class of a tile's present tc; its reset value 0 while no tc passes. DEDUCED (log 153). -/
def State.idleClass (s : State) (t : Nat) : Nat :=
  if !s.clockRuns then 0
  else if s.tstate t = 4 then 13
  else if s.tstate t ≠ 1 then 12
  else if s.inCrossing t then (if s.rd F.XT_HOLD_STATUS_HOLDING = 1 then slackIdle (s.rd F.XT_HOLD_STATUS_ATTR) else 0)
  else if (s.tile t).atBar then 14
  else (s.tile t).wait

/-- Whether the matrix unit has nothing queued or running (T_MSTATUS.IDLE). -/
def State.matIdle (s : State) (t : Nat) : Bool :=
  let x := s.tile t
  x.mq.isEmpty && x.mload.isNone && x.mstream.isNone

/-- Whether both lanes of the manifest engine are idle. -/
def State.mfIdle (s : State) (t : Nat) : Bool :=
  let x := s.tile t
  x.sampRun.isNone && x.manRun.isNone && x.sampQ.isEmpty && x.manQ.isEmpty

/-- The head entry of the event queue. -/
def State.evHead (s : State) : Option Event := s.fault.events.head?

/-- Power state as PW_STATE codes it (R482): 0 ACTIVE, 1 IDLE, 2 DROWSE, 3 OFF; a clock being started is still IDLE. -/
def PState.code : PState → Nat
  | .active => 0
  | .starting => 1
  | .idle => 1
  | .drowse => 2
  | .off => 3

/-- Places of a field's range that hold nothing: g0, which reads 0 and discards writes (R75), and what lies behind a
buffer's 1,344 bytes (R10, R189). -/
def noBits (f : Fld) (i : Nat) : Bool := (f == F.G && i == 0) || (f == F.WIMG && decide (0x540 ≤ i % 2048))

/-- A field as it reads: those that follow other state are computed. -/
def State.rdField (s : State) (f : Fld) (u i : Nat) : Nat :=
  let x := s.tile u
  if noBits f i then 0
  else if f == F.T_CYCLE_TC then s.tc
  else if f == F.T_STATUS_IDLE then s.idleClass u
  else if f == F.T_IDLE_TC then s.rd f u i
  else if f == F.T_RNG_STATUS_SEEDED then b2n s.clockRuns
  else if f == F.T_MSTATUS_IDLE then b2n (s.matIdle u)
  else if f == F.T_MSTATUS_QUEUED then x.mq.length
  else if f == F.SV_STATUS_BUSY then b2n x.srun.isSome
  else if f == F.SV_STATUS_QUEUED then x.sq.length
  else if f == F.MF_STATUS_SBUSY then b2n x.sampRun.isSome
  else if f == F.MF_STATUS_MBUSY then b2n (x.manRun.any fun d => !d.dead)
  else if f == F.MF_STATUS_SQUEUE then x.sampQ.length
  else if f == F.MF_STATUS_MQUEUE then x.manQ.length
  else if f == F.MF_STATUS_MNUM then (x.manRun.map MfDesc.mnum).getD 0
  else if f == F.SLIP_FILL_FILL then s.slipHeld u i % 2 ^ 20
  else if f == F.SLIP_FILL_FREE then wrap (s.slipFree u i) 20
  else if f == F.SLIP_FILL_WAITERS then b2n (x.creds.any fun r => r.slip == i)
  else if f == F.XT_RSTATUS_CLOSED then b2n (s.tstate u == 4)
  else if f == F.SO_CTL_WAITERS then (s.hub.waits.filter fun w => w.obj == i).length
  else if f == F.DBG_CTL_EN then b2n s.boot.debug
  else if f == F.Q_STATUS_TIMED then b2n (s.quayTimed u)
  else if f == F.FT_EVQ_STATUS_FILL then s.fault.events.length
  else if f == F.FT_EVQ_A_CLASS then (s.evHead.map Event.cls).getD 0
  else if f == F.FT_EVQ_A_KIND then (s.evHead.map Event.kind).getD 0
  else if f == F.FT_EVQ_A_UNIT then (s.evHead.map Event.unit).getD 0
  else if f == F.FT_EVQ_A_CODE then (s.evHead.map Event.code).getD 0
  else if f == F.FT_EVQ_A_LOGGED then b2n ((s.evHead.map fun e => logged e.cls).getD false)
  else if f == F.FT_EVQ_B_DATA then (s.evHead.map Event.data).getD 0
  else if f == F.FT_WALK_BUSY then b2n s.fault.active.isSome
  else if f == F.FT_WALK_QUEUED then min 7 s.fault.reqs.length
  else if f == F.L_CYCLE_LC then s.tick * 10 / 3 % 2 ^ 64
  else if f == F.L_STATUS_STALLED then b2n ((s.core u).credWait || (s.core u).soWait.any fun w => w.2.1)
  else if f == F.PW_STATE_STATE then s.power.state.code
  else if f == F.CP_ID_STEPID then s.stepid
  else (s.causeBit f).getD (s.rd f u i)

/-- The power of two below which a field's low bits read 0 and ignore writes. -/
def lowZeros (f : Fld) : Nat :=
  if f == F.T_ENTRY_ADDR then 2
  else if f == F.SLIP_BASE_BASE || f == F.SLIP_SIZE_SIZE || f == F.T_WIN_BASE_BASE || f == F.T_WIN_BOUND_BOUND then 64
  else if f == F.DBG_ADDR_ADDR then 8
  else if f == F.FL_TRANSIT_A_BASE then 4096
  else 1

/-- What a writable field stores of a value (R95, R189, R220, R237, R362, R455): reserved values store 0, others are
bounded. -/
def storeVal (f : Fld) (v : Nat) : Nat :=
  let v := v / lowZeros f * lowZeros f
  if f == F.SLIP_ATTR_CLASS then (if v ≥ 6 then 0 else v)
  else if f == F.T_WIN_BASE_TASK then (if 64 ≤ v ∧ v ≤ 126 then 0 else v)
  else if f == F.T_MBUF_FMT_FMT0 || f == F.T_MBUF_FMT_FMT1 then (if v > 4 then 0 else v)
  else if f == F.T_MSPILL_CFG_INTERVAL then (if v > 64 then 0 else v)
  else if f == F.T_MEPI_CFG_OP || f == F.T_MEPI_CFG_RND then (if v = 3 then 0 else v)
  else if f == F.L_CFG_LSRAM then min v 16
  else if f == F.QR_REG_RING_BURST || f == F.QR_REG_FAB_BURST then max v 1
  else v

/-! ## Registers at a byte offset of their block -/

/-- The bits of a register that an 8-byte access at an offset takes, by the register's index and the lowest bit: all
indices whose bytes the access meets. -/
def RegRow.hits (r : RegRow) (off : Nat) : List (Nat × Int) :=
  if off + 8 ≤ r.off then []
  else
    let lo := (off - r.off) / r.stride
    let n := if r.stride < 8 then 8 / r.stride else 1
    ((List.range n).map fun j => lo + j).filterMap fun i =>
      if i < r.count ∧ off < r.off + r.stride * (i + 1) then some (i, (8 : Int) * ((r.off + r.stride * i : Nat) - (off : Int)))
      else none

/-- A value moved up or down by a number of bits. -/
def shiftBy (v : Nat) (k : Int) : Nat := if k ≥ 0 then v <<< k.toNat else v >>> (-k).toNat

/-- The registers of a block that an 8-byte access meets, with index and place. -/
def hitRows (blk : Blk) (off : Nat) : List (RegRow × Nat × Int) :=
  (regRows.filter fun r => r.blk == blk).flatMap fun r => (r.hits off).map fun h => (r, h.1, h.2)

/-- Eight bytes of a register block (R9, R10): write-only and reserved bits read 0. -/
def State.read8 (s : State) (blk : Blk) (u off : Nat) : Nat :=
  let v := (hitRows blk off).foldl (fun v h =>
    h.1.fields.foldl (fun v f =>
      if f.acc == .wo then v else v ||| shiftBy (s.rdField f u h.2.1) (h.2.2 + f.lo) % 2 ^ 64) v) 0
  if blk == .tile && off == 0x81500 then
    (List.range 8).foldl (fun v n => v ||| (if n = 0 then 1 else s.rd (F.P n) u) <<< n) v
  else v

/-- What a read clears (R9). -/
def State.clearRead (s : State) (blk : Blk) (u off : Nat) : State :=
  (hitRows blk off).foldl (fun s h => h.1.fields.foldl (fun s f => if f.acc == .rc then s.wr f 0 u h.2.1 else s) s) s

/-- Write one field of a register from the 64 bits written at a place k bits below the field's own. -/
def State.writeField (s : State) (f : Fld) (u i : Nat) (v : Nat) (k : Int) : State :=
  let w := f.width
  let old := s.rd f u i
  let ones := shiftBy (2 ^ 64 - 1) (-k) % 2 ^ w
  let new := shiftBy v (-k) % 2 ^ w
  if noBits f i then s else
  match f.acc with
  | .rw => if ones = 0 then s else s.wr f (storeVal f ((old - (old &&& ones)) ||| (new &&& ones))) u i
  | .w1c => s.wr f (old - (old &&& new)) u i
  | _ => s

/-- Write eight bytes of a register block: RW fields take the bits, W1C fields clear, others ignore them (R9, R10). -/
def State.write8 (s : State) (blk : Blk) (u off v : Nat) : State :=
  let s := (hitRows blk off).foldl (fun s h =>
    h.1.fields.foldl (fun s f => s.writeField f u h.2.1 v (h.2.2 + f.lo)) s) s
  if blk == .tile && off == 0x81500 then
    (List.range 8).foldl (fun s n => if n = 0 then s else s.wr (F.P n) (bits v n 1) u) s
  else s

/-- Split bytes into eight-byte values. -/
def chunks8 : Nat → List Byte → List Nat
  | 0, _ => []
  | n + 1, d => leVal (d.take 8) :: chunks8 n (d.drop 8)

/-- A register block's bytes from an offset, eight at a time. -/
def State.readRegs (s : State) (blk : Blk) (u off : Nat) : Nat → List Byte
  | 0 => []
  | n + 1 => leBytes (s.read8 blk u off) 8 ++ s.readRegs blk u (off + 8) n

end Sys2Proof.Machine
end

