-- ==== Sys2Proof/Machine/Fault.lean ====
section
/-! DEFINITION. Faults, fencing and leases (R334, R349, R350, R503, R538–R551): access faults of landing cores, the
fence block and its reclaim walk, the way out of service, the event queue's read, the correction window, leases. -/

namespace Sys2Proof.Machine

/-! ## Out of service -/

/-- A landing core stops: it executes no more. -/
def State.stopCore (s : State) (c : Nat) : State := (s.wr F.L_STATUS_RUN 0 c).upCore c fun x => { x with stopped := true }

/-- A port is taken DOWN and held DISABLED (R550): LASTDOWN keeps its value, no event of R433 having brought it down. -/
def State.portDisable (s : State) (k : Nat) : State :=
  (s.linkDown k (s.rd F.FL_STATUS_LASTDOWN k)).wr F.FL_STATUS_STATE 0 k

/-- Every tile that runs is stopped (R550). -/
def State.stopAll (s : State) : State := s.liveTiles.foldl (fun s t => s.stop t) s

/-- A fault of class OUT takes the module out of service (R550): its record, the tiles, the engines, the ports, the
roster and the landing cores, the module state. A later one is only logged. -/
def State.outOfService (s : State) (kind unit code data : Nat) : State :=
  let s0 := s
  let s := s.event 4 kind unit code data
  if s.rd F.FT_STATE_OUT = 1 then s
  else
    let s := (s.wr F.FT_STATE_OUT 1).wr F.FT_STATE_CAUSE code
    let s := s.stopAll.abandon fun _ => true
    let s := (List.range 12).foldl (fun s k => s.cfAbort k) s
    let s := (List.range 12).foldl (fun s k => s.portDisable k) s
    let s := (((s.wr F.ROS_CTL_EN 0).wr F.ROS_STATUS_LOGWAIT 0).wr F.ROS_STATUS_PHASE 0).wr F.ROS_STATUS_PENDING 0
    let s := s.upRos fun r => { r with cur := none, build := none, trig := false, commits := [] }
    let s := (List.range 16).foldl (fun s c => s.stopCore c) s
    (s.upCtl fun c => { c with faulted := true }).settle s0

/-! ## Fencing -/

/-- Whether a unit is fenced: kind 0 a tile, 1 a landing core, 2 a quay. -/
def State.isFenced (s : State) (kind unit : Nat) : Bool :=
  match kind with
  | 0 => s.tstate unit == 4
  | 1 => (s.rd F.FT_FENCED_UNITS_CORES).testBit unit
  | _ => (s.rd F.FT_FENCED_UNITS_QUAYS).testBit unit

/-- The refusal of a fence or unfence (R503, R543): 0 none, 1 BADSTATE, 2 BADFIELD, 3 eight requests already held. -/
def State.fenceCode (s : State) (kind unit : Nat) (un : Bool) : Nat :=
  let top := match kind with
    | 0 => 3071
    | 1 => 15
    | _ => 23
  if kind > 2 ∨ unit > top ∨ (kind = 1 ∧ unit = 0) then 2
  else if un && kind == 2 then 1
  else if s.isFenced kind unit != un then 1
  else if s.fault.reqs.length + (if s.fault.active.isSome then 1 else 0) ≥ 8 then 3
  else 0

/-- A fence or unfence is accepted (R543): it moves the generation on. -/
def State.fencePut (s : State) (kind unit : Nat) (un : Bool) (actor : Nat) : State :=
  (s.inc F.FT_FENCE_GEN_GEN 1).upFault fun x => { x with reqs := x.reqs ++ [⟨kind, unit, un, actor⟩] }

/-- A fence or unfence is asked for through FT_FENCE_REQ (R543): refused or accepted. -/
def State.fenceAsk (s : State) (kind unit : Nat) (un : Bool) (actor : Nat) : State :=
  let c := s.fenceCode kind unit un
  let s := s.wr F.FT_WALK_RESULT c
  if c ≠ 0 then s else s.fencePut kind unit un actor

/-- A tile answers a landing core's credit request (R352): granted in a record, or a refusal code. A fenced core
takes no answer (R545). -/
def State.coreCred (s : State) (c code : Nat) (rec' : Option Nat) : State :=
  if s.isFenced 1 c then s
  else
    let s := (s.wr F.L_CRED_RESULT_CODE code c).wr F.L_CRED_RESULT_RECORD (rec'.getD 0) c
    s.upCore c fun x => { x with credCode := code, credRec := rec', cred := if code = 0 then x.cred else none, credWait := false,
                                 rdata := if x.credWait then leBytes (code + 16 * rec'.getD 0) 8 else x.rdata }

/-- A waiting credit request is refused to its holder (R544). -/
def State.refuseReq (s : State) (t : Nat) (r : CredReq) (code : Nat) : State :=
  match r.cls with
  | 2 => match (s.quay r.unit).pushes.find? fun x => x.post.tile == t && x.post.slip == r.slip && x.recNo.isNone with
    | some x => s.pushFail r.unit x (opCase 0x0110 code)
    | none => s
  | 4 => s.coreCred r.unit code none
  | 5 => match (List.range 16).find? fun c => s.rd F.CF_CHAN_A_TILE r.unit c == t && s.rd F.CF_CHAN_A_SLIP r.unit c == r.slip with
    | some c => s.chanStop r.unit c code
    | none => s
  | _ => s

/-- A fenced tile is recorded as lost in every saved context that has it (R463). -/
def CtlX.loseTile (c : CtlX) (t : Nat) : CtlX :=
  let f := fun (x : Context) => if x.tiles.any (fun e => e.1 == t) then { x with lost := x.lost ++ [t] } else x
  { c with contexts := c.contexts.map f }

/-- A fence of a tile takes effect (R544, R545). -/
def State.fenceTile (s : State) (t : Nat) : State :=
  let s := s.haltRecord t 0x0F 7 (s.rd F.T_PC_ADDR t) 0 0
  let s := (s.dropWait t).wr F.T_STATUS_STATE 4 t
  let s := s.returnToken t
  let reqs := (s.tile t).creds
  let s := s.upTile t fun x => { x with results := [], mq := [], mload := none, mstream := none, mpos := 0, mseg := [], granted := false, sq := [], srun := none, sampQ := [], sampRun := none, manQ := [], manRun := none, creds := [], held := 0, stopReq := false, eccWb := [] }
  let s := s.wr F.FT_FENCED_TILE_MAP (s.rd F.FT_FENCED_TILE_MAP 0 (t / 64) ||| 2 ^ (t % 64)) 0 (t / 64)
  let s := (List.range 16).foldl (fun s c => if s.credState t c = 1 ∨ s.credState t c = 2 then s.releaseCred t c 0
                                             else s.wr F.T_CRED_A_STATE 0 t c) s
  let s := reqs.foldl (fun s r => s.refuseReq t r 8) s
  let s := s.upCtl fun c => c.loseTile t
  s.upHub fun h => { h with marks := h.marks ++ [(0, t), (3, t)] }

/-- A lease is revoked (R549). -/
def State.leaseRevoke (s : State) (n code : Nat) : State :=
  let d := s.rd F.FT_LEASE_STATE_HOLDER 0 n + s.rd F.FT_LEASE_STATE_SEQ 0 n * 2 ^ 32
  ((s.wr F.FT_LEASE_STATE_HELD 0 0 n).wr F.FT_LEASE_STATE_REVOKED 1 0 n).event 8 7 0 code d

/-- A fence of a landing core takes effect (R544): it stops, its streams and waits are gone, its leases revoked. -/
def State.fenceCore (s : State) (c : Nat) : State :=
  let s := s.stopCore c
  let s := s.upCore c fun _ => { stopped := true }
  let s := (List.range 8).foldl (fun s k => s.wr F.L_STRM_CTL_ACTIVE 0 c k) s
  let s := s.wr F.FT_FENCED_UNITS_CORES (s.rd F.FT_FENCED_UNITS_CORES ||| 2 ^ c)
  let s := (List.range 32).foldl (fun s n =>
    if s.rd F.FT_LEASE_STATE_HELD 0 n = 1 ∧ s.rd F.FT_LEASE_STATE_HOLDER 0 n = c then s.leaseRevoke n 0x81 else s) s
  s.upHub fun h => { h with waits := h.waits.filter (fun o => !(o.cls == 1 && o.unit == c)),
                            answers := h.answers.filter (fun a => !(a.cls == 1 && a.unit == c)), marks := h.marks ++ [(1, c)] }

/-- A fence of a quay takes effect (R544): device traffic ends, staging and absorbed writes are abandoned. -/
def State.fenceQuay (s : State) (q : Nat) : State :=
  let s := (s.upQuay q fun x => { lists := x.lists, arrived := x.arrived }).wabSync q
  let s := s.wr F.FT_FENCED_UNITS_QUAYS (s.rd F.FT_FENCED_UNITS_QUAYS ||| 2 ^ q)
  s.upHub fun h => { h with marks := h.marks ++ [(2, q)] }

/-- FENCE_EXECUTE (R543, R544): the next request, a fence, takes effect; a quay's fence puts the module out of
service. -/
def State.fenceExecute (s : State) : State :=
  match s.fault.active, s.fault.reqs with
  | none, r :: l =>
    if r.un then s
    else
      let s := s.upFault fun x => { x with reqs := l, active := some r }
      let gen := s.rd F.FT_FENCE_GEN_GEN
      let s := match r.kind with
        | 0 => s.fenceTile r.unit
        | 1 => s.fenceCore r.unit
        | _ => s.fenceQuay r.unit
      let s := s.event 3 r.kind r.unit 0x0020 gen r.actor
      if r.kind = 2 ∧ s.rd F.FT_STATE_OUT = 0 then s.outOfService 2 r.unit 0x0033 0 else s
  | _, _ => s

/-- RECLAIM_WALK_END (R233, R275, R545): credits the fenced unit held are released, its objects are broken, and the
fence is complete. -/
def State.walkEnd (s : State) : State :=
  match s.fault.active with
  | none => s
  | some r =>
    let cls := if r.kind = 1 then 4 else 2
    let s := if r.kind = 0 then s
      else s.liveTiles.foldl (fun s t => (List.range 32).foldl (fun s i => s.reclaimSlip t i cls r.unit) s) s
    let ms := s.hub.marks
    let s := ms.foldl (fun s m => s.soMark m.1 m.2) (s.upHub fun h => { h with marks := [] })
    s.upFault fun x => { x with active := none }

/-- Offsets of a tile's control registers that UNFENCE resets (R547): the core's and its units', their counters apart;
the router and its timetables, powered apart from the tile (R74), keep theirs. -/
def unfenceOff (o : Nat) : Bool :=
  0x80000 ≤ o && o < 0x87000 && !tileCounter o

/-- The generator of a landing core that leaves reset is seeded, unless the entropy source fails: an entropy fault, and the
core does not start (R150, R151). -/
def State.seedCore (s : State) (c : Nat) : State :=
  if s.boot.entropy then s.upBoot fun b => { b with landSeed := b.landSeed ||| 2 ^ c }
  else (s.upBoot fun b => { b with landSeed := if b.landSeed.testBit c then b.landSeed ^^^ 2 ^ c else b.landSeed }).outOfService
    7 0 0x0036 0

/-- UNFENCE_EXECUTE (R543, R547): the next request, an unfence, restores the unit. -/
def State.unfenceExecute (s : State) : State :=
  match s.fault.active, s.fault.reqs with
  | none, r :: l =>
    if !r.un then s
    else
      let s := s.upFault fun x => { x with reqs := l }
      let gen := s.rd F.FT_FENCE_GEN_GEN
      let u := r.unit
      let s := match r.kind with
        | 0 =>
          let total := s.rd F.T_EVLOG_PTR_TOTAL u
          let s := s.dropMem fun a => spad u 0 ≤ a && a < spad u 0x6_0000
          let s := s.dropRf fun k => tileOfKey k == some u && match tileOff k with
            | some o => unfenceOff o
            | none => false
          let s := (s.matrixReset fun t => t == u).wr F.T_EVLOG_PTR_TOTAL total u
          let s := s.upTile u fun x => { issued := x.issued, rtEntry := x.rtEntry, rtStart := x.rtStart, inputs := x.inputs, express := x.express, busyTc := x.busyTc, rawTx := x.rawTx, rawRx := x.rawRx, sent := x.sent, tails := x.tails, moved := x.moved, lastRead := x.lastRead }
          s.wr F.FT_FENCED_TILE_MAP (s.rd F.FT_FENCED_TILE_MAP 0 (u / 64) &&& (2 ^ 64 - 1 - 2 ^ (u % 64))) 0 (u / 64)
        | _ =>
          let s := s.dropRf fun k =>
            let o := k / 64 - Blk.core.base u
            decide (Blk.core.base u ≤ k / 64) && (decide (o < 0x100) || decide (0x400 ≤ o ∧ o < 0x500))
          let s := (s.upCore u fun _ => {}).seedCore u
          s.wr F.FT_FENCED_UNITS_CORES (s.rd F.FT_FENCED_UNITS_CORES &&& (2 ^ 16 - 1 - 2 ^ u))
      s.event 3 r.kind u 0x0021 gen r.actor
  | _, _ => s

/-! ## Access faults of landing cores -/

/-- A landing core's access faults (R350): the record is written, MORE telling of one not read before it. In task mode
the supervisor's handler is entered; in the handler the core stops, and its double fault fences it, or, for core 0,
takes the module out of service. -/
def State.coreFault (s : State) (c code detail addr : Nat) : State :=
  let sup := s.rd F.L_STATUS_SUPER c
  let more := s.rd F.L_FAULT_VALID c
  let s := s.wr F.L_FAULT_CODE code c
  let s := s.wr F.L_FAULT_TASK (if sup = 1 then 0 else s.rd F.L_STATUS_TASK c) c
  let s := ((s.wr F.L_FAULT_SUPER sup c).wr F.L_FAULT_MORE more c).wr F.L_FAULT_DETAIL detail c
  let s := (s.wr F.L_FAULT_VALID 1 c).wr F.L_FAULT_ADDR_ADDR addr c
  let rec' := s.reg [F.L_FAULT_CODE, F.L_FAULT_TASK, F.L_FAULT_SUPER, F.L_FAULT_MORE, F.L_FAULT_DETAIL, F.L_FAULT_VALID] c
  let inHandler := (s.core c).handler
  let s := s.upCore c fun x => { x with handler := true, mem := none, soOp := false, credWait := false }
  let s := s.wr F.L_STATUS_SUPER 1 c
  if sup = 1 ∧ inHandler then
    let s := s.stopCore c
    if c = 0 then s.outOfService 1 0 0x0034 rec'
    else (s.event 3 1 c 0x0040 rec' 4).fenceAsk 1 c false 4
  else s

/-- Whether a landing core can make an access now: its generator is seeded (R150), it runs no stalled access, and it is
neither stopped nor fenced. -/
def State.coreReady (s : State) (c : Nat) : Bool :=
  let x := s.core c
  s.boot.landSeed.testBit c && !x.stopped && !s.isFenced 1 c && x.mem.isNone && !x.soOp && !x.credWait && !(x.soWait.any fun w => w.2.1) && !x.fence

/-! ## Quay bursts -/

/-- A burst fails its CRC (R334): three retries; then a read, the next to complete at the quay, is uncorrectable, and a
write is a link fault that fences the quay and takes the module out of service. -/
def State.edcFail (s : State) (q : Nat) (write : Bool) : State :=
  if s.isFenced 2 q then s
  else if (s.quay q).retries < 3 then
    (s.inc F.Q_EDC_RETRY_COUNT 1 q).upQuay q fun x => { x with retries := x.retries + 1 }
  else
    let s := s.upQuay q fun x => { x with retries := 0 }
    if write then
      let a := ((s.quay q).wab.head?.map QReq.addr).getD 0
      (s.fenceAsk 2 q false 4).outOfService 2 q 0x0032 a
    else s.upQuay q fun x => { x with edcBad := true }

/-! ## Commands -/

/-- EDC_RETRY (R334). -/
def execEdcRetry (q : QuayId) (write : Bool) (s : State) : Host.Outcome State Fault Refusal :=
  .next (s.edcFail q.val write)

/-- FT_FENCE_REQUEST (R543): a privileged write of FT_FENCE_REQ with OP 1. -/
def execFtFenceRequest (kind : BitVec 2) (unit : BitVec 12) (s : State) : Host.Outcome State Fault Refusal :=
  .next (s.fenceAsk kind.toNat unit.toNat false 3)

/-- FT_UNFENCE_REQUEST (R543): a privileged write of FT_FENCE_REQ with OP 2. -/
def execFtUnfenceRequest (kind : BitVec 2) (unit : BitVec 12) (s : State) : Host.Outcome State Fault Refusal :=
  .next (s.fenceAsk kind.toNat unit.toNat true 3)

/-- FENCE_EXECUTE (R544). -/
def execFenceExecute (s : State) : Host.Outcome State Fault Refusal := .next s.fenceExecute

/-- FT_EVQ_B_READ (R541): the read returns the head entry's DATA and removes the entry. -/
def execFtEvqBRead (s : State) : Host.Outcome State Fault Refusal :=
  .next (s.upFault fun x => { x with events := x.events.drop 1 })

/-- CORR_WINDOW_END (R540): units that reached a limit other than 0 in the window raise DEGRADED, in ascending kind and
unit; the counts begin again. -/
def execCorrWindowEnd (s : State) : Host.Outcome State Fault Refusal :=
  let l := s.rd F.FT_CORR_LIMIT_COUNT
  .next ((s.fault.corr.foldl (fun s e =>
    if l ≠ 0 ∧ l ≤ e.2 then s.event 2 (e.1 / 4096) (e.1 % 4096) 0x0010 e.2 else s) s).upFault fun x => { x with corr := [] })

/-- Whether a core's write of a lease register reaches the pilot (R548): in supervisor mode; a task's write faults
with PRIVILEGE. -/
def State.leaseWrite (s : State) (c n : Nat) (k : State) : State :=
  if !s.coreReady c then s
  else if s.rd F.L_STATUS_SUPER c = 0 then s.coreFault c 0x13 0 (0x3800_0000_8400 + 16 * n)
  else k

/-- Whether TERM is one that a lease takes (R551). -/
def termOk (n : Nat) : Bool := decide (1 ≤ n) && decide (n ≤ 1000000)

/-- An acquire (R548): applied while the lease is not held. -/
def State.leaseAcquire (s : State) (c n term : Nat) : State :=
  if s.rd F.FT_LEASE_STATE_HELD 0 n = 0 && termOk term then
    ((((s.wr F.FT_LEASE_STATE_HELD 1 0 n).wr F.FT_LEASE_STATE_HOLDER c 0 n).wr F.FT_LEASE_STATE_REMAIN term 0 n).inc
      F.FT_LEASE_STATE_SEQ 1 0 n)
  else s

/-- Whether a core holds a lease. -/
def State.holdsLease (s : State) (c n : Nat) : Bool :=
  s.rd F.FT_LEASE_STATE_HELD 0 n == 1 && s.rd F.FT_LEASE_STATE_HOLDER 0 n == c

/-- A renewal (R548): applied from the holder. -/
def State.leaseRenew (s : State) (c n term : Nat) : State :=
  if s.holdsLease c n && termOk term then s.wr F.FT_LEASE_STATE_REMAIN term 0 n else s

/-- A release (R548): applied from the holder. A release needs no TERM. -/
def State.leaseRelease (s : State) (c n : Nat) : State :=
  if s.holdsLease c n then s.wr F.FT_LEASE_STATE_HELD 0 0 n else s

/-- LEASE_ACQUIRE (R548). -/
def execLeaseAcquire (core : CoreId) (lease : Fin 32) (term : BitVec 20) (s : State) : Host.Outcome State Fault Refusal :=
  .next (s.leaseWrite core.val lease.val (s.leaseAcquire core.val lease.val term.toNat))

/-- LEASE_RENEW (R548). -/
def execLeaseRenew (core : CoreId) (lease : Fin 32) (term : BitVec 20) (s : State) : Host.Outcome State Fault Refusal :=
  .next (s.leaseWrite core.val lease.val (s.leaseRenew core.val lease.val term.toNat))

/-- LEASE_RELEASE (R548). -/
def execLeaseRelease (core : CoreId) (lease : Fin 32) (s : State) : Host.Outcome State Fault Refusal :=
  .next (s.leaseWrite core.val lease.val (s.leaseRelease core.val lease.val))

/-- LEASE_EXPIRE (R549): a held lease whose REMAIN has reached 0 is revoked. -/
def execLeaseExpire (lease : Fin 32) (s : State) : Host.Outcome State Fault Refusal :=
  .next (if s.rd F.FT_LEASE_STATE_HELD 0 lease.val = 1 ∧ s.rd F.FT_LEASE_STATE_REMAIN 0 lease.val = 0 then
    s.leaseRevoke lease.val 0x80 else s)

/-- FT_SOFT_CODE (R551): a privileged write logs a SOFTWARE record with FT_SOFT_DATA. -/
def execFtSoftCode (code : BitVec 15) (s : State) : Host.Outcome State Fault Refusal :=
  .next (s.event 15 8 0 (0x8000 + code.toNat) (s.rd F.FT_SOFT_DATA_DATA) 0)

end Sys2Proof.Machine
end

