-- ==== Sys2Proof/Machine/Access.lean ====
section
/-! DEFINITION. Accesses to a tile from outside (R221, R228–R245, R264): task windows, the debug access path, credits
at a tile, the scrub; and the operations of landing cores at the sync hub (R271, R277). -/

namespace Sys2Proof.Machine

/-! ## Who makes an access -/

/-- The landing core that makes an access, where one does. -/
def coreOf : Accessor → Option Nat
  | .super c => some c.val
  | .handler c => some c.val
  | .task c _ => some c.val
  | .debug => none
  | .host => none

/-- Whether an access is privileged (R339). -/
def isSuper : Accessor → Bool
  | .super _ => true
  | .handler _ => true
  | _ => false

/-- The landing core's mode as its access tells it (R339): landing software is not part of the model, so a core enters
and leaves task mode and the fault handler by making an access in that mode, and runs from its first access on. -/
def State.asWho (s : State) : Accessor → State
  | .super c => ((s.wr F.L_STATUS_RUN 1 c.val).wr F.L_STATUS_SUPER 1 c.val).upCore c.val fun x => { x with handler := false }
  | .handler c => ((s.wr F.L_STATUS_RUN 1 c.val).wr F.L_STATUS_SUPER 1 c.val).upCore c.val fun x => { x with handler := true }
  | .task c k => (((s.wr F.L_STATUS_RUN 1 c.val).wr F.L_STATUS_SUPER 0 c.val).wr F.L_STATUS_TASK k.toNat c.val).upCore c.val
      fun x => { x with handler := false }
  | .debug => s
  | .host => s

/-! ## Windows and ranges -/

/-- Whether a window of a tile lets a task make an access (R235). -/
def State.winOk (s : State) (t task off size : Nat) (wr : Bool) : Bool :=
  (List.range 8).any fun w =>
    s.rd F.T_WIN_BASE_EN t w == 1 && s.rd F.T_WIN_BASE_TASK t w == task
      && decide (s.rd F.T_WIN_BASE_BASE t w ≤ off) && decide (off + size ≤ s.rd F.T_WIN_BOUND_BOUND t w)
      && (if wr then s.rd F.T_WIN_BASE_WRITE t w == 1 else s.rd F.T_WIN_BASE_READ t w == 1)

/-- Whether an accessor passes the window check of a tile (R235). -/
def State.passes (s : State) (t : Nat) (who : Accessor) (off size : Nat) (wr : Bool) : Bool :=
  match who with
  | .super _ => true
  | .handler _ => true
  | .task _ k => s.winOk t k.toNat off size wr
  | .debug => decide (0x80000 ≤ off) || s.winOk t 127 off size wr
  | .host => false

/-- Window offsets that R70 maps: scratchpad and tile control registers. -/
def mapped (off : Nat) : Bool := decide (off < 0x60000) || (decide (0x80000 ≤ off) && decide (off < 0x90000))

/-- Window offsets of the register file (R95). -/
def rfOff (o : Nat) : Bool := decide (0x81000 ≤ o) && decide (o < 0x81508)

/-- Window offsets of the matrix state that R190 guards, T_MSKIP, T_MAUDIT and T_LOOK_THRESH (R212) among them. -/
def matOff (o : Nat) : Bool :=
  (decide (0x80408 ≤ o) && decide (o < 0x80438)) || (decide (0x82000 ≤ o) && decide (o < 0x86000))

/-- Window offsets of the router's registers, which belong to the spine (R264). -/
def routerOff (o : Nat) : Bool := decide (0x87000 ≤ o)

/-- Router registers whose writes R264 guards. -/
def routeCfgOff (o : Nat) : Bool := o == 0x87008 || o == 0x87010 || decide (0x87800 ≤ o)

/-! ## Writes of tile registers -/

/-- Whether a tile is STOPPED or HALTED. -/
def State.atRest (s : State) (t : Nat) : Bool := s.tstate t == 0 || s.tstate t == 2

/-- A slip's BASE, SIZE and CLASS. -/
def State.slipGeom (s : State) (t i : Nat) : Nat × Nat × Nat :=
  (s.rd F.SLIP_BASE_BASE t i, s.slipSize t i, s.slipClass t i)

/-- The REVOKED records of a slip become free (R233). -/
def State.freeRevoked (s : State) (t i : Nat) : State :=
  (List.range 16).foldl (fun s c =>
    if s.credState t c = 3 ∧ s.rd F.T_CRED_A_SLIP t c = i then s.freeCred t c else s) s

/-- A write of a slip register (R221, R233): the state, and the code of R241. -/
def State.slipWrite (s : State) (t off v : Nat) : State × Nat :=
  let i := (off - 0x86000) / 64
  if !s.atRest t then (s, 1)
  else
    let s1 := s.write8 .tile t off v
    let s2 := if s.rd F.SLIP_ATTR_STUCK t i = 1 ∧ s1.rd F.SLIP_ATTR_STUCK t i = 0 then s1.freeRevoked t i else s1
    if s1.slipGeom t i != s.slipGeom t i then
      if s.rd F.SLIP_RSV_CREDITS t i ≠ 0 ∨ (s.tile t).creds.any (fun r => r.slip == i) then (s, 0xB)
      else ((s2.wr F.SLIP_HEAD_COUNT 0 t i).wr F.SLIP_TAIL_COUNT 0 t i, 0)
    else (s2, 0)

/-- What a write of T_CTRL commands (R93): GO, RESUME, STOP, in that order where several are set. -/
def State.ctrlWrite (s : State) (t v : Nat) : State :=
  let s := s.write8 .tile t 0x80000 v
  let s := if v.testBit 0 then s.go t else s
  let s := if v.testBit 1 then s.resume t else s
  if v.testBit 2 then s.stop t else s

/-- Eight bytes written to a tile's control registers from outside: the state, and the code of R241. -/
def State.tileWrite8 (s : State) (t : Nat) (who : Accessor) (off v : Nat) : State × Nat :=
  let own := isSuper who || who == .debug
  if rfOff off then (if s.atRest t then (s.write8 .tile t off v, 0) else (s, 1))
  else if matOff off then (if s.atRest t && s.matIdle t then (s.write8 .tile t off v, 0) else (s, 1))
  else if 0x86000 ≤ off ∧ off < 0x86800 then s.slipWrite t off v
  else if 0x86800 ≤ off ∧ off < 0x86880 then (if own then (s.write8 .tile t off v, 0) else (s, 3))
  else if 0x86C00 ≤ off ∧ off < 0x87000 then
    if !own then (s, 3) else if s.atRest t && s.mfIdle t then (s.write8 .tile t off v, 0) else (s, 1)
  else if routeCfgOff off then
    if !own then (s, 3) else if s.rd F.XT_RSTATUS_RUN t = 1 then (s, 1) else (s.write8 .tile t off v, 0)
  else if off = 0x80000 then (s.ctrlWrite t v, 0)
  else (s.write8 .tile t off v, 0)

/-- A run of eight-byte writes from an offset up, ended by the first that is refused. -/
def State.tileWrites (s : State) (t : Nat) (who : Accessor) (off : Nat) : List Nat → State × Nat
  | [] => (s, 0)
  | v :: r =>
    match s.tileWrite8 t who off v with
    | (s1, 0) => s1.tileWrites t who (off + 8) r
    | (s1, c) => (s1, c)

/-- Whether a tile's control registers take an access of a size at an offset: 8 B and more, or 4 B in g0–g31. -/
def ctrlSize (off size : Nat) : Bool :=
  ([8, 16, 32, 64].contains size && off % size == 0)
    || (size == 4 && off % 4 == 0 && decide (0x81000 ≤ off) && decide (off < 0x81080))

/-! ## An access from outside -/

/-- An access to scratchpad (R236, R239, R243): the state, the code, what a read returns. -/
def State.spadAccess (s : State) (t : Nat) (off size : Nat) (wr : Option (List Byte)) (ecc : Ecc) :
    State × Nat × List Byte :=
  if !([8, 32, 64].contains size) || off % size != 0 then (s, 4, [])
  else match wr with
    | none =>
      let (s1, bad) := s.readCheck t [(off, size)] 4 ecc
      if bad.isSome then (s1, 9, []) else (s1, 0, s.bytes (spad t off) size)
    | some d =>
      if s.tstate t = 1 then (s, if s.inExec t off size then 2 else 4, [])
      else (s.setBytes (spad t off) (leBytes (leVal d) size), 0, [])

/-- An access to a tile's control registers: the state, the code, what a read returns. -/
def State.ctrlAccess (s : State) (t : Nat) (who : Accessor) (off size : Nat) (wr : Option (List Byte)) :
    State × Nat × List Byte :=
  let o8 := off / 8 * 8
  if !ctrlSize off size then (s, 0x19, [])
  else match wr with
    | none =>
      if (((List.range ((size + 7) / 8)).any fun j => rfOff (o8 + 8 * j) || matOff (o8 + 8 * j))) && s.tstate t == 1 then
        (s, 1, [])
      else
        let d := s.readRegs .tile t o8 ((size + 7) / 8)
        let s1 := (List.range ((size + 7) / 8)).foldl (fun s j => s.clearRead .tile t (o8 + 8 * j)) s
        (s1, 0, (d.drop (off - o8)).take size)
    | some d =>
      if size = 4 then
        let old := s.readRegs .tile t o8 1
        let new := if off = o8 then leBytes (leVal d) 4 ++ old.drop 4 else old.take 4 ++ leBytes (leVal d) 4
        let (s1, c) := s.tileWrite8 t who o8 (leVal new)
        (s1, c, [])
      else
        let (s1, c) := s.tileWrites t who off (chunks8 (size / 8) d)
        (s1, c, [])

/-- What of a refused access the tile itself records (R238, R239): a code write, and every refusal of the debug path,
with the halt reason that has the refusal's name where there is one, and where there is none a free value among the reasons
that R12 leaves (0x01–0x12). -/
def State.logRefused (s : State) (t : Nat) (who : Accessor) (code : Nat) : State :=
  match who with
  | .debug =>
    match code with
    | 2 => s.evlog t 0x07 5 0
    | 3 => s.evlog t 0x05 5 0
    | 7 => s.evlog t 0x0B 5 0
    | 8 => s.evlog t 0x0F 5 0
    | 9 => s.evlog t 0x06 5 0
    | _ => s.drawn.evlog t ((Config.rng s.free).toNat % 18 + 1) 5 0
  | .host => s
  | _ => if code = 2 then s.evlog t 0x07 1 ((coreOf who).getD 0) else s

/-- An access from outside to a tile window (R235, R236, R241): fenced, unmapped, window, then what the target
makes of it. The state, the code of R241 (or ALIGN of R349), what a read returns. -/
def State.outside (s : State) (t : Nat) (who : Accessor) (off size : Nat) (wr : Option (List Byte)) (ecc : Ecc) :
    State × Nat × List Byte :=
  let r :=
    if s.tstate t = 4 ∧ !(routerOff off && decide (off < 0x90000)) then (s, 8, [])
    else if !mapped off then (s, 0xA, [])
    else if !s.passes t who off size wr.isSome then (s, 3, [])
    else if off < 0x60000 then s.spadAccess t off size wr ecc
    else s.ctrlAccess t who off size wr
  if r.2.1 = 0 then r else (r.1.logRefused t who r.2.1, r.2.1, [])

/-- A landing core's access ends: a fault with its code, or data for a read. -/
def State.coreEnds (s : State) (c code addr : Nat) (d : List Byte) (wr : Bool) : State :=
  if code ≠ 0 then s.coreFault c code 0 addr
  else if wr then s else s.upCore c fun x => { x with rdata := d }

/-- Device address of a tile-window offset. -/
def winAddr (t off : Nat) : Nat := 0x2000_0000_0000 + 0x10_0000 * t + off

/-! ## The debug access path -/

/-- DBG_CTL.GO is written (R238). -/
def State.dbgGo (s : State) : State :=
  if s.rd F.DBG_CTL_DONE = 0 then s
  else if !s.boot.debug then s.wr F.DBG_CTL_RESULT 3
  else s.wr F.DBG_CTL_DONE 0

/-- The debug path's access is made (R238). -/
def State.dbgAccess (s : State) (ecc : Ecc) : State :=
  if s.rd F.DBG_CTL_DONE = 1 then s
  else
    let s := s.wr F.DBG_CTL_DONE 1
    let a := s.rd F.DBG_ADDR_ADDR
    if a < 0x2000_0000_0000 ∨ 0x2000_C000_0000 ≤ a then s.wr F.DBG_CTL_RESULT 0xA
    else
      let t := (a - 0x2000_0000_0000) / 0x10_0000
      let w := s.rd F.DBG_CTL_WRITE = 1
      let (s, code, d) := s.outside t .debug (a % 0x10_0000) 8
        (if w then some (leBytes (s.rd F.DBG_DATA_DATA) 8) else none) ecc
      let s := s.wr F.DBG_CTL_RESULT code
      if code = 0 ∧ ¬w then s.wr F.DBG_DATA_DATA (leVal d) else s

/-- An access to tile t that the debug path is told to make (R238): as through DBG_ADDR, DBG_DATA and DBG_CTL, 8 B only. -/
def State.dbgMake (s : State) (t off size : Nat) (wr : Option (List Byte)) (ecc : Ecc) : State :=
  if s.rd F.DBG_CTL_DONE = 0 ∨ size ≠ 8 then s
  else
    let s := (s.wr F.DBG_ADDR_ADDR ((winAddr t off) / 8 * 8)).wr F.DBG_CTL_WRITE (b2n wr.isSome)
    let s := match wr with
      | some d => s.wr F.DBG_DATA_DATA (leVal (d.take 8))
      | none => s
    s.dbgGo.dbgAccess ecc

/-! ## Credits at a tile -/

/-- A credit request reaches a tile (R229, R230): it is refused to its holder or it waits. A class that never uses
credits (R228), or a unit that is not there, sends none. -/
def State.credRequest (s : State) (t slip bytes cls unit : Nat) : State :=
  if !((cls == 2 && decide (unit < 24)) || (cls == 4 && decide (unit < 16)) || (cls == 5 && decide (unit < 12))) then s
  else
    let r : CredReq := { slip := slip, bytes := bytes, cls := cls, unit := unit }
    let s := if cls = 4 then s.upCore unit fun x => { x with cred := some (t, slip, bytes), credRec := none } else s
    match s.credRefusal t slip bytes cls with
    | 0 => s.credQueue t slip bytes cls unit
    | k => (s.refuse t (cls * 4096 + unit) k).refuseReq t r k

/-- A grant reaches its holder (R326, R352, R399). -/
def State.credTell (s : State) (t c : Nat) (r : CredReq) : State :=
  match r.cls with
  | 2 =>
    let p := fun (x : Push) => x.post.tile == t && x.post.slip == r.slip && x.size == r.bytes && x.recNo.isNone
    s.upQuay r.unit fun x => { x with pushes := mapFirst p (fun y => { y with recNo := some c }) x.pushes }
  | 4 => s.coreCred r.unit 0 (some c)
  | _ => s.chanGranted r.unit t r.slip c

/-- CREDIT_GRANT at a tile (R230): the request to be granted next, where a record is free. -/
def State.credGrant (s : State) (t : Nat) : State :=
  match nextGrant s t (s.tile t).creds [], s.freeRec t with
  | some r, some c => (s.openCred t c r).credTell t c r
  | _, _ => s

/-- A credited write reaches a tile (R231): carried out, or refused to its holder, which reports it (R233, R327). -/
def State.credArrive (s : State) (t c cls unit off : Nat) (d : List Byte) (last : Bool) : State :=
  match s.credWriteCode t c cls unit off d.length with
  | 0 =>
    let s := s.credWrite t c off d last
    if last && cls == 4 then s.upCore unit fun x => { x with cred := none, credRec := none } else s
  | k =>
    let s := (s.credRefused t c cls unit k).refuse t (cls * 4096 + unit) k
    match cls with
    | 2 => match (s.quay unit).pushes.find? fun x => x.post.tile == t && x.recNo == some c with
      | some x => s.pushFail unit x (opCase 0x0110 k)
      | none => s
    | 4 => s.coreFault unit k 0 (Blk.core.base unit + 0x80000 + off)
    | 5 => match (List.range 16).find? fun j => s.rd F.CF_CHAN_A_TILE unit j == t && ((s.eng unit).chan j).recNo == some c with
      | some j => s.chanStop unit j k
      | none => s
    | _ => s

/-! ## Landing cores at the sync hub -/

/-- An operation through SO_OP (R277): it leaves for the hub, and the core stalls until the answer. -/
def State.soOp (s : State) (c op obj val : Nat) : State :=
  if !s.coreReady c then s
  else
    let x : HubOp := { cls := 1, unit := c, op := op, obj := obj, val := val, part := s.corePart c,
                       priv := s.rd F.L_STATUS_SUPER c == 1, addr := 0 }
    (s.toHub x).upCore c fun y => { y with soOp := true }

/-- The hub's answer to SO_OP reaches the core (R277, R349). -/
def State.soOpDone (s : State) (c : Nat) : State :=
  match s.hub.answers.find? fun a => a.cls == 1 && a.unit == c && a.op != 3 with
  | none => s
  | some a =>
    let s := s.upHub fun h => { h with answers := dropFirst (fun b => b == a) h.answers }
    if s.isFenced 1 c then s
    else
      let s := s.upCore c fun x => { x with soOp := false }
      if a.code = 0 then s else s.coreFault c 0x16 a.code 0x3800_0012_0000

/-- A landing core's arrival at a barrier (R271): an unallocated one, or for a task one of another partition, is
refused with WINDOW_BOUND. -/
def State.barArrive (s : State) (c b : Nat) : State :=
  if !s.coreReady c then s
  else
    let p := s.corePart c
    if s.rd F.XT_BAR_ALLOC 0 b = 0 ∨ (p ≠ 4 ∧ s.rd F.XT_BAR_PART 0 b ≠ p) then s.coreFault c 3 0 0x3800_0000_4800
    else s.gridStart.arrive b 1

/-! ## Commands -/

/-- CREDIT_REQUEST (R229). -/
def execCreditRequest (t : TileId) (slip : SlipId) (bytes : BitVec 20) (cls : BitVec 3) (unit : BitVec 5) (s : State) :
    Host.Outcome State Fault Refusal := .next (s.credRequest t.val slip.val bytes.toNat cls.toNat unit.toNat)

/-- CREDIT_GRANT (R230). -/
def execCreditGrant (t : TileId) (s : State) : Host.Outcome State Fault Refusal := .next (s.credGrant t.val)

/-- CREDITED_WRITE (R231). -/
def execCreditedWrite (t : TileId) (rec' : BitVec 4) (cls : BitVec 3) (unit : BitVec 5) (off : BitVec 20)
    (data : List (BitVec 8)) (last : Bool) (s : State) : Host.Outcome State Fault Refusal :=
  .next (s.credArrive t.val rec'.toNat cls.toNat unit.toNat off.toNat data last)

/-- CREDIT_APPEND (R232). -/
def execCreditAppend (t : TileId) (slip : SlipId) (s : State) : Host.Outcome State Fault Refusal :=
  .next (s.appendCreds t.val slip.val 1)

/-- TASK_WINDOW_ACCESS (R235, R236). -/
def execTaskWindowAccess (t : TileId) (who : Accessor) (off : BitVec 20) (size : Nat) (wr : Option (List (BitVec 8)))
    (ecc : Ecc) (s : State) : Host.Outcome State Fault Refusal :=
  .next (match who with
    | .host => s
    | .debug => s.dbgMake t.val off.toNat size wr ecc
    | who =>
      let c := (coreOf who).getD 0
      if !s.coreReady c then s
      else
        let (s, code, d) := (s.asWho who).outside t.val who off.toNat size wr ecc
        s.coreEnds c code (winAddr t.val off.toNat) d wr.isSome)

/-- SLIP_REGISTER_WRITE (R221): a privileged write. -/
def execSlipRegisterWrite (t : TileId) (slip : SlipId) (reg : BitVec 3) (value : BitVec 64) (s : State) :
    Host.Outcome State Fault Refusal :=
  .next (if s.tstate t.val = 4 then s.refuse t.val 0x6000 8
    else
      let (s, c) := s.slipWrite t.val (0x86000 + 64 * slip.val + 8 * reg.toNat) value.toNat
      if c = 0 then s else s.refuse t.val 0x6000 c)

/-- DBG_GO (R238). -/
def execDbgGo (s : State) : Host.Outcome State Fault Refusal := .next s.dbgGo

/-- DEBUG_ACCESS_COMPLETE (R238). -/
def execDebugAccessComplete (ecc : Ecc) (s : State) : Host.Outcome State Fault Refusal := .next (s.dbgAccess ecc)

/-- ECC_WRITEBACK (R242, R243): the oldest corrected word is written back, unless the word was written first, or the
write-back itself meets an error that it cannot correct, which is only recorded. -/
def execEccWriteback (t : TileRead) (s : State) : Host.Outcome State Fault Refusal :=
  .next (match (s.tile t.tile.val).eccWb with
    | [] => s
    | (off, w) :: r =>
      let s := s.upTile t.tile.val fun x => { x with eccWb := r }
      let (s, bad) := s.readCheck t.tile.val [(off, 8)] 5 t.ecc
      if bad.isNone ∧ s.ldn (spad t.tile.val off) 8 = w then s.setBytes (spad t.tile.val off) (leBytes w 8) else s)

/-- PATROL_SCRUB_READ (R244): a bank's next word is read; not while the grid clock is stopped. -/
def execPatrolScrubRead (t : TileId) (bank : BitVec 4) (ecc : Ecc) (s : State) : Host.Outcome State Fault Refusal :=
  .next (if !s.clockRuns || s.tstate t.val == 4 then s
    else
      let p := aget 0 (s.tile t.val).scrub bank.toNat
      let s := (s.readCheck t.val [(0x6000 * bank.toNat + 32 * p, 32)] 5 ecc).1
      s.upTile t.val fun x => { x with scrub := aput 0 x.scrub bank.toNat ((p + 1) % 768) })

/-- SO_OP_ADD (R277). -/
def execSoOpAdd (core : CoreId) (obj : BitVec 13) (value : BitVec 32) (s : State) : Host.Outcome State Fault Refusal :=
  .next (s.soOp core.val 1 obj.toNat value.toNat)

/-- SO_OP_SET (R277). -/
def execSoOpSet (core : CoreId) (obj : BitVec 13) (value : BitVec 32) (s : State) : Host.Outcome State Fault Refusal :=
  .next (s.soOp core.val 2 obj.toNat value.toNat)

/-- SO_OP_ANSWER (R277). -/
def execSoOpAnswer (core : CoreId) (s : State) : Host.Outcome State Fault Refusal := .next (s.soOpDone core.val)

/-- XT_BAR_ARRIVE (R271). -/
def execXtBarArrive (core : CoreId) (b : BitVec 8) (s : State) : Host.Outcome State Fault Refusal :=
  .next (s.barArrive core.val b.toNat)

end Sys2Proof.Machine
end

