-- ==== Sys2Proof/Machine/Hold.lean ====
section
/-! DEFINITION. The hold logic (R53–R65, R267): checkpoint samples, holds, the polls of a slack and its attribution. -/

namespace Sys2Proof.Machine

/-- The cause of highest priority, as XT_HOLD_STATUS.ATTR codes it (R61, R64). -/
def topCause (c : Nat) : Nat :=
  if c.testBit 3 then 4 else if c.testBit 2 then 3 else if c.testBit 1 then 2 else if c.testBit 0 then 1 else 0

/-- The events counter of a cause, by its bit. -/
def causeEvents : Nat → Fld
  | 0 => F.XT_SLACK_EVENTS_QUAY
  | 1 => F.XT_SLACK_EVENTS_LINK
  | 2 => F.XT_SLACK_EVENTS_REFRESH
  | _ => F.XT_SLACK_EVENTS_THERMAL

/-- The tc counter of a cause, by ATTR. -/
def causeTc : Nat → Fld
  | 1 => F.XT_SLACK_TC_QUAY_TC
  | 2 => F.XT_SLACK_TC_LINK_TC
  | 3 => F.XT_SLACK_TC_REFRESH_TC
  | _ => F.XT_SLACK_TC_THERMAL_TC

/-! ## Samples and holds -/

/-- A checkpoint's sample (R53, R64), 16 tc before it and once: every asserted cause is counted; one that begins a slack
names its source. -/
def State.sample (s : State) : State :=
  if !s.clockRuns || s.holding || s.spine % 64 != 48 || s.hub.sampleAt == some s.spine then s
  else
    let c := s.causes
    let q := s.quayMask
    let s := (List.range 4).foldl (fun s i => if c.testBit i then s.inc (causeEvents i) 1 else s) s
    let s := (List.range 24).foldl (fun s k => if q.testBit k then s.inc F.Q_STAGE_SHORT_COUNT 1 k else s) s
    let s := s.upHub fun h => { h with sampled := c, sampleAt := some s.spine }
    if c = 0 then s
    else
      (((s.wr F.XT_SLACK_SOURCE_QMASK (q ||| s.refreshMask)).wr F.XT_SLACK_SOURCE_FMASK s.linkMask).wr
        F.XT_SLACK_SOURCE_CLAMP (b2n s.power.clamp)).wr F.XT_SLACK_SOURCE_THROTTLE (b2n (s.power.dieThr || s.power.memThr))

/-- The hold takes effect at its checkpoint (R53). Where every cause sampled has cleared by the first poll, the 16 tc of
the release go to the one of highest priority among those sampled. DESIGN CHOICE (log 151): R61 names the last to clear,
and no poll has seen which that was. -/
def State.holdBegin (s : State) : State :=
  let c := s.hub.sampled
  if !s.clockRuns || s.holding || !s.holdDue then s
  else
    ((s.wr F.XT_HOLD_STATUS_HOLDING 1).wr F.XT_HOLD_STATUS_ATTR (topCause c)).upHub fun h =>
      { h with sampled := 0, slackTc := 0, relTc := 0, lastPoll := c, overlong := false }

/-- One tc of slack for a tile in crossing (R62). -/
def State.slackTile (s : State) (attr t : Nat) : State :=
  if s.tstate t = 4 then s.addIdle t 13 1
  else if s.tstate t = 1 then s.addIdle t (slackIdle attr) 1
  else s.addIdle t 12 1

/-- One tc of slack, polled and attributed (R56, R61, R474, R476): to the cause of highest priority while one is asserted; from
the first tc with none, for 16 tc, to the one of highest priority among those that cleared last. -/
def State.holdPoll (s : State) : State :=
  if !s.holding || decide (16 ≤ s.hub.relTc) then s
  else
    let c := s.causes
    let going := s.hub.relTc == 0 && c != 0
    let attr := topCause (if going then c else s.hub.lastPoll)
    let s := s.wr F.XT_HOLD_STATUS_ATTR attr
    let s := (s.inc F.XT_SLACK_TOTAL_TC 1).inc (causeTc attr) 1
    let s := if attr ≠ 4 then s
             else if s.power.clamp then s.inc F.PW_CLAMP_TC_TC 1
             else if s.power.dieThr || s.power.memThr then s.inc F.PW_THROTTLE_TC_TC 1 else s
    let s := (s.liveTiles.filter fun t => s.inCrossing t).foldl (fun s t => s.slackTile attr t) s
    s.upHub fun h => { h with slackTc := h.slackTc + 1, relTc := if going then 0 else h.relTc + 1,
                              lastPoll := if going then c else h.lastPoll }

/-- A slack ends: at the release, or at STOP_GRID (R56, R63). DESIGN CHOICE (log 152): XT_SLACK_LONGEST, whose rule names
neither the slack still in force nor a length beyond its 32 bits, takes a slack at its end and saturates. -/
def State.endSlack (s : State) : State :=
  if !s.holding then s
  else
    let n := s.hub.slackTc
    let s := (s.wr F.XT_HOLD_STATUS_HOLDING 0).wr F.XT_HOLD_STATUS_ATTR 0
    let s := s.wr F.XT_SLACK_LONGEST_TC (max (s.rd F.XT_SLACK_LONGEST_TC) (min n (2 ^ 32 - 1)))
    s.upHub fun h => { h with slackTc := 0, relTc := 0, lastPoll := 0, overlong := false }

/-! ## Commands -/

/-- CHECKPOINT_SAMPLE (R53): the masks are those that State.causes computes, the command brings none. -/
def execCheckpointSample (_qmask _rmask _fmask : Computed) (s : State) : Host.Outcome State Fault Refusal := .next s.sample

/-- HOLD_BEGIN (R53). -/
def execHoldBegin (s : State) : Host.Outcome State Fault Refusal := .next s.holdBegin

/-- HOLD_POLL (R56): as CHECKPOINT_SAMPLE, with the masks computed. -/
def execHoldPoll (_qmask _rmask _fmask : Computed) (s : State) : Host.Outcome State Fault Refusal := .next s.holdPoll

/-- GRID_RESUME (R56): 16 tc after the release the grid resumes, every element where it stopped (R267). -/
def execGridResume (s : State) : Host.Outcome State Fault Refusal :=
  .next (if s.holding && s.hub.relTc == 16 then s.endSlack else s)

/-- SLACK_OVERLONG (R63): raised once in a slack longer than XT_SLACK_LIMIT; the hold continues. -/
def execSlackOverlong (s : State) : Host.Outcome State Fault Refusal :=
  let l := s.rd F.XT_SLACK_LIMIT_LIMIT
  .next (if s.holding && l != 0 && decide (l < s.hub.slackTc) && !s.hub.overlong then
    (s.event 5 6 0 0x50 s.hub.slackTc).upHub fun h => { h with overlong := true }
  else s)

end Sys2Proof.Machine
end

