-- ==== Sys2Proof/Machine/Roster.lean ====
section
/-! DEFINITION. The roster (R363–R380, R393): its table, commands, page pool, work lists and commits. -/

namespace Sys2Proof.Machine

/-! ## The table -/

/-- A 4-byte word of an entry (R363). -/
def State.ent (s : State) (n w : Nat) : Nat := s.rd F.ROS_ENT 0 (16 * n + w)
/-- Write a word of an entry. -/
def State.entWr (s : State) (n w v : Nat) : State := s.wr F.ROS_ENT v 0 (16 * n + w)
/-- A field of CTRL (R364). -/
def State.ctl1 (s : State) (n lo w : Nat) : Nat := bits (s.ent n 1) lo w
/-- Write a field of CTRL. -/
def State.ctlWr (s : State) (n lo w v : Nat) : State :=
  s.entWr n 1 (s.ent n 1 - (s.ctl1 n lo w) <<< lo + (v % 2 ^ w) <<< lo)
/-- STATE of an entry: 0 DONE, 1 PREFILL, 2 DECODE, 3 STOPPING. -/
def State.entState (s : State) (n : Nat) : Nat := s.ctl1 n 0 2
/-- LENGTH of an entry. -/
def State.entLen (s : State) (n : Nat) : Nat := bits (s.ent n 4) 0 21
/-- NPAGES of an entry. -/
def State.entPages (s : State) (n : Nat) : Nat := s.ctl1 n 16 14
/-- The page list's address. -/
def State.plist (s : State) (n : Nat) : Nat := s.ent n 6 + bits (s.ent n 7) 0 16 * 2 ^ 32
/-- The page list's capacity. -/
def State.pcap (s : State) (n : Nat) : Nat := bits (s.ent n 7) 16 14

/-- An entry leaves PREFILL or DECODE for STOPPING (R365); its record in the list being built takes note (R374). -/
def State.entStop (s : State) (n reason : Nat) : State :=
  let s := (s.ctlWr n 0 2 3).ctlWr n 7 3 reason
  s.upRos fun r => { r with build := r.build.map fun l =>
                              { l with records := l.records.map fun x => if x.slot = n then { x with left := true } else x } }

/-- Entries with a CTRL that is not 0, in ascending number. -/
def State.liveEnts (s : State) : List Nat :=
  (s.rf.filterMap fun e =>
    let a := e.1 / 64
    if 0x3800_0040_0000 ≤ a ∧ a < 0x3800_0050_0000 ∧ a % 64 = 4 then some ((a - 0x3800_0040_0000) / 64) else none)

/-! ## Commands of ROS_CMD -/

/-- Whether an entry passes the checks of ADMIT (R366). -/
def State.admitOk (s : State) (n : Nat) : Bool :=
  let len := s.ent n 4
  let maxlen := s.ent n 5
  let np := s.entPages n
  let temp := s.ent n 9
  let topp := s.ent n 10
  decide (1 ≤ len) && decide (len < maxlen) && decide (maxlen ≤ 1048576)
    && s.plist n % 64 == 0 && (s.gbad (s.plist n) (4 * s.pcap n)).isNone
    && decide ((len - 1) / 128 + 1 ≤ np) && decide (np ≤ s.pcap n)
    && (temp == 0 || (decide (0x0080_0000 ≤ temp) && decide (temp ≤ 0x4780_0000)))
    && toppOk topp && decide (s.ent n 11 ≤ 262144)
    && ([12, 13, 14, 15].all fun w => decide (s.ent n w < 262144) || s.ent n w == 0xFFFF_FFFF)
    && s.ctl1 n 14 2 == 0 && s.ctl1 n 30 2 == 0 && bits (s.ent n 7) 30 2 == 0

/-- The record of an entry in the current list whose commit is outstanding. -/
def State.outstanding (s : State) (n : Nat) : Bool :=
  match s.roster.cur with
  | none => false
  | some l => l.records.any fun r => r.slot == n && !r.void && !r.applied

/-- A command of ROS_CMD (R366): its effect and RESULT. -/
def State.rosCmd (s : State) (n op : Nat) : State :=
  let st := s.entState n
  let res :=
    if op = 1 ∨ op = 2 then
      if st ≠ 0 then 1 else if !s.admitOk n || (op == 2 && decide (262144 ≤ s.ent n 8)) then 2 else 0
    else if op = 3 then (if st = 1 ∨ st = 2 then 0 else 1)
    else if op = 4 then (if st = 3 then 0 else 1)
    else 2
  let s := (((s.wr F.ROS_CMD_SLOT n).wr F.ROS_CMD_OP op).wr F.ROS_CMD_RESULT res).wr F.ROS_CMD_DONE 1
  if res ≠ 0 then s
  else if op = 1 ∨ op = 2 then (((s.ctlWr n 2 8 0).ctlWr n 0 2 op).entWr n 2 0).entWr n 3 0
  else if op = 3 then (if s.outstanding n then s.ctlWr n 6 1 1 else s.entStop n 4)
  else s.ctlWr n 0 2 0

/-! ## Memory as the roster sees it -/

/-- A 4-byte word of GDDR7 as the roster reads it, its own writes on their way included (R315, R330). -/
def State.rosWord (s : State) (a : Nat) : Nat :=
  leVal ((List.range 4).map fun i =>
    match s.gmap (a + i) with
    | none => 0
    | some (q, _) =>
      let x := s.quay q
      (absorbed ((x.reserved ++ x.resWait).filter fun r => r.cls == 7) (a + i)).getD (s.gbyte (a + i)))

/-- The roster writes bytes to GDDR7. -/
def State.rosPut (s : State) (a : Nat) (d : List Byte) : State := s.gpost a d 7 0

/-! ## The page pool -/

/-- The address of an entry of the pool's ring. -/
def State.poolAddr (s : State) (i : Nat) : Nat :=
  s.rd F.ROS_POOL_BASE_BASE + 4 * (i % max 1 (s.rd F.ROS_POOL_CFG_SIZE))

/-- A page is pushed (R368). -/
def State.poolPush (s : State) (page : Nat) : State :=
  let n := s.rd F.ROS_POOL_FILL_FILL
  if page ≥ s.rd F.ROS_POOL_CFG_NPAGES ∨ n ≥ s.rd F.ROS_POOL_CFG_SIZE then s.wr F.ROS_POOL_FILL_REJECT 1
  else (s.rosPut (s.poolAddr (s.roster.poolHead + n)) (leBytes page 4)).wr F.ROS_POOL_FILL_FILL (n + 1)

/-- A page is taken, where the pool is not empty. -/
def State.poolTake (s : State) : Option (State × Nat) :=
  let n := s.rd F.ROS_POOL_FILL_FILL
  if n = 0 then none
  else
    let h := s.roster.poolHead
    let p := s.rosWord (s.poolAddr h)
    some ((s.wr F.ROS_POOL_FILL_FILL (n - 1)).upRos fun r =>
      { r with poolHead := (h + 1) % max 1 (s.rd F.ROS_POOL_CFG_SIZE) }, p)

/-! ## Phase 1 -/

/-- ROS_STATUS follows the roster (R393). -/
def State.rosSync (s : State) : State :=
  let ph := match s.roster.build with
    | none => 0
    | some l => if l.voided then 3 else if l.ready then 2 else 1
  let n := match s.roster.cur with
    | none => 0
    | some l => (l.records.filter fun r => !r.void && !r.applied).length
  (s.wr F.ROS_STATUS_PHASE ph).wr F.ROS_STATUS_PENDING n

/-- Bound of a bucket, in pages (R371). -/
def State.bucketBound (s : State) (j : Nat) : Nat := bits (s.rd F.ROS_BUCKET_BOUND 0 (j / 4)) (16 * (j % 4)) 16

/-- Buckets in use: those before the first whose bound is 0, and bucket 0. -/
def State.buckets (s : State) : Nat :=
  max 1 (((List.range 16).takeWhile fun j => s.bucketBound j != 0).length)

/-- The bucket of a number of pages. -/
def State.bucketOf (s : State) (p : Nat) : Nat :=
  ((List.range s.buckets).find? fun j => decide (p ≤ s.bucketBound j)).getD (s.buckets - 1)

/-- What phase 1 keeps while it places: the list, the lane cursor, records and pages used per lane. -/
structure Placing where
  list  : RList
  cur   : Nat := 0
  recs  : Cells := []
  pages : Cells := []

/-- Pages an L_NEXT needs (R371). -/
def pagesFor (l : Nat) : Nat := (l - 1) / 128 + 1

/-- L_NEXT of an entry (R370). -/
def State.lnext (s : State) (n : Nat) : Nat := s.entLen n + (if s.outstanding n then 1 else 0)

/-- The lane that takes a record of p pages (R371). -/
def State.laneFor (s : State) (x : Placing) (p : Nat) : Option Nat :=
  let n := max 1 x.list.lanes
  ((List.range (min 16 n)).map fun j => (x.cur + j) % n).find? fun l =>
    decide (aget 0 x.recs l < s.rd F.ROS_WL_GEOM_SEQCAP) && decide (aget 0 x.pages l + p ≤ s.rd F.ROS_WL_GEOM_PAGECAP)

/-- An entry is deferred. -/
def State.defer (s : State) (n : Nat) : State := (s.ctlWr n 4 1 1).inc F.ROS_DEFERRED_COUNT 1

/-- Phase 1 reaches an entry (R370, R371): the three checks in order, then a lane. -/
def State.placeOne (s : State) (x : Placing) (n : Nat) : State × Placing :=
  let ln := s.lnext n
  let p := pagesFor ln
  if s.rd F.ROS_CTL_ESTOP = 1 ∧ s.ctl1 n 3 1 = 1 ∧ s.ent n 3 ≠ s.rd F.L_EPOCH_EPOCH then (s.entStop n 5, x)
  else if s.entPages n < p ∧ s.entPages n = s.pcap n then (s.entStop n 3, x)
  else
    let r : State × Placing × Bool :=
      if s.entPages n < p then
        match s.poolTake with
        | none =>
          (((s.ctlWr n 5 1 1).defer n).inc F.ROS_STARVED_COUNT 1,
            { x with list := { x.list with starve := x.list.starve + 1, defer := x.list.defer + 1 } }, false)
        | some (s, page) =>
          let k := s.entPages n
          (((s.rosPut (s.plist n + 4 * k) (leBytes page 4)).ctlWr n 16 14 (k + 1)).inc F.ROS_PAGES_ALLOC_COUNT 1,
            { x with list := { x.list with alloc := x.list.alloc + 1 } }, true)
      else (s, x, true)
    let (s, x, go) := r
    if !go then (s, x)
    else match s.laneFor x p with
      | none => (s.defer n, { x with list := { x.list with defer := x.list.defer + 1 } })
      | some l =>
        let out := s.outstanding n
        let rc : RRec := { lane := l, recNo := aget 0 x.recs l, slot := n, bucket := s.bucketOf p,
                           pages := (List.range p).map fun j => s.rosWord (s.plist n + 4 * j),
                           pfirst := aget 0 x.pages l, lnext := ln, prefill := s.entState n == 1 && !out, await := out,
                           last := if out then 0xFFFF_FFFF else s.ent n 8 }
        ((s.ctlWr n 4 1 0).ctlWr n 5 1 0,
          { list := { x.list with records := x.list.records ++ [rc] }, cur := (l + 1) % max 1 x.list.lanes,
            recs := aadd x.recs l 1, pages := aadd x.pages l p })

/-- The entries of a snapshot in the order that phase 1 visits them (R370, R371). -/
def State.visitOrder (s : State) : List Nat :=
  let es := s.liveEnts.filter fun n => (s.entState n == 1 || s.entState n == 2) && s.ctl1 n 6 1 == 0
  (List.range s.buckets).flatMap fun b =>
    let here := es.filter fun n => s.bucketOf (pagesFor (s.lnext n)) == b
    here.filter (fun n => s.ctl1 n 4 1 == 1) ++ here.filter (fun n => s.ctl1 n 4 1 == 0)

/-- Phase 1 of the next list (R369–R371). -/
def State.phase1 (s : State) : State :=
  if !s.roster.trig || s.roster.build.isSome || s.rd F.ROS_CTL_EN == 0 then s
  else
    let l : RList := { num := (s.rd F.ROS_LISTNO_CURRENT + 1) % 2 ^ 32, lanes := s.rd F.ROS_WL_GEOM_NLANES, began := s.tick }
    let (s, x) := s.visitOrder.foldl (fun e n => e.1.placeOne e.2 n) (s, { list := l })
    (s.upRos fun r => { r with trig := false, build := some x.list }).rosSync

/-! ## The buffer in GDDR7 -/

/-- Bytes of a lane block (R372). -/
def State.laneBytes (s : State) : Nat := 64 + 32 * s.rd F.ROS_WL_GEOM_SEQCAP + 4 * s.rd F.ROS_WL_GEOM_PAGECAP

/-- First byte of a list's buffer (R372). -/
def State.bufBase (s : State) (l : RList) : Nat :=
  s.rd F.ROS_WL_BASE_BASE + l.num % 2 * ((64 + l.lanes * s.laneBytes + 4095) / 4096 * 4096)

/-- First byte of a lane of a list's buffer. -/
def State.laneBase (s : State) (l : RList) (k : Nat) : Nat := s.bufBase l + 64 + k * s.laneBytes

/-- A list's header (R372). -/
def listHead (l : RList) (pub : Bool) : List Byte :=
  leBytes l.num 4 ++ leBytes l.epoch 4 ++ leBytes (l.live + 2 * b2n pub) 1 ++ leBytes 0 3 ++ leBytes l.lanes 2 ++ leBytes 0 2
    ++ leBytes l.records.length 4 ++ leBytes (if pub then (l.records.filter fun r => r.void).length else 0) 4
    ++ leBytes l.defer 4 ++ leBytes l.starve 4 ++ leBytes l.alloc 4 ++ leBytes 0 28

/-- Records of a lane. -/
def RList.lane (l : RList) (k : Nat) : List RRec := l.records.filter fun r => r.lane == k

/-- A lane's header (R373). -/
def laneHead (l : RList) (k : Nat) (pub : Bool) : List Byte :=
  let rs := l.lane k
  leBytes l.num 4 ++ leBytes l.epoch 4 ++ leBytes l.live 1 ++ leBytes 0 1 ++ leBytes rs.length 2
    ++ leBytes ((rs.map fun r => r.pages.length).foldl (· + ·) 0) 2
    ++ leBytes (if pub then (rs.filter fun r => r.void).length else 0) 2
    ++ ((List.range 16).flatMap fun b => leBytes ((rs.findIdx? fun r => r.bucket == b).getD rs.length) 2) ++ leBytes 0 16

/-- A record (R373), its sampling parameters read from the entry. -/
def State.recBytes (s : State) (r : RRec) : List Byte :=
  let temp := s.ent r.slot 9
  let greedy := temp == 0
  let invt := if greedy then 0x3F80_0000 else match fdiv 0x3F80_0000 temp with
    | .ok v => v
    | .error _ => 0x7FC0_0000
  leBytes (r.slot + 0x8000 * b2n r.void) 2 ++ leBytes r.bucket 1 ++ leBytes (b2n greedy + 2 * b2n r.prefill) 1
    ++ leBytes (s.ent r.slot 0) 4 ++ leBytes r.lnext 4 ++ leBytes r.last 4 ++ leBytes invt 4
    ++ leBytes (if greedy then 1 else bits (s.ent r.slot 11) 0 19) 4
    ++ leBytes (if greedy then 0x3F80_0000 else s.ent r.slot 10) 4 ++ leBytes r.pfirst 2 ++ leBytes r.pages.length 2

/-- First byte of a record. -/
def State.recAddr (s : State) (l : RList) (r : RRec) : Nat := s.laneBase l r.lane + 64 + 32 * r.recNo

/-- First byte of a lane's page array. -/
def State.pagesAddr (s : State) (l : RList) (k : Nat) : Nat := s.laneBase l k + 64 + 32 * s.rd F.ROS_WL_GEOM_SEQCAP

/-- The list is written into its buffer (R372, R373): headers, records, page arrays; unused page positions hold
0xFFFF_FFFF. -/
def State.writeList (s : State) (l : RList) : State :=
  let s := s.rosPut (s.bufBase l) (listHead l false)
  (List.range l.lanes).foldl (fun s k =>
    let rs := l.lane k
    let s := s.rosPut (s.laneBase l k) (laneHead l k false)
    let s := rs.foldl (fun s r => s.rosPut (s.recAddr l r) (s.recBytes r)) s
    let ps := rs.flatMap fun r => r.pages
    let un := s.rd F.ROS_WL_GEOM_PAGECAP - ps.length
    s.rosPut (s.pagesAddr l k) (ps.flatMap (fun p => leBytes p 4) ++ List.replicate (4 * un) 0xFF)) s

/-- Log records reserved: those of the current list's commits still to come, and a complete build's records (R380). -/
def State.logReserved (s : State) : Nat :=
  let c := match s.roster.cur with
    | none => 0
    | some l => (l.records.filter fun r => !r.void && !r.applied).length
  let b := match s.roster.build with
    | some l => if l.ready then l.records.length else 0
    | none => 0
  c + b

/-- Whether the log has room for n records more (R380). -/
def State.logRoom (s : State) (n : Nat) : Bool :=
  decide ((s.rd F.ROS_LOG_HEAD_COUNT + 2 ^ 32 - s.rd F.ROS_LOG_TAIL_COUNT) % 2 ^ 32 + s.logReserved + n ≤ s.rd F.ROS_LOG_CFG_SIZE)

/-- qc in a time of idle ticks (600 tc are 1,125 qc). -/
def qcOf (ticks : Nat) : Nat := ticks * 15 / 8

/-- Phase 1 completes (R369): it reads L_EPOCH, reserves log space, or waits for it. -/
def State.phase1End (s : State) : State :=
  match s.roster.build with
  | some l =>
    if l.ready || s.rd F.ROS_STATUS_LOGWAIT == 1 then s
    else if !s.logRoom l.records.length then s.wr F.ROS_STATUS_LOGWAIT 1
    else
      let l := { l with epoch := s.rd F.L_EPOCH_EPOCH, live := s.rd F.L_EPOCH_LIVE, ready := true }
      let s := (s.writeList l).wr F.ROS_BUILD_QC_QC (qcOf (s.tick - l.began))
      (s.upRos fun r => { r with build := some l }).rosSync
  | none => s

/-- Log space has come free (R380): phase 1's wait ends. -/
def State.logFreed (s : State) : State :=
  match s.roster.build with
  | some l => if s.rd F.ROS_STATUS_LOGWAIT = 1 ∧ s.logRoom l.records.length then s.wr F.ROS_STATUS_LOGWAIT 0 else s
  | none => s

/-! ## Publication -/

/-- Whether the list being built may be published (R369): phase 1 complete, no commit queued, and every commit of the
current list applied, or FINALIZE. -/
def State.mayPublish (s : State) (l : RList) : Bool :=
  l.ready && s.roster.commits.isEmpty && (l.final || match s.roster.cur with
    | none => true
    | some c => c.records.all fun r => r.void || r.applied)

/-- Steps 1 and 2 of publication (R374). -/
def State.setVoids (s : State) (l : RList) : State × RList :=
  let short := fun (r : RRec) => !r.left && r.await && r.last == 0xFFFF_FFFF
  let ds := l.records.filter short
  let s := ds.foldl (fun s r => s.defer r.slot) s
  let l := { l with records := l.records.map (fun r => { r with void := r.left || short r }), defer := l.defer + ds.length,
                    voided := true }
  let vs := l.records.filter fun r => r.void
  let s := vs.foldl (fun s r =>
    (s.rosPut (s.recAddr l r) (leBytes (r.slot + 0x8000) 2)).rosPut (s.pagesAddr l r.lane + 4 * r.pfirst)
      (List.replicate (4 * r.pages.length) 0xFF)) s
  (s.inc F.ROS_VOIDED_COUNT vs.length, l)

/-- LIST_PUBLISH (R374): the voids are set; once every write has retired, the headers, ROS_LISTNO and the object. -/
def State.publish (s : State) : State :=
  match s.roster.build with
  | none => s
  | some l =>
    if !l.voided && !s.mayPublish l then s
    else
      let (s, l) := if l.voided then (s, l) else s.setVoids l
      if s.unretired 7 0 then (s.upRos fun r => { r with build := some l }).rosSync
      else
        let s := s.rosPut (s.bufBase l) (listHead l true)
        let ks := (l.records.filter fun r => r.void).map (fun r => r.lane) |>.eraseDups
        let s := ks.foldl (fun s k => s.rosPut (s.laneBase l k) (laneHead l k true)) s
        let s := (s.wr F.ROS_LISTNO_CURRENT l.num).inc F.ROS_LISTS_COUNT 1
        let s := (s.upRos fun r => { r with cur := some l, build := none }).rosSync
        if s.rd F.ROS_DONE_OBJ_EN = 1 then s.toHub ⟨7, 0, 1, s.rd F.ROS_DONE_OBJ_OBJ, 1, 4, true, 0, false⟩ else s

/-! ## Commits -/

/-- The refusal of a commit (R378); 0 accepts it. -/
def State.commitCode (s : State) (c : Commit) : Nat :=
  if s.rd F.ROS_CTL_EN = 0 then 6
  else if c.listno ≠ s.rd F.ROS_LISTNO_CURRENT then 1
  else match s.roster.cur with
    | none => 2
    | some l =>
      match l.records.find? fun r => r.lane == c.lane && r.recNo == c.recNo with
      | none => 2
      | some r =>
        if r.void then 3
        else if r.applied || s.roster.commits.any (fun d => d.lane == c.lane && d.recNo == c.recNo) then 4
        else if c.token ≥ 262144 then 5 else 0

/-- A commit of a tile reaches the roster (R378); one that finds the queue full waits. -/
def State.commitArrive (s : State) (t : Nat) : State :=
  match s.roster.inflight.find? fun c => c.tile == t with
  | none => s
  | some c =>
    let s1 := s.upRos fun r => { r with inflight := dropFirst (fun d => d == c) r.inflight }
    match s.commitCode c with
    | 0 => if s.roster.commits.length < 1024 then s1.upRos fun r => { r with commits := r.commits ++ [c] } else s
    | k => (s1.inc F.ROS_REFUSED_COUNT 1).upRos fun r => { r with refused := r.refused ++ [(t, c.addr, k)] }

/-- The log record of a commit (R380). -/
def logBytes (seqid slot reason mixed pos token epoch prob listno : Nat) : List Byte :=
  leBytes seqid 4 ++ leBytes slot 2 ++ leBytes (reason + 8 * mixed) 2 ++ leBytes pos 4 ++ leBytes token 4
    ++ leBytes epoch 4 ++ leBytes prob 4 ++ leBytes listno 4 ++ leBytes 0 4

/-- The list being built has the record of an entry patched (R374). -/
def State.patchBuild (s : State) (n token : Nat) : State :=
  match s.roster.build with
  | none => s
  | some l =>
    let hit := fun (r : RRec) => r.slot == n && r.await
    let s1 := s.upRos fun r => { r with build := some { l with records := l.records.map fun x =>
                                                            if hit x then { x with last := token } else x } }
    if l.ready then
      (l.records.filter hit).foldl (fun s r => s.rosPut (s.recAddr l r + 0x0C) (leBytes token 4)) s1
    else s1

/-- COMMIT_APPLY (R379, R380): the oldest accepted commit is applied to its entry. -/
def State.commitApply (s : State) : State :=
  match s.roster.commits, s.roster.cur with
  | c :: rest, some l =>
    match l.records.find? fun r => r.lane == c.lane && r.recNo == c.recNo with
    | none => s.upRos fun r => { r with commits := rest }
    | some rc =>
      let n := rc.slot
      let first := !l.records.any fun r => r.applied
      let l' := { l with records := l.records.map fun r => if r == rc then { r with applied := true } else r }
      let s := s.upRos fun r => { r with commits := rest, cur := some l' }
      let len := s.entLen n + 1
      let s := (s.entWr n 8 c.token).entWr n 4 (s.ent n 4 - s.entLen n + len)
      let s := if s.ctl1 n 3 1 = 0 then (s.entWr n 3 l.epoch).ctlWr n 3 1 1
               else if s.ent n 3 ≠ l.epoch then s.ctlWr n 2 1 1 else s
      let s := s.entWr n 2 l.epoch
      let s := if s.entState n = 1 then s.ctlWr n 0 2 2 else s
      let mixed := s.ctl1 n 2 1
      let reason := if [12, 13, 14, 15].any fun w => s.ent n w == c.token then 1
                    else if len = bits (s.ent n 5) 0 21 then 2 else if s.ctl1 n 6 1 = 1 then 4 else 0
      let h := s.rd F.ROS_LOG_HEAD_COUNT
      let s := s.rosPut (s.rd F.ROS_LOG_BASE_BASE + 32 * (h % max 1 (s.rd F.ROS_LOG_CFG_SIZE)))
        (logBytes (s.ent n 0) n reason mixed (len - 1) c.token l.epoch c.prob l.num)
      let s := ((s.inc F.ROS_LOG_HEAD_COUNT 1).inc F.ROS_COMMITS_COUNT 1).patchBuild n c.token
      let s := if reason = 0 then s else s.entStop n reason
      let s := if reason = 4 then s.ctlWr n 6 1 0 else s
      let s := if first && s.roster.build.isNone then s.upRos fun r => { r with trig := true } else s
      s.rosSync
  | _, _ => s

/-! ## Control -/

/-- ROS_CTL.BUILD (R369): the first list, or the next after an empty one; ignored at any other time. -/
def State.rosBuild (s : State) : State :=
  let idle : Bool := match s.roster.cur with
    | none => true
    | some l => l.records.all fun r => r.void
  if s.rd F.ROS_CTL_EN = 1 ∧ s.roster.build.isNone ∧ !s.roster.trig ∧ idle then s.upRos fun r => { r with trig := true }
  else s

/-- ROS_CTL.FINALIZE (R369): ignored where no list is being built. -/
def State.rosFinalize (s : State) : State :=
  match s.roster.build with
  | none => s
  | some l => s.upRos fun r => { r with build := some { l with final := true } }

/-- ROS_CTL.EN is set or cleared (R369): a set begins at list 0 with none current. -/
def State.rosEnable (s : State) (on : Bool) : State :=
  if on == (s.rd F.ROS_CTL_EN == 1) then s
  else
    let s := (s.wr F.ROS_CTL_EN (b2n on)).wr F.ROS_STATUS_LOGWAIT 0
    let s := s.upRos fun r => { r with cur := none, build := none, trig := false, commits := [] }
    (if on then s.wr F.ROS_LISTNO_CURRENT 0 else s).rosSync

/-- A landing core's write of a 4-byte word of an entry (R363, R367). -/
def State.rosEntryWrite (s : State) (c n w v : Nat) : State :=
  let a := 0x3800_0040_0000 + 64 * n + 4 * w
  if !s.coreReady c then s
  else if s.rd F.L_STATUS_SUPER c = 0 then s.coreFault c 0x10 0 a
  else if s.entState n = 0 ∨ s.rd F.ROS_CTL_EN = 0 then s.entWr n w v
  else s.coreFault c 1 0 a

/-- ROS_POOL_POP is read (R368): it returns the page taken. -/
def State.poolPop (s : State) : State :=
  match s.poolTake with
  | none => s.wr F.ROS_POOL_POP_PAGE 0xFFFF_FFFF
  | some (s, p) => s.wr F.ROS_POOL_POP_PAGE p

/-! ## Commands -/

/-- ADMIT_PREFILL (R366). -/
def execAdmitPrefill (slot : BitVec 14) (s : State) : Host.Outcome State Fault Refusal := .next (s.rosCmd slot.toNat 1)
/-- ADMIT_DECODE (R366). -/
def execAdmitDecode (slot : BitVec 14) (s : State) : Host.Outcome State Fault Refusal := .next (s.rosCmd slot.toNat 2)
/-- ROS_CANCEL (R366). -/
def execRosCancel (slot : BitVec 14) (s : State) : Host.Outcome State Fault Refusal := .next (s.rosCmd slot.toNat 3)
/-- HARVEST (R366). -/
def execHarvest (slot : BitVec 14) (s : State) : Host.Outcome State Fault Refusal := .next (s.rosCmd slot.toNat 4)
/-- ROSTER_ENTRY_WRITE (R367). -/
def execRosterEntryWrite (core : CoreId) (entry : BitVec 14) (word : BitVec 4) (value : BitVec 32) (s : State) :
    Host.Outcome State Fault Refusal := .next (s.rosEntryWrite core.val entry.toNat word.toNat value.toNat)
/-- ROS_BUILD (R369). -/
def execRosBuild (s : State) : Host.Outcome State Fault Refusal := .next s.rosBuild
/-- ROS_FINALIZE (R369). -/
def execRosFinalize (s : State) : Host.Outcome State Fault Refusal := .next s.rosFinalize
/-- PHASE1_BEGIN (R369, R370). -/
def execPhase1Begin (s : State) : Host.Outcome State Fault Refusal := .next s.phase1
/-- PHASE1_COMPLETE (R369). -/
def execPhase1Complete (s : State) : Host.Outcome State Fault Refusal := .next s.phase1End
/-- LOG_SPACE_AVAILABLE (R380). -/
def execLogSpaceAvailable (s : State) : Host.Outcome State Fault Refusal := .next s.logFreed
/-- LIST_PUBLISH (R374). -/
def execListPublish (s : State) : Host.Outcome State Fault Refusal := .next s.publish
/-- COMMIT_RECEIVE (R378). -/
def execCommitReceive (t : TileId) (s : State) : Host.Outcome State Fault Refusal := .next (s.commitArrive t.val)
/-- COMMIT_APPLY (R379). -/
def execCommitApply (s : State) : Host.Outcome State Fault Refusal := .next s.commitApply
/-- ROS_POOL_PUSH (R368). -/
def execRosPoolPush (page : BitVec 32) (s : State) : Host.Outcome State Fault Refusal := .next (s.poolPush page.toNat)
/-- ROS_POOL_POP (R368). -/
def execRosPoolPop (s : State) : Host.Outcome State Fault Refusal := .next s.poolPop

end Sys2Proof.Machine
end

