-- ==== Sys2Proof/Machine/Landing.lean ====
section
/-! DEFINITION. The landing cluster (R338–R362): task windows, the landing cache and SRAM, waits on the grid, credits,
declared streams, the epoch. -/

namespace Sys2Proof.Machine

/-- A core's number as a type of the commands. -/
def coreId (c : Nat) : CoreId := Fin.ofNat 16 c

/-- The accessor a core is at present (R339, R350). -/
def State.whoNow (s : State) (c : Nat) : Accessor :=
  if s.rd F.L_STATUS_SUPER c = 0 then .task (coreId c) (BitVec.ofNat 6 (s.rd F.L_STATUS_TASK c))
  else if (s.core c).handler then .handler (coreId c) else .super (coreId c)

/-! ## Translation -/

/-- Whether a window of the cluster is enabled for a task and covers a range (R347). -/
def State.lwinCovers (s : State) (w k v n : Nat) : Bool :=
  let b := s.rd F.L_WIN_A_VBASE 0 w * 4096
  s.rd F.L_WIN_B_EN 0 w == 1 && s.rd F.L_WIN_B_TASK 0 w == k && decide (b ≤ v)
    && decide (v + n ≤ b + (s.rd F.L_WIN_A_SIZE 0 w + 1) * 4096)

/-- Whether a window allows an access. -/
def State.lwinAllows (s : State) (w : Nat) : AccKind → Bool
  | .read => s.rd F.L_WIN_B_R 0 w == 1
  | .write => s.rd F.L_WIN_B_W 0 w == 1
  | .fetch => s.rd F.L_WIN_B_X 0 w == 1

/-- The device address of a range of an accessor (R339, R347), or the fault. -/
def State.translate (s : State) (who : Accessor) (v n : Nat) (k : AccKind) : Except Nat Nat :=
  match who with
  | .task _ t =>
    match (List.range 64).find? fun w => s.lwinCovers w t.toNat v n && s.lwinAllows w k with
    | some w => .ok ((s.rd F.L_WIN_B_PBASE 0 w * 4096 + (v - s.rd F.L_WIN_A_VBASE 0 w * 4096)) % 2 ^ 48)
    | none => .error (if (List.range 64).any fun w => s.lwinCovers w t.toNat v n then 0x12 else 0x11)
  | _ => .ok v

/-! ## The landing cache -/

/-- A line of the cache. -/
def State.line (s : State) (a : Nat) : Option CLine := s.cache.find? fun l => l.addr == a / 64 * 64

/-- First address of the landing SRAM (R340). -/
def sramBase : Nat := 0x3000_1000_0000

/-- Lines that the cache can hold: 32 MiB less the landing SRAM (R341). -/
def State.cacheLines (s : State) : Nat := 524288 - s.rd F.L_CFG_LSRAM * 16384

/-- A line is put in the cache. A full cache first evicts a line, which one a free value decides; a dirty one is
written back (R345). Locked lines stay. -/
def State.putLine (s : State) (l : CLine) : State :=
  let rest := s.cache.filter fun x => x.addr != l.addr
  if rest.length < s.cacheLines then { s with cache := rest ++ [l] }
  else
    let out := rest.filter fun x => !x.locked
    match out[(Config.rng s.free).toNat % max 1 out.length]? with
    | none => { s with cache := rest ++ [l] }
    | some v =>
      let s := { s.drawn with cache := (rest.filter fun x => x.addr != v.addr) ++ [l] }
      if v.dirty then s.gpost v.addr v.data 6 0 else s

/-- L_ECC_LAST takes an error of the landing cache or SRAM (R344), informing the fault path. -/
def State.lecc (s : State) (c a : Nat) (locked : Bool) : State :=
  let s := (s.inc F.L_ECC_UNCORR_WORDS 1).wr F.L_ECC_LAST_LINE (a / 64)
  let s := (s.wr F.L_ECC_LAST_LOCKED (b2n locked)).wr F.L_ECC_LAST_VALID 1
  s.event 1 1 c 0x0004 (a / 64 * 64 + 2 ^ 63 * b2n locked)

/-- A single-bit error of the landing cache or SRAM (R344). -/
def State.lcorr (s : State) (c : Nat) : State :=
  (s.inc F.L_ECC_CORR_WORDS 1).upFault fun x => { x with corr := aadd x.corr (4096 + c) 1 }

/-- A line is locked (R344). -/
def State.lockLine (s : State) (a : Nat) (d : List Byte) : State :=
  s.putLine { addr := a / 64 * 64, data := d, dirty := true, locked := true }

/-! ## Declared streams -/

/-- Lines of a stream. -/
def Stream.total (x : Stream) : Nat := x.lines * x.rows
/-- The device address of a line of a stream. -/
def Stream.lineAddr (x : Stream) (i : Nat) : Nat := x.base + i / max 1 x.lines * x.step + i % max 1 x.lines * 64
/-- The line of a stream at a device address, where one is. -/
def Stream.lineAt (x : Stream) (a : Nat) : Option Nat :=
  if a < x.base then none
  else
    let o := a - x.base
    let r := if x.step = 0 then 0 else min (o / x.step) (x.rows - 1)
    let j := (o - r * x.step) / 64
    if j < x.lines then some (r * x.lines + j) else none

/-- Change a stream of a core. -/
def State.upStream (s : State) (c slot : Nat) (f : Stream → Stream) : State :=
  s.upCore c fun y => { y with streams := y.streams.map fun x => if x.slot = slot then f x else x }

/-- Runs of set bits in a 64-bit map: first bit and length. -/
def bitRuns (m : Nat) : List (Nat × Nat) :=
  (List.range 64).foldl (fun l i =>
    if !m.testBit i then l
    else match l.getLast? with
      | some (b, n) => if b + n = i then l.dropLast ++ [(b, n + 1)] else l ++ [(i, 1)]
      | none => [(i, 1)]) []

/-- A line of a write stream is written back, the bytes that the core wrote, and leaves the cache (R353). -/
def State.streamBack (s : State) (c a m : Nat) : State :=
  match s.line a with
  | none => s
  | some l =>
    let s := { s with cache := s.cache.filter fun x => x.addr != l.addr }
    (bitRuns m).foldl (fun s r => s.gpost (a + r.1) ((l.data.drop r.1).take r.2) 1 c) s

/-- A stream ends (R353): unread lines are counted, written ones are written back. -/
def State.streamEnd (s : State) (c : Nat) (x : Stream) : State :=
  let s := s.wr F.L_STRM_CTL_ACTIVE 0 c x.slot
  let s := s.upCore c fun y => { y with streams := y.streams.filter fun z => z.slot != x.slot }
  let s := s.inc F.L_PF_COUNT x.ready.length c 2
  x.part.foldl (fun s e => s.streamBack c (x.lineAddr e.1) e.2) s

/-- Whether every line of a stream's last row passes a test. -/
def Stream.lastRow (x : Stream) (p : Nat → Bool) : Bool :=
  (List.range x.lines).all fun j => p ((x.rows - 1) * x.lines + j)

/-- A core's read of a stream line is counted once (R354) and moves the stream on; its last row read, it ends. -/
def State.streamRead (s : State) (c a : Nat) : State :=
  (s.core c).streams.foldl (fun s x => match x.lineAt a with
    | some i =>
      if x.wr || x.seen.contains i then s
      else
        let hit := x.ready.contains i
        let s := if hit then (s.inc F.L_PF_COUNT 1 c 3).inc F.L_PF_COUNT 1 c 1 else s.inc F.L_PF_COUNT 1 c 6
        let y := { x with seen := x.seen ++ [i], ready := x.ready.filter (fun k => k != i), far := max x.far (i + 1) }
        let s := s.upStream c x.slot fun _ => y
        if y.lastRow y.seen.contains then s.streamEnd c y else s
    | none => s) s

/-- A core's write to a write stream's line is recorded: a whole line goes back through its spoke; its last row
written, the stream ends. -/
def State.streamWrite (s : State) (c a n : Nat) : State :=
  (s.core c).streams.foldl (fun s x => match x.lineAt a with
    | some i =>
      if !x.wr then s
      else
        let m := aget 0 x.part i ||| (2 ^ n - 1) * 2 ^ (a % 64)
        let full := decide (m = 2 ^ 64 - 1)
        let s := if full then s.streamBack c (x.lineAddr i) m else s
        let y := { x with part := aput 0 x.part i (if full then 0 else m),
                          seen := if full then x.seen ++ [i] else x.seen }
        let s := s.upStream c x.slot fun _ => y
        if y.lastRow y.seen.contains then s.streamEnd c y else s
    | none => s) s

/-- The device address of a declared stream's row 0, or none where R353 refuses the declaration. -/
def State.streamOk (s : State) (c slot : Nat) : Option Nat :=
  let base := s.rd F.L_STRM_BASE_BASE c slot
  let lines := s.rd F.L_STRM_SHAPE_ROWLINES c slot
  let rows := s.rd F.L_STRM_SHAPE_ROWS c slot
  let step := s.rd F.L_STRM_STRIDE_STRIDE c slot
  let lead := s.rd F.L_STRM_CTL_LEAD c slot
  let kind := if s.rd F.L_STRM_CTL_DIR c slot = 1 then AccKind.write else AccKind.read
  if s.rd F.L_STRM_CTL_ACTIVE c slot = 1 ∨ base % 64 ≠ 0 ∨ step % 64 ≠ 0 ∨ lines = 0 ∨ rows = 0 ∨ lead = 0 ∨ lead > 256 then none
  else match s.translate (s.whoNow c) base ((rows - 1) * step + lines * 64) kind with
    | .error _ => none
    | .ok a =>
      if (List.range rows).all fun r => (s.gbad (a + r * step) (lines * 64)).isNone then some a else none

/-- GO of a stream slot (R353). -/
def State.streamGo (s : State) (c slot : Nat) : State :=
  if !s.coreReady c then s
  else match s.streamOk c slot with
    | none => s.coreFault c 0x17 0 (s.rd F.L_STRM_BASE_BASE c slot)
    | some a =>
      let x : Stream := { slot := slot, wr := s.rd F.L_STRM_CTL_DIR c slot == 1, base := a,
                          lines := s.rd F.L_STRM_SHAPE_ROWLINES c slot, rows := s.rd F.L_STRM_SHAPE_ROWS c slot,
                          step := s.rd F.L_STRM_STRIDE_STRIDE c slot, lead := s.rd F.L_STRM_CTL_LEAD c slot }
      (s.wr F.L_STRM_CTL_ACTIVE 1 c slot).upCore c fun y => { y with streams := y.streams ++ [x] }

/-- CANCEL of a stream slot (R353). -/
def State.streamCancel (s : State) (c slot : Nat) : State :=
  match (s.core c).streams.find? fun x => x.slot == slot with
  | none => s
  | some x => s.streamEnd c x

/-- The next line of a read stream arrives (R353), fetched afresh, a dirty copy first written back. A block that its quay
cannot correct is not passed on (R333): the line stays out, and a read of it goes to the quay itself. -/
def State.streamFill (s : State) (c slot : Nat) (ecc : Ecc) : State :=
  match (s.core c).streams.find? fun x => x.slot == slot with
  | none => s
  | some x =>
    if x.wr || decide (x.total ≤ x.next) || decide (x.far + x.lead * 64 ≤ x.next) then s
    else
      let a := x.lineAddr x.next
      let s := s.inc F.L_PF_COUNT 1 c 0
      let s := (s.gcountRead a 64 fun _ => true).chargeRead a 64 (s.corePart c) fun _ => true
      let (s, bad) := s.gcheck a 4 ecc
      let s := s.upStream c slot fun y => { y with next := y.next + 1, ready := if bad || y.seen.contains y.next then y.ready else y.ready ++ [y.next] }
      if bad then s
      else match s.line a with
      | some l =>
        if l.locked then s
        else if l.dirty then (s.gpost l.addr l.data 6 0).putLine { l with dirty := false }
        else s.putLine { l with data := s.gbytes l.addr 64 }
      | none => s.putLine { addr := a, data := s.gbytes a 64, dirty := false, locked := false }

/-! ## Accesses to GDDR7 and the landing SRAM -/

/-- Bytes of a line from an address. -/
def CLine.at (l : CLine) (a n : Nat) : List Byte := (l.data.drop (a - l.addr)).take n

/-- A line's bytes with some written over. -/
def overlay (old : List Byte) (o : Nat) (d : List Byte) : List Byte := old.take o ++ d ++ old.drop (o + d.length)

/-- A core's read of a GDDR7 address (R341, R344, R346): from the cache, or stalled until the line is read. -/
def State.gRead (s : State) (c a n virt : Nat) (ecc : Ecc) : State :=
  let s := s.streamRead c a
  match s.line a with
  | none => s.upCore c fun x => { x with mem := some { addr := a, size := n, virt := virt } }
  | some l =>
    if l.locked then s.coreFault c 0x15 0 virt
    else match ecc with
      | .ok => s.upCore c fun x => { x with rdata := l.at a n }
      | .corrected .. => (s.lcorr c).upCore c fun x => { x with rdata := l.at a n }
      | .uncorrectable .. =>
        if l.dirty then ((s.lecc c a true).lockLine a l.data).coreFault c 0x15 0 virt
        else
          let l' := { l with data := s.gbytes l.addr 64 }
          ((s.lecc c a false).putLine l').upCore c fun x => { x with rdata := l'.at a n }

/-- A core's write of a GDDR7 address (R341, R353): into the cache, its line fetched first; a block that its quay cannot
correct faults the core (R333). A line that a write stream allocates without fetching holds a free value until it is
written. -/
def State.gWrite (s : State) (c a virt : Nat) (d : List Byte) (ecc : Ecc) : State :=
  match s.line a with
  | some l =>
    if l.locked then s.coreFault c 0x15 0 virt
    else (s.putLine { l with data := overlay l.data (a - l.addr) d, dirty := true }).streamWrite c a d.length
  | none =>
    let la := a / 64 * 64
    let own := (s.core c).streams.any fun x => x.wr && (x.lineAt a).isSome
    let old := if own then leBytes (Config.rng s.free).toNat 64 else s.gbytes la 64
    let (s, bad) := if own then (s.drawn, false)
      else ((s.gcountRead la 64 fun _ => true).chargeRead la 64 (s.corePart c) fun _ => true).gcheck la 4 ecc
    if bad then s.coreFault c 0x14 0 virt
    else (s.putLine { addr := la, data := overlay old (a - la) d, dirty := true, locked := false }).streamWrite c a d.length

/-- An access to the landing SRAM (R344). -/
def State.sramAccess (s : State) (c a n virt : Nat) (wr : Option (List Byte)) (ecc : Ecc) : State :=
  if (s.line a).isSome then s.coreFault c 0x15 0 virt
  else match wr with
    | some d => s.setBytes a d
    | none => match ecc with
      | .ok => s.upCore c fun x => { x with rdata := s.bytes a n }
      | .corrected .. => (s.lcorr c).upCore c fun x => { x with rdata := s.bytes a n }
      | .uncorrectable .. =>
        ((s.lecc c a true).lockLine a (s.bytes (a / 64 * 64) 64)).coreFault c 0x15 0 virt

/-- A stalled read completes (R333, R346): of GDDR7, its line entering the cache, or of a tile window. -/
def State.memDone (s : State) (c : Nat) (ecc : Ecc) : State :=
  match (s.core c).mem with
  | none => s
  | some m =>
    let p := s.corePart c
    let held := match s.gmap m.addr with
      | some (q, _) => !s.quayFenced q && !s.servesRead m.addr 1 1 c
      | none => false
    if held then s else
    let (s, go) := if m.addr < 0x18_0000_0000 then s.bucketAdmit p false (s.policedBytes m.addr 1 p) else (s, true)
    if !go then s
    else
    let s := s.upCore c fun x => { x with mem := none }
    if 0x2000_0000_0000 ≤ m.addr then
      let (s, code, d) := s.outside ((m.addr - 0x2000_0000_0000) / 0x10_0000) (s.whoNow c) (m.addr % 0x10_0000) m.size none ecc
      s.coreEnds c code m.virt d false
    else
      match s.gmap m.addr with
      | none => s.coreFault c 0x10 0 m.virt
      | some (q, _) =>
        if s.quayFenced q then s.coreFault c 0x14 0 m.virt
        else
          let la := m.addr / 64 * 64
          let p := s.corePart c
          let (s, bad) := s.gcheck la 4 ecc
          let s := (s.gcountRead la 64 fun _ => true).chargeRead la 64 p fun _ => true
          if bad then s.coreFault c 0x14 0 m.virt
          else
            let l : CLine := { addr := la, data := s.gbytes la 64, dirty := false, locked := false }
            (s.putLine l).upCore c fun x => { x with rdata := l.at m.addr m.size }

/-! ## FENCE -/

/-- FENCE (R342): the core stalls while a write of its own is on its way to its target. -/
def State.fenceWait (s : State) (c : Nat) : State :=
  if !(s.coreReady c || (s.core c).fence) || s.isFenced 1 c then s
  else s.upCore c fun x => { x with fence := s.quays.any fun e => e.2.sending 1 c }

/-! ## Waits on the grid -/

/-- A core's wait at the hub is withdrawn. -/
def State.dropCoreWait (s : State) (c : Nat) : State :=
  let p := fun (o : HubOp) => !(o.cls == 1 && o.unit == c && o.op == 3)
  s.upHub fun h => { h with waits := h.waits.filter p, inbox := h.inbox.filter p,
                            answers := h.answers.filter fun a => !(a.cls == 1 && a.unit == c && a.op == 3) }

/-- L_SOWAIT is written (R351): the request leaves for the hub; an earlier wait of the core is dropped. -/
def State.soWaitWrite (s : State) (c obj : Nat) : State :=
  if !s.coreReady c then s
  else
    let x : HubOp := { cls := 1, unit := c, op := 3, obj := obj, val := 0, part := s.corePart c,
                       priv := s.rd F.L_STATUS_SUPER c == 1, addr := 0 }
    ((s.dropCoreWait c).toHub x).upCore c fun y => { y with soWait := some (obj, false, 0) }

/-- A read of L_SOWAIT_RESULT returns (R351): 1 met, 2 broken, 3 limit; a case faults. -/
def State.soReturn (s : State) (c code : Nat) : State :=
  let v := if code ≤ 3 then code else 0
  let s := (s.wr F.L_SOWAIT_RESULT_RESULT v c).upCore c fun x => { x with soWait := none, rdata := leBytes v 8 }
  if 3 < code then s.coreFault c 0x16 code (Blk.core.base c + 0x20) else s

/-- L_SOWAIT_RESULT is read (R351). -/
def State.soResultRead (s : State) (c : Nat) : State :=
  if !s.coreReady c then s
  else match (s.core c).soWait with
    | none => s.upCore c fun x => { x with rdata := leBytes (s.rd F.L_SOWAIT_RESULT_RESULT c) 8 }
    | some (o, _, 0) => s.upCore c fun x => { x with soWait := some (o, true, 0) }
    | some (_, _, k) => s.soReturn c k

/-- The hub's answer to a landing wait reaches its core (R351). -/
def State.soWaitAnswer (s : State) (c : Nat) : State :=
  match s.hub.answers.find? fun a => a.cls == 1 && a.unit == c && a.op == 3 with
  | none => s
  | some a =>
    let s := s.upHub fun h => { h with answers := dropFirst (fun b => b == a) h.answers }
    match (s.core c).soWait with
    | some (o, stalled, 0) =>
      if o ≠ a.obj ∨ s.isFenced 1 c then s
      else if stalled then s.soReturn c a.code
      else s.upCore c fun x => { x with soWait := some (o, false, a.code) }
    | _ => s

/-- L_SOWAIT_LIMIT lc have passed in a stalled read (R351): it returns 3, and the wait is dropped. -/
def State.soLimit (s : State) (c : Nat) : State :=
  match (s.core c).soWait with
  | some (_, true, 0) => if s.rd F.L_SOWAIT_LIMIT_LC c = 0 then s else (s.dropCoreWait c).soReturn c 3
  | _ => s

/-- Whether a core holds an open credit (R352). -/
def State.coreHolds (s : State) (c : Nat) : Bool :=
  match (s.core c).cred, (s.core c).credRec with
  | some (t, _, _), some r =>
    s.credState t r == 1 && s.rd F.T_CRED_A_CLASS t r == 4 && s.rd F.T_CRED_A_UNIT t r == c
  | some _, none => true
  | none, _ => false

/-- L_CRED_REQ is written (R352). -/
def State.credReqWrite (s : State) (c t slip bytes : Nat) : State :=
  if !s.coreReady c then s
  else if s.coreHolds c then s.coreFault c 4 0 (Blk.core.base c + 0x30)
  else if t ≥ 3072 then s.coreCred c 0xA none
  else s.credRequest t slip bytes 4 c

/-- L_CRED_RESULT is read (R352): it stalls while the request waits. -/
def State.credResultRead (s : State) (c : Nat) : State :=
  if !s.coreReady c then s
  else match (s.core c).cred, (s.core c).credRec with
    | some _, none => s.upCore c fun x => { x with credWait := true }
    | _, r => s.upCore c fun x => { x with rdata := leBytes (x.credCode + 16 * r.getD 0) 8 }

/-- A store into the credit aperture (R352). -/
def State.aperture (s : State) (c j : Nat) (d : List Byte) : State :=
  let a := Blk.core.base c + 0x80000 + j
  let n := d.length
  if !s.coreReady c then s
  else if (n ≠ 32 ∧ n ≠ 64) ∨ j % n ≠ 0 then s.coreFault c 0x19 0 a
  else match (s.core c).cred, (s.core c).credRec with
    | some (t, _, bytes), some r =>
      let s1 := s.credArrive t r 4 c j d (decide (j + n = bytes))
      if s1.tstate t = 4 ∨ (s.credState t r ≠ 1) then s1.upCore c fun x => { x with cred := none, credRec := none } else s1
    | _, _ => s.coreFault c 4 0 a

/-! ## Cluster registers -/

/-- A privileged write of a cluster register by a core; a task's is refused (R362). -/
def State.privileged (s : State) (c off : Nat) (k : State) : State :=
  if !s.coreReady c then s
  else if s.rd F.L_STATUS_SUPER c = 0 then s.coreFault c 0x13 0 (Blk.cluster.base 0 + off)
  else k

/-- A cache operation starts (R362); OP 0 is reserved, and GO while one runs is ignored. -/
def State.cacheGo (s : State) (op base lines : Nat) : State :=
  if s.rd F.L_CACHE_OP_B_DONE = 0 then s
  else
    let s := (s.wr F.L_CACHE_OP_A_BASE base).wr F.L_CACHE_OP_B_LINES lines
    let s := s.wr F.L_CACHE_OP_B_OP op
    if op = 0 then s else s.wr F.L_CACHE_OP_B_DONE 0

/-- A locked line of the landing SRAM is discarded: what it then holds is a free value. -/
def State.dropSram (s : State) (a : Nat) : State := s.drawn.setBytes a (leBytes (Config.rng s.free).toNat 64)

/-- One line under a cache operation (R362): bit 0 of OP writes back, bit 1 invalidates. -/
def State.cacheLine (s : State) (op : Nat) (l : CLine) : State :=
  let s := if op.testBit 0 && l.dirty && !l.locked then
      (s.gpost l.addr l.data 6 0).putLine { l with dirty := false }
    else s
  if op.testBit 1 then
    let s := { s with cache := s.cache.filter fun x => x.addr != l.addr }
    if l.addr ≥ sramBase then s.dropSram l.addr else s
  else s

/-- A cache operation finishes (R362). -/
def State.cacheDone (s : State) : State :=
  if s.rd F.L_CACHE_OP_B_DONE = 1 then s
  else
    let b := s.rd F.L_CACHE_OP_A_BASE
    let n := s.rd F.L_CACHE_OP_B_LINES
    let ls := s.cache.filter fun l => decide (b ≤ l.addr / 64) && decide (l.addr / 64 < b + n)
    (ls.foldl (fun s l => s.cacheLine (s.rd F.L_CACHE_OP_B_OP) l) s).wr F.L_CACHE_OP_B_DONE 1

/-- L_CFG.LSRAM is written (R341): only while no task runs; the whole cache is first written back and invalidated. -/
def State.lsramWrite (s : State) (c v : Nat) : State :=
  let v := min v 16
  if v = s.rd F.L_CFG_LSRAM then s
  else if (List.range 16).any fun k => s.rd F.L_STATUS_SUPER k == 0 && !s.isFenced 1 k then
    s.coreFault c 1 0 (Blk.cluster.base 0)
  else (s.cache.foldl (fun s l => s.cacheLine 3 l) s).wr F.L_CFG_LSRAM v

/-- L_EPOCH is written (R357). -/
def State.epochWrite (s : State) (c v : Nat) : State :=
  if !s.coreReady c then s
  else if s.rd F.L_STATUS_SUPER c = 1 ∧ v % 2 ^ 32 = (s.rd F.L_EPOCH_EPOCH + 1) % 2 ^ 32
      ∧ bits v 32 1 ≠ s.rd F.L_EPOCH_LIVE then
    ((s.wr F.L_EPOCH_EPOCH v).wr F.L_EPOCH_LIVE (bits v 32 1)).inc F.L_EPOCH_FLIPS_COUNT 1
  else s.coreFault c 0x18 0 (Blk.cluster.base 0 + 8)

/-- A task that stalls in a wait loses its core (R355): the core is back in supervisor mode, the read abandoned. -/
def State.preempt (s : State) (c : Nat) : State :=
  let x := s.core c
  if s.rd F.L_STATUS_SUPER c = 0 ∧ (x.credWait || x.soWait.any (fun w => w.2.1)) = true then
    (s.wr F.L_STATUS_SUPER 1 c).upCore c fun y =>
      { y with credWait := false, soWait := y.soWait.map fun w => (w.1, false, w.2.2) }
  else s

/-! ## Commands -/

/-- LANDING_MEM_READ_COMPLETE (R346). -/
def execLandingMemReadComplete (core : CoreId) (ecc : Ecc) (s : State) : Host.Outcome State Fault Refusal :=
  .next (s.memDone core.val ecc)
/-- LANDING_FENCE (R342). -/
def execLandingFence (core : CoreId) (s : State) : Host.Outcome State Fault Refusal := .next (s.fenceWait core.val)
/-- L_SOWAIT_WRITE (R351). -/
def execLSowaitWrite (core : CoreId) (obj : BitVec 13) (s : State) : Host.Outcome State Fault Refusal :=
  .next (s.soWaitWrite core.val obj.toNat)
/-- L_SOWAIT_RESULT_READ (R351). -/
def execLSowaitResultRead (core : CoreId) (s : State) : Host.Outcome State Fault Refusal :=
  .next (s.soResultRead core.val)
/-- LANDING_SOWAIT_ANSWER (R351). -/
def execLandingSowaitAnswer (core : CoreId) (s : State) : Host.Outcome State Fault Refusal :=
  .next (s.soWaitAnswer core.val)
/-- L_SOWAIT_LIMIT_EXPIRE (R351). -/
def execLSowaitLimitExpire (core : CoreId) (s : State) : Host.Outcome State Fault Refusal := .next (s.soLimit core.val)
/-- L_CRED_REQ_WRITE (R352). -/
def execLCredReqWrite (core : CoreId) (tile : BitVec 12) (slip : SlipId) (bytes : BitVec 20) (s : State) :
    Host.Outcome State Fault Refusal := .next (s.credReqWrite core.val tile.toNat slip.val bytes.toNat)
/-- L_CRED_RESULT_READ (R352). -/
def execLCredResultRead (core : CoreId) (s : State) : Host.Outcome State Fault Refusal :=
  .next (s.credResultRead core.val)
/-- CREDIT_APERTURE_STORE (R352). -/
def execCreditApertureStore (core : CoreId) (j : BitVec 19) (data : List (BitVec 8)) (s : State) :
    Host.Outcome State Fault Refusal := .next (s.aperture core.val j.toNat data)
/-- STREAM_DECLARE (R353). -/
def execStreamDeclare (core : CoreId) (slot : BitVec 3) (s : State) : Host.Outcome State Fault Refusal :=
  .next (s.streamGo core.val slot.toNat)
/-- STREAM_CANCEL (R353). -/
def execStreamCancel (core : CoreId) (slot : BitVec 3) (s : State) : Host.Outcome State Fault Refusal :=
  .next (s.streamCancel core.val slot.toNat)
/-- STREAM_LINE_FILL (R353). -/
def execStreamLineFill (core : CoreId) (slot : LineRead) (s : State) : Host.Outcome State Fault Refusal :=
  .next (s.streamFill core.val slot.slot.toNat slot.ecc)

/-- EPOCH_FLIP (R357). -/
def execEpochFlip (core : CoreId) (value : BitVec 64) (s : State) : Host.Outcome State Fault Refusal :=
  .next (s.epochWrite core.val value.toNat)
/-- CACHE_OP_WRITEBACK (R362). -/
def execCacheOpWriteback (core : CoreId) (base : BitVec 42) (lines : BitVec 34) (s : State) :
    Host.Outcome State Fault Refusal := .next (s.privileged core.val 0x20 (s.cacheGo 1 base.toNat lines.toNat))
/-- CACHE_OP_INVALIDATE (R362). -/
def execCacheOpInvalidate (core : CoreId) (base : BitVec 42) (lines : BitVec 34) (s : State) :
    Host.Outcome State Fault Refusal := .next (s.privileged core.val 0x20 (s.cacheGo 2 base.toNat lines.toNat))
/-- CACHE_OP_WRITEBACK_INVALIDATE (R362). -/
def execCacheOpWritebackInvalidate (core : CoreId) (base : BitVec 42) (lines : BitVec 34) (s : State) :
    Host.Outcome State Fault Refusal := .next (s.privileged core.val 0x20 (s.cacheGo 3 base.toNat lines.toNat))
/-- CACHE_OP_DONE (R362). -/
def execCacheOpDone (s : State) : Host.Outcome State Fault Refusal := .next s.cacheDone
/-- L_CFG_LSRAM_WRITE (R341). -/
def execLCfgLsramWrite (core : CoreId) (lsram : BitVec 5) (s : State) : Host.Outcome State Fault Refusal :=
  .next (s.privileged core.val 0 (s.lsramWrite core.val lsram.toNat))
/-- L_RNG_DATA_READ (R149): 64 bits of the core's generator, a free value. -/
def execLRngDataRead (core : CoreId) (s : State) : Host.Outcome State Fault Refusal :=
  .next (if !s.coreReady core.val then s
    else s.drawn.upCore core.val fun x => { x with rdata := leBytes (Config.rng s.free).toNat 8 })
/-- TASK_PREEMPT (R355). -/
def execTaskPreempt (core : CoreId) (s : State) : Host.Outcome State Fault Refusal := .next (s.preempt core.val)

end Sys2Proof.Machine
end

