-- ==== Sys2Proof/Machine/Power.lean ====
section
/-! DEFINITION. Power (R184–R188, R308, R324, R452–R456, R465, R468–R482): the regulators' admission, the energy
windows, grant and limit, the clamp, thermal limits, roasts, and the grid clock's stop and start. -/

namespace Sys2Proof.Machine

/-! ## Regulators and accounts -/

/-- A packet that waits at a bucket is admitted (R455) once LEVEL covers it. -/
def State.regulatorAdmit (s : State) (p : Nat) (fab : Bool) (n : Nat) : State :=
  if s.polices p fab && decide (1024 * n ≤ s.level p fab) then
    (s.spend p fab n).upPower fun x => { x with permits := aadd x.permits (2 * p + b2n fab) n }
  else s

/-- A client's account takes energy in µJ (R465): whole mJ are counted, the rest carried. -/
def State.addEnergy (s : State) (c uj : Nat) : State :=
  let t := aget 0 s.power.carryUj c + uj
  (s.inc F.PT_ACC_ENERGY_MJ (t / 1000) 0 c).upPower fun x => { x with carryUj := aput 0 x.carryUj c (t % 1000) }

/-- The weight of a partition in the present window (R465). -/
def State.weightOf (s : State) (p : Nat) : Nat :=
  let w := aget 0 s.power.weights
  if s.partEn p then w p + 2 * w (4 + p) + w (8 + p) / 16 else 0

/-- The account registers as they stand. -/
def State.accountCells (s : State) : Cells :=
  s.rf.filter fun e => decide (0x3800_0001_0000 ≤ e.1 / 64) && decide (e.1 / 64 < 0x3800_0001_2000)

/-- The end of a 1 ms window (R465, R506): the metered energy is apportioned, client 0 taking the rest, and the
accounts are copied. -/
def State.windowEnd (s : State) : State :=
  let e := s.power.metered / 4
  let total := 460800000 + ((List.range 4).map s.weightOf).sum
  let share := fun p => e * s.weightOf p / total
  let given := ((List.range 4).map share).sum
  let s1 := (List.range 4).foldl (fun t p => if s.partEn p then t.addEnergy (s.client p) (share p) else t) s
  let s1 := s1.addEnergy 0 (e - given)
  s1.upPower fun x => { x with metered := x.metered % 4, weights := [], window := x.window + 1, accounts := s1.accountCells }

/-! ## Grant and limit -/

/-- A sum over a list. -/
def sumOf (l : List Nat) : Nat := l.foldl (· + ·) 0

/-- The input-current value of R468: 17.5 A times the mean voltage of the last 1 ms, rounded down to 1 W; none before
the first measurement. -/
def State.currentLimit (s : State) : Option Nat :=
  match s.power.samples.length with
  | 0 => none
  | n => some (175 * sumOf (s.power.samples.map (·.2)) / (1000 * n))

/-- LIMIT of R468. -/
def State.limitNow (s : State) : Nat := min (min 700 s.power.setLimit) (s.currentLimit.getD 700)

/-- The thermal grant (R476). -/
def State.thermalGrant (s : State) : Nat := min s.power.dieGrant s.power.memGrant

/-- Whether grants act: in ACTIVE or IDLE (R481). -/
def State.powered (s : State) : Bool :=
  s.power.state == .active || s.power.state == .starting || s.power.state == .idle

/-- PW_GRANT follows what it derives from (R468, R482); a change counts in SEQ and is a grant event. -/
def State.grantSync (s : State) : State :=
  if !s.powered then s
  else
    let l := s.limitNow
    let w := min (min l s.power.setGrant) s.thermalGrant
    let lowv := match s.currentLimit with
      | some v => decide (v < 700) && decide (v < s.power.setLimit)
      | none => false
    let hot := decide (s.thermalGrant < l) && decide (s.thermalGrant < s.power.setGrant)
    let moved := decide (s.rd F.PW_GRANT_LIMIT ≠ l) || decide (s.rd F.PW_GRANT_WATTS ≠ w)
    let s := (((s.wr F.PW_GRANT_LIMIT l).wr F.PW_GRANT_WATTS w).wr F.PW_GRANT_LOWV (b2n lowv)).wr F.PW_GRANT_HOT (b2n hot)
    if moved then (s.inc F.PW_GRANT_SEQ 1).cpEvent 3 else s

/-- The result of a POWER_SET limit (R468, R528): 0 OK, 3 BADFIELD. -/
def limitOk (n : Nat) : Bool := decide (550 ≤ n) && decide (n ≤ 700)

/-- LIMIT as it would stand with another POWER_SET limit. -/
def State.limitWith (s : State) (n : Nat) : Nat := min (min 700 n) (s.currentLimit.getD 700)

/-! ## The clamp -/

/-- E1 in 0.25 µJ: the input energy of the latest 400 samples (R474). -/
def State.e1 (s : State) : Nat := sumOf (s.power.samples.map (·.1))

/-- A sample of the rail monitors (R474, R482): the clamp asks for or withdraws forced slack. -/
def State.clampSample (s : State) (dw cv : Nat) : State :=
  if !s.powered then s
  else
    let s := s.upPower fun x => { x with samples := ((dw, cv) :: x.samples).take 400, energy := x.energy + dw, metered := x.metered + dw }
    let n := s.power.samples.length
    let amps := sumOf (s.power.samples.map fun e => if e.2 = 0 then 0 else e.1 * 10000 / e.2)
    let s := (s.wr F.PW_INPUT_POWER (s.e1 / 400)).wr F.PW_INPUT_VOLTS (sumOf (s.power.samples.map (·.2)) / n)
    let s := (s.wr F.PW_INPUT_AMPS (amps / n)).wr F.PW_ENERGY_MJ (s.power.energy / 4000)
    let s := s.grantSync
    let l := s.rd F.PW_GRANT_LIMIT
    if !s.power.clamp && decide (4 * (1000 * l - 15000) ≤ s.e1) then
      ((s.inc F.PW_CLAMP_EVENTS_COUNT 1).wr F.PW_STATE_CLAMP 1).upPower fun x => { x with clamp := true }
    else if s.power.clamp && decide (s.e1 ≤ 4 * (1000 * l - 30000)) then
      (s.wr F.PW_STATE_CLAMP 0).upPower fun x => { x with clamp := false }
    else s

/-! ## Thermal limits -/

/-- A thermal grant and its sequence (0 none, 1 falling, 2 rising) after a read (R476): the fall begins at once, the
rise 10 ms later; between 95 °C and 100 °C neither goes on. -/
def grantRead (grant seq temp : Nat) : Nat × Nat :=
  if temp ≥ 100 then (if seq = 1 then grant else max 350 (grant - 25), 1)
  else if temp < 95 then (grant, 2)
  else (grant, 0)

/-- A thermal grant after 10 ms of its sequence. -/
def grantStep (grant seq : Nat) : Nat :=
  match seq with
  | 1 => max 350 (grant - 25)
  | 2 => min 700 (grant + 25)
  | _ => grant

/-- PW_STATE.THROTTLE follows the throttle. -/
def State.throttleSync (s : State) : State := s.wr F.PW_STATE_THROTTLE (b2n (s.power.dieThr || s.power.memThr))

/-- The throttle after a read: on at one temperature, off below another (R476). -/
def throttleRead (was : Bool) (temp on off : Nat) : Bool := if temp ≥ on then true else if temp < off then false else was

/-- The pilot's read of the die sensors (R476): their hottest value. The trip is the comparator's (R32). -/
def State.sensorRead (s : State) (die : Nat) : State :=
  let g := grantRead s.power.dieGrant s.power.dieSeq die
  let thr := throttleRead s.power.dieThr die 108 104
  let s := (s.wr F.PW_TEMP_DIE die).upPower fun x => { x with dieGrant := g.1, dieSeq := g.2, dieThr := thr }
  s.throttleSync.grantSync

/-- The hottest GDDR7 device (R476). -/
def State.memTemp (s : State) : Nat := (List.range 24).foldl (fun m q => max m (s.rd F.Q_STATUS_TEMP q)) 0

/-- A quay reads its device's temperature (R308, R324, R476): above 85 °C refresh doubles; not in self-refresh. -/
def State.devTemp (s : State) (q temp : Nat) : State :=
  if s.rd F.Q_STATUS_SELFREF q = 1 ∨ s.rd F.Q_STATUS_TRAINED q = 0 then s
  else
    let s := (s.wr F.Q_STATUS_TEMP temp q).wr F.Q_STATUS_HOT (b2n (decide (85 < temp))) q
    let m := s.memTemp
    let g := grantRead s.power.memGrant s.power.memSeq m
    let thr := throttleRead s.power.memThr m 105 101
    let s := (s.wr F.PW_TEMP_MEM m).upPower fun x => { x with memGrant := g.1, memSeq := g.2, memThr := thr }
    s.throttleSync.grantSync

/-- 10 ms after the step before it, an unbroken sequence steps again (R476). -/
def State.grantTick (s : State) (mem : Bool) : State :=
  (if mem then s.upPower fun x => { x with memGrant := grantStep x.memGrant x.memSeq }
   else s.upPower fun x => { x with dieGrant := grantStep x.dieGrant x.dieSeq }).grantSync

/-! ## Roasts -/

/-- Roast of a partition. -/
def State.roastOf (s : State) (p : Nat) : Nat := bits (s.rd F.PW_ROAST_ROAST) (2 * p) 2

/-- Tiles of a partition in a domain (R7, R449). -/
def State.domainTiles (s : State) (p d : Nat) : Nat :=
  if !s.partEn p then 0
  else 64 * ((List.range 4).filter fun k =>
    let b := 4 * (d / 4) + k
    decide (s.rd F.PT_PART_A_FIRST 0 p ≤ b) && decide (b ≤ s.rd F.PT_PART_A_LAST 0 p)).length

/-- cap(d) of R186 for the roasts a function gives. -/
def State.capOf (s : State) (r : Nat → Nat) (d : Nat) : Nat :=
  sumOf ((List.range 4).map fun p => (r p + 2) * s.domainTiles p d / 5)

/-- The forecast of R472 in µW. -/
def State.forecast (s : State) (r : Nat → Nat) : Nat :=
  s.rd F.PW_FLOOR_WATTS * 1000000 + s.rd F.PW_HEAVY_UW * sumOf ((List.range 12).map (s.capOf r))

/-- Whether a forecast fits the grant. -/
def State.fits (s : State) (r : Nat → Nat) : Bool := decide (s.forecast r ≤ s.rd F.PW_GRANT_WATTS * 1000000)

/-- The caps of R186 are written. -/
def State.writeCaps (s : State) : State :=
  (List.range 12).foldl (fun t d => t.wr F.PW_TOKEN_CAP_CAP (s.capOf s.roastOf d) 0 d) s

/-- The next lower roast present in a mask. -/
def lowerRoast (m r : Nat) : Option Nat := ((List.range r).filter fun i => m.testBit i).getLast?

/-- Partitions that the target set covers: enabled, with a loaded program; their mask of roasts. -/
def State.roastMask (s : State) (p : Nat) : Nat :=
  if s.partEn p then (match s.curImage p with
    | some i => i.roasts
    | none => 0) else 0

/-- The highest roast in a mask. -/
def topRoast (m : Nat) : Nat := (((List.range 4).filter fun i => m.testBit i).getLast?).getD 0

/-- Whether partition a is lowered before b: it holds a higher roast, or, on a tie, the lower number. -/
def before (r : List Nat) (a b : Nat) : Bool :=
  decide (r.getD b 0 < r.getD a 0) || (r.getD a 0 == r.getD b 0 && decide (a ≤ b))

/-- The target set (R473), by lowering one partition at a time. -/
def State.lowerTo (s : State) : Nat → List Nat → List Nat
  | 0, r => r
  | n + 1, r =>
    if s.fits (fun p => r.getD p 0) then r
    else
      let can := (List.range 4).filter fun p => (lowerRoast (s.roastMask p) (r.getD p 0)).isSome
      match can.find? fun p => can.all fun q => before r p q with
      | none => r
      | some p => s.lowerTo n (r.set p ((lowerRoast (s.roastMask p) (r.getD p 0)).getD 0))

/-- The target roast of a partition (R473): partitions without a loaded program keep theirs. -/
def State.target (s : State) (p : Nat) : Nat :=
  (s.lowerTo 16 ((List.range 4).map fun q => if s.roastMask q = 0 then s.roastOf q else topRoast (s.roastMask q))).getD p 0

/-- The roast that a partition at a boundary takes (R473). -/
def State.adopt (s : State) (p : Nat) : Nat :=
  let t := s.target p
  let now := s.roastOf p
  if t < now then t
  else if now < t ∧ s.fits (fun q => if q = p then t else s.roastOf q) then t
  else now

/-! ## Boundaries -/

/-- A tile's boundary object: it waits there in a SOWAIT whose object the landing supervisor owns (R457, R470). -/
def State.atBoundary (s : State) (t : Nat) : Option Nat :=
  match (s.tile t).soWait with
  | some (o, 0) => if s.tstate t = 1 ∧ s.soOwner o = 0x6000 then some o else none
  | _ => none

/-- The placed tiles of a partition's current client that are not fenced. -/
def State.placed (s : State) (p : Nat) : List Nat :=
  match s.curImage p with
  | some i => i.tiles.filter fun t => s.tstate t != 4
  | none => []

/-- Whether a partition is at a boundary: every placed tile waits at one and no crossing of it runs (R457). -/
def State.partAtBoundary (s : State) (p : Nat) : Bool :=
  (s.placed p).all (fun t => (s.atBoundary t).isSome) && !(s.hub.running.any fun x => x.part == p)
    && !(s.hub.starting.any fun x => x.part == p)

/-- The boundary objects of a partition's tiles are remembered. -/
def State.noteBoundary (s : State) (p : Nat) : State :=
  let os := (s.placed p).filterMap s.atBoundary
  s.upCtl fun c => { c with boundary := os.foldl (fun m o => aput 0 m (p * 8192 + o) 1) c.boundary }

/-- The landing supervisor meets an object: its count is brought to its target, and its waiters are answered. -/
def State.meet (s : State) (o : Nat) : State :=
  let s := if s.soCount o < s.soTarget o then s.wr F.SO_STATE_COUNT (s.soTarget o) 0 o else s
  let ws := s.hub.waits.filter fun w => w.obj == o
  (s.upHub fun h => { h with waits := h.waits.filter fun w => w.obj != o }).soEval ws

/-- The supervisor meets the boundary objects remembered for a partition. -/
def State.meetBoundary (s : State) (p : Nat) : State :=
  let os := (s.ctl.boundary.filter fun e => e.1 / 8192 == p).map fun e => e.1 % 8192
  let s := s.upCtl fun c => { c with boundary := c.boundary.filter fun e => e.1 / 8192 != p }
  os.foldl (fun s o => s.meet o) s

/-- The landing supervisor changes a partition's roast (R471): the tiles are stopped, take the resume address of the
boundary in the new roast and that roast's next crossing, and are started again. -/
def State.changeRoast (s : State) (p r b : Nat) : State :=
  match s.curImage p with
  | none => s
  | some im =>
    let ts := s.placed p
    let s := ts.foldl (fun s t => s.stop t) (s.noteBoundary p)
    let s := ts.foldl (fun s t =>
      let s := match im.resumes.find? fun e => e.1 == r && e.2.1 == b && e.2.2.1 == t with
        | some e => s.wr F.T_ENTRY_ADDR e.2.2.2 t
        | none => s
      let cur := Config.boundaryCur im.digest r b t
      (s.wr F.XT_CUR_CROSSING (cur % 256) t).wr F.XT_CUR_VALID (cur / 256 % 2) t) s
    let old := s.rd F.PW_ROAST_ROAST
    let s := (s.wr F.PW_ROAST_ROAST (old - bits old (2 * p) 2 * 4 ^ p + r * 4 ^ p)).inc F.PW_ROAST_CHANGES_COUNT 1
    let s := s.writeCaps
    (ts.foldl (fun s t => s.go t) s).meetBoundary p

/-- Whether a tile waits at a boundary of a number: the word after the one it waits at is where the present roast resumes
from it (R470, R471). -/
def State.waitsAt (s : State) (im : Image) (p b t : Nat) : Bool :=
  match s.fetchWord t with
  | none => false
  | some w => im.resumes.contains (s.roastOf p, b, t, w.addr + w.len)

/-- Whether every placed tile of a partition waits at the same boundary, and no crossing of it runs (R471). -/
def State.sameBoundary (s : State) (p b : Nat) : Bool :=
  s.partAtBoundary p && !(s.placed p).isEmpty && match s.curImage p with
    | none => false
    | some im => (s.placed p).all (s.waitsAt im p b)

/-- ROAST_SELECTION (R473): a partition at a boundary computes the target set and acts on its own target. -/
def State.selectRoast (s : State) (p b : Nat) : State :=
  if s.roastMask p = 0 ∨ !s.run p ∨ !s.sameBoundary p b then s
  else
    let r := s.adopt p
    if r = s.roastOf p ∨ !(s.roastMask p).testBit r then s else (s.changeRoast p r b).settle s

/-! ## The grid clock -/

/-- Whether a credit is open or closed at some tile. -/
def State.creditHeld (s : State) : Bool :=
  s.liveTiles.any fun t => (List.range 16).any fun c => s.credState t c == 1 || s.credState t c == 2

/-- Whether a tile does nothing (R479). -/
def TileX.quiet (x : TileX) : Bool :=
  x.results.isEmpty && x.mq.isEmpty && x.mload.isNone && x.mstream.isNone && x.sq.isEmpty && x.srun.isNone
    && x.creds.isEmpty && x.sampQ.isEmpty && x.sampRun.isNone && x.manQ.isEmpty && x.manRun.isNone

/-- Whether the grid has nothing running or in flight (R479). -/
def State.quietGrid (s : State) : Bool :=
  !(List.range 4).any (fun p => s.run p) && s.ctl.switch.isNone && !s.liveTiles.any (fun t => s.tstate t == 1)
    && s.hub.running.isEmpty && s.hub.starting.isEmpty && s.hub.inbox.isEmpty && s.hub.waits.isEmpty
    && s.hub.answers.isEmpty && s.tiles.all (fun e => e.2.quiet) && !s.creditHeld
    && s.cores.all (fun e => e.2.cred.isNone && !e.2.soOp && !(e.2.mem.any fun m => decide (0x2000_0000_0000 ≤ m.addr)))
    && s.rd F.DBG_CTL_DONE == 1

/-- IDLE_ENTRY (R479): the grid clock stops at a checkpoint outside a hold. -/
def State.idleEntry (s : State) : State :=
  if s.clockRuns && s.quietGrid && !s.frozen && s.checkpoint then s.upPower fun x => { x with state := .idle } else s

/-- GRID_SEEDING_COMPLETE (R65, R94, R98, R150, R151, R244, R479): every generator seeded, the grid clock runs and its
counters begin; what was held for a tile takes effect. A failed entropy source seeds none: an entropy fault. -/
def State.seeded (s : State) : State :=
  if s.power.state != .starting then s
  else if !s.boot.entropy then s.outOfService 7 0 0x0036 0
  else
    let s := s.clockBegin
    (s.tiles.map (·.1)).foldl (fun s t => s.applyHeld t) s

/-! ## Commands -/

/-- REGULATOR_ADMIT (R455). -/
def execRegulatorAdmit (part : PartId) (fab : Bool) (bytes : Nat) (s : State) : Host.Outcome State Fault Refusal :=
  .next (s.regulatorAdmit part.val fab bytes)

/-- ENERGY_WINDOW_END (R465). -/
def execEnergyWindowEnd (s : State) : Host.Outcome State Fault Refusal := .next s.windowEnd

/-- CLAMP_SAMPLE (R474). -/
def execClampSample (deciwatts centivolts : BitVec 16) (s : State) : Host.Outcome State Fault Refusal :=
  .next (s.clampSample deciwatts.toNat centivolts.toNat)

/-- THERMAL_SENSOR_READ (R476). -/
def execThermalSensorRead (die : BitVec 8) (s : State) : Host.Outcome State Fault Refusal :=
  .next (s.sensorRead die.toNat)

/-- THERMAL_GRANT_STEP (R476). -/
def execThermalGrantStep (mem : Bool) (s : State) : Host.Outcome State Fault Refusal := .next (s.grantTick mem)

/-- DEVICE_TEMP_READ (R308). -/
def execDeviceTempRead (q : QuayId) (temp : BitVec 8) (s : State) : Host.Outcome State Fault Refusal :=
  .next (s.devTemp q.val temp.toNat)

/-- ROAST_SELECTION (R473). -/
def execRoastSelection (part : PartId) (boundary : Nat) (s : State) : Host.Outcome State Fault Refusal :=
  .next (s.selectRoast part.val boundary)

/-- IDLE_ENTRY (R479). -/
def execIdleEntry (s : State) : Host.Outcome State Fault Refusal := .next s.idleEntry

/-- GRID_SEEDING_COMPLETE (R150). -/
def execGridSeedingComplete (s : State) : Host.Outcome State Fault Refusal := .next s.seeded

end Sys2Proof.Machine
end

