-- ==== Sys2Proof/Machine/Port.lean ====
section
/-! DEFINITION. The command ports (R484–R495, R498, R506–R508, R526): doorbells, the checks of R492, whose turn a
command is, responses, what the pilot answers itself, function resets, the status window. -/

namespace Sys2Proof.Machine

/-! ## What a port holds -/

/-- The command a port holds. -/
def State.heldOn (s : State) : CmdPort → Option Held
  | .control => s.ctl.control
  | .management => s.ctl.mgmt

/-- A port's held command replaced. -/
def State.setHeld (s : State) (p : CmdPort) (h : Option Held) : State :=
  match p with
  | .control => s.upCtl fun c => { c with control := h }
  | .management => s.upCtl fun c => { c with mgmt := h }

/-- Opcodes that the pilot answers itself (R493). -/
def pilotOp (op : Nat) : Bool := op == 1 || op == 0xA || op == 0xC

/-- Opcodes relayed to the landing supervisor (R493). -/
def relayedOp (op : Nat) : Bool := decide (2 ≤ op) && decide (op ≤ 0xB) && op != 0xA

/-- Opcodes of the management port (R528). -/
def mgmtOp (op : Nat) : Bool := decide (0x20 ≤ op) && decide (op ≤ 0x25)

/-! ## The checks of R492 -/

/-- The first of some argument fields (offset, whether it is bad) that is. -/
def firstBad (l : List (Nat × Bool)) : Option Nat := (l.find? fun e => e.2).map (·.1)

/-- Whether n argument bytes from an offset are not all 0. -/
def nz (a : List Byte) (i n : Nat) : Bool := leAt a i n != 0

/-- Whether a unit lies beyond those of its kind, or is landing core 0 (R503). -/
def badUnit (kind unit : Nat) : Bool :=
  match kind with
  | 0 => decide (3071 < unit)
  | 1 => decide (15 < unit) || unit == 0
  | _ => decide (23 < unit)

/-- What of a SET_PARTITIONS argument is out of range (R451), as the offset of the first such field: the four values of
PT_PART_A and of PT_MEM. -/
def partsBad (a m : List Nat) : Option Nat :=
  let av := fun p => a.getD p 0
  let mv := fun p => m.getD p 0
  let en := fun p => (av p).testBit 8
  let first := fun p => bits (av p) 0 4
  let last := fun p => bits (av p) 4 4
  let base := fun p => bits (mv p) 0 25
  let size := fun p => bits (mv p) 25 25
  let meets := fun p q => en p && en q && decide (first p ≤ last q) && decide (first q ≤ last p)
  let memMeets := fun p q => decide (0 < size p) && decide (0 < size q) && decide (base p < base q + size q)
    && decide (base q < base p + size p)
  firstBad ((List.range 4).flatMap fun p =>
    [(16 * p, decide (2 ^ 13 ≤ av p) || (en p && (decide (last p < first p) || decide (11 < last p)))
        || (List.range p).any (meets p)),
     (16 * p + 8, decide (2 ^ 50 ≤ mv p) || decide (0x180_0000 < base p + size p) || (List.range p).any (memMeets p))])

/-- The offset of the first argument field of a command that is out of range (R492 check 3, R498–R507, R528). -/
def State.argBad (s : State) (op : Nat) (a : List Byte) : Option Nat :=
  let b := byteAt a
  match op with
  | 2 => firstBad [(0, decide (3 < b 0)), (1, b 1 == 0 || decide (15 < b 1)), (2, decide (1 < leAt a 2 2)),
      (4, decide (leAt a 4 2 < 2048) || decide (4094 < leAt a 4 2)), (6, nz a 6 2), (8, decide (leAt a 8 4 < 64))]
  | 3 => firstBad [(0, decide (3 < b 0)), (1, nz a 1 7)]
  | 4 => firstBad [(0, b 0 == 0 || decide (15 < b 0)), (1, nz a 1 7)]
  | 5 => firstBad [(0, decide (3071 < leAt a 0 2)), (2, nz a 2 6)]
  | 6 => firstBad [(0, decide (2 < b 0)), (1, nz a 1 1), (2, badUnit (b 0) (leAt a 2 2)), (4, nz a 4 4)]
  | 7 => firstBad [(0, decide (2 < b 0)), (1, nz a 1 1), (2, badUnit (b 0) (leAt a 2 2)), (4, nz a 4 4)]
  | 8 =>
    let dev := (b 1).testBit 0
    let named := (List.range 4).filter fun p => if dev then s.partEn p else (b 0).testBit p
    firstBad [(0, if dev then b 0 != 0 else b 0 == 0 || decide (15 < b 0)), (1, decide (1 < b 1)),
      (2, named.any fun p => bits (leAt a 2 2) (4 * p) 4 == 0), (4, leAt a 4 4 == 0 || decide (10000000 < leAt a 4 4))]
  | 9 => partsBad ((List.range 4).map fun p => leAt a (16 * p) 8) ((List.range 4).map fun p => leAt a (16 * p + 8) 8)
  | 0xA => firstBad [(0, leAt a 0 2 == 0), (2, nz a 2 6)]
  | 0xB => firstBad [(0, leAt a 0 4 == 0 || decide (10000000 < leAt a 0 4)), (4, nz a 4 4)]
  | 0xC => firstBad [(12, nz a 12 4)]
  | 0x20 =>
    let f := b 0
    let lim := s.limitWith (if f.testBit 0 then leAt a 2 2 else s.power.setLimit)
    firstBad [(0, decide (15 < f) || (f.testBit 2 && f.testBit 3)), (1, nz a 1 1), (2, f.testBit 0 && !limitOk (leAt a 2 2)),
      (4, f.testBit 1 && (decide (leAt a 4 2 < 300) || decide (lim < leAt a 4 2))), (6, nz a 6 2)]
  | 0x22 => firstBad [(0, decide (1 < b 0)), (1, decide (3 < b 1)), (2, decide (4096 < leAt a 2 2)),
      (4, ((b 1).testBit 0 && nz a 4 4) || decide (0x1F0_0000 < leAt a 4 4 + leAt a 2 2)), (8, nz a 8 8)]
  | 0x23 => firstBad [(0, decide (1 < b 0)), (1, nz a 1 7)]
  | _ => firstBad [(0, nz a 0 8)]

/-- ALEN of a command (R498, R528). -/
def argLen (op : Nat) (a : List Byte) : Nat :=
  match op with
  | 1 => 0
  | 2 => 76
  | 8 => 16
  | 9 => 64
  | 0xC => 16
  | 0x22 => 16 + leAt a 2 2
  | _ => 8

/-- Module states in which the pilot refuses a relayed command (R493, R481), OFF with them. -/
def pilotRefuses (st : Nat) : Bool := st == 0 || st == 1 || st == 6 || st == 7 || st == 8

/-- The result that a command has at its acceptance (R492): none where it goes on to be carried out; else the code and
DETAIL. -/
def State.refusal (s : State) (p : CmdPort) (op alen res : Nat) (a : List Byte) : Option (Nat × Nat) :=
  if !(pilotOp op || relayedOp op || mgmtOp op) then some (4, 0)
  else if (match p with
    | .control => mgmtOp op
    | .management => relayedOp op) then some (2, 0)
  else if alen ≠ argLen op a ∨ res ≠ 0 then some (3, 0)
  else match s.argBad op a with
    | some o => some (3, o)
    | none => if relayedOp op && pilotRefuses s.modState then some (1, 0) else none

/-! ## Doorbell and response -/

/-- Whether the host server reaches BAR0 (R484): the module powered, not in D3hot. -/
def State.barUp (s : State) : Bool := s.power.state != .off && !s.ctl.d3hot

/-- Whether the management port answers: STBY is up and the pilot out of reset (R27, R29). -/
def State.mgmtUp (s : State) : Bool := s.pins.swClosed && s.pins.stby && !s.pins.inReset

/-- A transaction on the management bus (R20): at the first since STBY came up the pilot detects the bus's mode. -/
def State.onBus (s : State) : State :=
  if s.pins.bus.isSome then s else s.upPins fun p => { p with bus := some Config.i3cBus }

/-- A command is taken in (R489, R526): 16 + ALEN bytes of the request. -/
def State.takeIn (s : State) (p : CmdPort) (r : List Byte) : State :=
  let op := leAt r 0 2
  let tag := leAt r 2 2
  let alen := leAt r 4 4
  let a := (List.range (min alen 16368)).map fun i => r.getD (16 + i) 0
  let h : Held := { op := op, tag := tag, args := a }
  let h := match s.refusal p op alen (leAt r 8 8) a with
    | some (c, d) => { h with result := some c, detail := d }
    | none => if op = 0x20 then { h with left := byteAt a 0 % 16 } else h
  let s := (s.setHeld p (some h)).upCtl fun c => { c with order := c.order.filter (fun q => q != p) ++ [p] }
  match p with
  | .management => s
  | .control =>
    let s := ((s.wr F.CP_MB_STATUS_BUSY 1).wr F.CP_MB_STATUS_DONE 0).wr F.CP_MB_STATUS_TAG tag
    let s := (s.wr F.CP_MB_STATUS_PILOT (b2n (h.result.isSome || pilotOp op))).inc F.CP_MB_STATUS_COUNT 1
    s.upCtl fun c => { c with respArea := leBytes 0 16 ++ c.respArea.drop 16 }

/-- The request area's bytes. -/
def State.reqBytes (s : State) (n : Nat) : List Byte := (List.range n).map fun i => aget 0 s.ctl.reqArea i

/-- Bytes written into the request area from its start. -/
def State.putReq (s : State) (o : Nat) (d : List Byte) : State :=
  s.upCtl fun c => { c with reqArea := (List.range d.length).foldl (fun m i => if o + i < 0x4000 then aput 0 m (o + i) (d.getD i 0) else m) c.reqArea }

/-- CP_DOORBELL (R489): the host server's doorbell, the bytes it has written into the request area before it being the
operand; or a command message of the management port, discarded while one is held (R526). -/
def State.doorbell (s : State) (p : CmdPort) (req : List Byte) : State :=
  match p with
  | .management => if !s.mgmtUp then s else if s.ctl.mgmt.isSome then s.onBus else s.onBus.takeIn p req
  | .control =>
    if !s.barUp then s
    else
      let s := s.putReq 0 req
      if s.rd F.CP_MB_STATUS_BUSY = 1 then (s.wr F.CP_MB_STATUS_REJECTED 1).cpEvent 4
      else s.takeIn p (s.reqBytes (16 + min (leVal (s.reqBytes 8) / 2 ^ 32) 16368))

/-- A response as R490 lays it out. -/
def State.response (s : State) (h : Held) (r : Nat) : List Byte :=
  leBytes h.op 2 ++ leBytes h.tag 2 ++ leBytes r 1 ++ leBytes s.modState 1 ++ leBytes h.detail 2 ++ leBytes h.body.length 4
    ++ leBytes 0 4 ++ h.body

/-- A port lets its command go. -/
def State.letGo (s : State) (p : CmdPort) : State :=
  (s.setHeld p none).upCtl fun c => { c with order := c.order.filter fun q => q != p }

/-- A command that has its result completes (R489, R526). -/
def State.complete (s : State) (p : CmdPort) : State :=
  match s.heldOn p with
  | none => s
  | some h => match h.result with
    | none => s
    | some r =>
      let d := s.response h r
      let s := s.letGo p
      match p with
      | .management => s.upCtl fun c => { c with mgmtOut := some d }
      | .control =>
        let s := s.upCtl fun c => { c with respArea := d ++ c.respArea.drop d.length }
        ((s.wr F.CP_MB_STATUS_BUSY 0).wr F.CP_MB_STATUS_DONE 1).cpEvent 0

/-! ## Carrying commands out -/

/-- Whose command a command of the table is: one that a port holds, one that still waits behind another, or one that
the landing supervisor or pilot carries out of its own accord. -/
inductive Turn where
  | answer (p : CmdPort)
  | wait
  | own
deriving DecidableEq, Repr

/-- Whether a held command has no result and has not begun. -/
def Held.fresh (h : Held) : Bool := h.result.isNone && !h.began

/-- Commands relayed to the supervisor that have no result yet, in order of acceptance. -/
def State.relayQueue (s : State) : List CmdPort :=
  s.ctl.order.filter fun p => match s.heldOn p with
    | some h => relayedOp h.op && h.result.isNone
    | none => false

/-- Whose a command is (R494): relayed commands run one at a time in order of acceptance. -/
def State.turn (s : State) (op : Nat) (ok : List Byte → Bool) : Turn :=
  match s.ctl.order.find? fun p => match s.heldOn p with
    | some h => h.op == op && h.fresh && ok h.args
    | none => false with
  | none => .own
  | some p => if relayedOp op && s.relayQueue.head? != some p then .wait else .answer p

/-- A held command gets its result. -/
def State.reply (s : State) (p : CmdPort) (r d : Nat) (body : List Byte) : State :=
  s.setHeld p ((s.heldOn p).map fun h => { h with result := some r, detail := d, body := body })

/-- A command is carried out: its effect, its result (none while it goes on), DETAIL and body. -/
def State.serve (s : State) (op : Nat) (ok : List Byte → Bool) (run : State → State × Option Nat × Nat × List Byte) :
    State :=
  match s.turn op ok with
  | .wait => s
  | .own => (run s).1
  | .answer p =>
    let (t, r, d, b) := run s
    match r with
    | some c => t.reply p c d b
    | none => t.setHeld p ((t.heldOn p).map fun h => { h with began := true })

/-- The result of a command that went on (LOAD_PROGRAM, CONTEXT_SWITCH, DRAIN). -/
def State.finish (s : State) (op r : Nat) (body : List Byte) : State :=
  match s.ctl.order.find? fun p => match s.heldOn p with
    | some h => h.op == op && h.began && h.result.isNone
    | none => false with
  | none => s
  | some p => s.reply p r 0 body

/-- RELAY_TIMEOUT (R495): the relayed command that has run beyond its bound is abandoned, its response written; the
module goes out of service. -/
def State.relayTimeout (s : State) (p : CmdPort) : State :=
  match s.heldOn p with
  | none => s
  | some h =>
    if s.relayQueue.head? ≠ some p then s
    else
      let s := s.outOfService 7 0 0x0035 h.op
      (s.reply p 6 0 []).complete p

/-! ## What the pilot answers -/

/-- GET_STATE's body (R498). -/
def State.stateBody (s : State) : List Byte :=
  leBytes s.cpState 8 ++ leBytes (s.read8 .dev 0 0x7040) 8
    ++ ((List.range 4).flatMap fun p => leBytes (s.read8 .dev 0 (0x7000 + 16 * p)) 8)
    ++ leBytes (s.read8 .dev 0 0x3200) 8 ++ leBytes s.stepid 2 ++ leBytes 0 6

/-- READ_ACCOUNTS' body (R506): the pilot's copy of the named clients' accounts. -/
def State.accountsBody (s : State) (m : Nat) : List Byte :=
  leBytes s.power.window 8 ++ (((List.range 16).filter fun c => m.testBit c).flatMap fun c =>
    (List.range 64).flatMap fun j => leBytes (aget 0 s.power.accounts ((0x3800_0001_0000 + 0x200 * c + 8 * j) * 64)) 8)

/-- A fault-log record as R542 lays it out. -/
def FaultRec.bytes (r : FaultRec) : List Byte :=
  leBytes r.seq 8 ++ leBytes r.time 8 ++ leBytes r.cls 1 ++ leBytes r.kind 1 ++ leBytes r.unit 2 ++ leBytes r.code 2
    ++ leBytes r.actor 1 ++ leBytes 0 1 ++ leBytes r.data 8

/-- REPORT_FAULTS' records (R507, R542). -/
def State.faultsFrom (s : State) (start mx : Nat) : List FaultRec :=
  (s.fault.log.filter fun r => decide (start ≤ r.seq)).take (min mx 1022)

/-- NEXT of REPORT_FAULTS: FROM where no record is returned. -/
def State.faultsNext (s : State) (start mx : Nat) : Nat :=
  match (s.faultsFrom start mx).getLast? with
  | some r => r.seq + 1
  | none => start

/-- Whether a port holds a command, not yet carried out. -/
def State.asked (s : State) (p : CmdPort) (op : Nat) (args : List Byte) : Bool :=
  match s.heldOn p with
  | some h => h.op == op && h.fresh && h.args == args
  | none => false

/-! ## Status window -/

/-- Offsets of the entries that the pilot keeps live in every state, with their sources (R508). -/
def winPower : List (Nat × Nat) := [(0x08, 0x3200), (0x10, 0x3220), (0x18, 0x3228), (0x20, 0x3230), (0x28, 0x3258)]

/-- Offsets of the other device registers of the window, with their sources (R508). -/
def winDev : List (Nat × Nat) :=
  [(0x30, 0x2008), (0x38, 0x2018), (0x40, 0x2020), (0x48, 0x2028), (0x50, 0x2030), (0x58, 0x2038), (0x60, 0x7040),
   (0x68, 0x7048), (0x70, 0x7000), (0x78, 0x7010), (0x80, 0x7020), (0x88, 0x7030), (0x90, 0x6010)]

/-- Entries copied into the window. -/
def State.copyWin (s : State) (blk : Blk) (l : List (Nat × Nat × Nat)) : State :=
  l.foldl (fun s e => s.upCtl fun c => { c with win := aput 0 c.win e.1 (s.read8 blk e.2.1 e.2.2) }) s

/-- STATUS_WINDOW_REFRESH (R508): with VCORE down only the power entries are live, and no refresh is counted. -/
def State.refreshWin (s : State) : State :=
  let s := s.copyWin .dev (winPower.map fun e => (e.1, 0, e.2))
  if !s.powered then s
  else
    let s := s.copyWin .dev (winDev.map fun e => (e.1, 0, e.2))
    let s := s.copyWin .cluster [(0x98, 0, 8)]
    let s := s.copyWin .port ((List.range 12).map fun k => (0x100 + 8 * k, k, 0))
    let s := s.copyWin .eng ((List.range 12).map fun k => (0x180 + 8 * k, k, 0x18))
    s.upCtl fun c => { c with win := aput 0 c.win 0 (aget 0 c.win 0 + 1) }

/-! ## Function reset, configuration -/

/-- Mailbox fields that a function reset clears (R485): CP_EVENTS, CP_EVENT_MASK, the MSI-X table and pending bits. -/
def fnResetKey (k : Nat) : Bool :=
  let o := k / 64 - Blk.bar.base 0
  decide (Blk.bar.base 0 ≤ k / 64) && (o == 0x28 || o == 0x30 || (decide (0x800 ≤ o) && decide (o < 0x840)) || o == 0xC00)

/-- FUNCTION_RESET (R485): configuration space too; the module and its commands go on. -/
def State.fnReset (s : State) : State :=
  (s.dropRf fnResetKey).upCtl fun c => { c with d3hot := false, bme := false, msixEn := false }

/-- CONFIGURATION_REQUEST (R484, R488): D3hot entered (leaving it is a function reset, R485), Bus Master Enable and
MSI-X enable written; what may now be sent is sent. Without PWR_GOOD there is no link to bring one (R39). -/
def State.configure (s : State) (d3 bme en : Option Bool) : State :=
  if !s.pins.pwrGood then s else
  let s := if d3 = some false ∧ s.ctl.d3hot then s.fnReset else s
  (s.upCtl fun c => { c with d3hot := d3.getD c.d3hot, bme := bme.getD c.bme, msixEn := en.getD c.msixEn }).msixFlush

/-! ## Commands -/

/-- CP_DOORBELL (R489). -/
def execCpDoorbell (port : CmdPort) (req : List (BitVec 8)) (s : State) : Host.Outcome State Fault Refusal :=
  .next (s.doorbell port req)

/-- RELAY_TIMEOUT (R495). -/
def execRelayTimeout (port : CmdPort) (s : State) : Host.Outcome State Fault Refusal := .next (s.relayTimeout port)

/-- FUNCTION_RESET (R485): a hot reset, a link-down, a Function Level Reset, a return from D3hot. -/
def execFunctionReset (_kind : BitVec 2) (s : State) : Host.Outcome State Fault Refusal := .next s.fnReset

/-- CONFIGURATION_REQUEST (R484). -/
def execConfigurationRequest (d3hot bme msixEn : Option Bool) (s : State) : Host.Outcome State Fault Refusal :=
  .next (s.configure d3hot bme msixEn)

/-- STATUS_WINDOW_REFRESH (R508). -/
def execStatusWindowRefresh (s : State) : Host.Outcome State Fault Refusal := .next s.refreshWin

/-- GET_STATE (R498, R527): answered where the port asks it. -/
def execGetState (port : CmdPort) (s : State) : Host.Outcome State Fault Refusal :=
  .next (if !s.asked port 1 [] then s
    else
      let t := s.reply port 0 0 s.stateBody
      match port with
      | .control => t
      | .management => (t.upCtl fun c => { c with mgState := false }).alertSync)

/-- READ_ACCOUNTS (R506): answered where the port asks it. -/
def execReadAccounts (port : CmdPort) (cmask : BitVec 16) (s : State) : Host.Outcome State Fault Refusal :=
  .next (if s.asked port 0xA (leBytes cmask.toNat 2 ++ leBytes 0 6) then s.reply port 0 0 (s.accountsBody cmask.toNat) else s)

/-- REPORT_FAULTS (R507, R527): answered where the port asks it. -/
def execReportFaults (port : CmdPort) (start : BitVec 64) (max : BitVec 32) (s : State) : Host.Outcome State Fault Refusal :=
  .next (if !s.asked port 0xC (leBytes start.toNat 8 ++ leBytes max.toNat 4 ++ leBytes 0 4) then s
    else
      let rs := s.faultsFrom start.toNat max.toNat
      let n := s.faultsNext start.toNat max.toNat
      let t := s.reply port 0 0 (leBytes n 8 ++ leBytes rs.length 4 ++ leBytes 0 4 ++ rs.flatMap FaultRec.bytes)
      match port with
      | .control => t
      | .management => (t.upCtl fun c => { c with mgNext := n }).alertSync)

end Sys2Proof.Machine
end

