-- ==== Sys2Proof/Machine/Sha.lean ====
section
/-! DEFINITION. SHA-256 (FIPS 180-4), which the digests of R104, R515, R533 and R534 name. A chaining value is one
256-bit number, its first word the highest. -/

namespace Sys2Proof.Machine

/-! ## Constants -/

/-- Whether a number is prime, by trial of every divisor. -/
def isPrime (n : Nat) : Bool := decide (2 ≤ n) && (List.range n).all fun d => decide (d < 2) || n % d != 0

/-- The first 64 primes. -/
def shaPrimes : List Nat := (List.range 312).filter isPrime

/-- The greatest r below acc + 2^n with r^k ≤ x, bit by bit. -/
def rootBits (k x : Nat) : Nat → Nat → Nat
  | 0, acc => acc
  | n + 1, acc => rootBits k x n (if (acc + 2 ^ n) ^ k ≤ x then acc + 2 ^ n else acc)

/-- The first 32 bits of the fraction of the k-th root of a number. -/
def rootFraction (k p : Nat) : Nat := rootBits k (p * 2 ^ (32 * k)) 40 0 % 2 ^ 32

/-- Words joined, the first the highest. -/
def packWords (l : List Nat) : Nat := l.foldl (fun v w => v * 2 ^ 32 + w % 2 ^ 32) 0

/-- The round constants: cube roots of the first 64 primes. -/
def shaKeys : List Nat := shaPrimes.map (rootFraction 3)

/-- The chaining value at the start: square roots of the first eight primes. -/
def shaStart : Nat := packWords ((shaPrimes.take 8).map (rootFraction 2))

/-! ## Words -/

/-- The n-bit rotation of a word to the right. -/
def rotr (x n : Nat) : Nat := x * (2 ^ 32 + 1) / 2 ^ n % 2 ^ 32

/-- Three rotations of a word added bit by bit. -/
def spin (x i j k : Nat) : Nat := rotr x i ^^^ rotr x j ^^^ rotr x k

/-- Two rotations and a shift of a word added bit by bit. -/
def spinShift (x i j k : Nat) : Nat := rotr x i ^^^ rotr x j ^^^ x / 2 ^ k

/-- Word i of a chaining value. -/
def chainWord (v i : Nat) : Nat := v / 2 ^ (32 * (7 - i)) % 2 ^ 32

/-- A big-endian value of bytes. -/
def beVal (l : List Byte) : Nat := l.foldl (fun a b => a * 256 + b.toNat) 0

/-- A value as n big-endian bytes. -/
def beBytes (v n : Nat) : List Byte := (leBytes v n).reverse

/-! ## Blocks -/

/-- The message schedule of a block, the newest word first: its sixteen words, then one of four earlier ones at a time. -/
def shaWords (b : List Byte) : Nat → List Nat
  | 0 => []
  | n + 1 =>
    let l := shaWords b n
    (if n < 16 then beVal ((b.drop (4 * n)).take 4)
     else (spinShift (l.getD 1 0) 17 19 10 + l.getD 6 0 + spinShift (l.getD 14 0) 7 18 3 + l.getD 15 0) % 2 ^ 32) :: l

/-- A round: the words move one place down, and a mix of them with key and schedule word enters the first and the fifth. -/
def shaMix (v kw : Nat) : Nat :=
  let x := chainWord v
  let pick := x 6 ^^^ (x 4 &&& (x 5 ^^^ x 6))
  let most := (x 0 &&& (x 1 ||| x 2)) ||| (x 1 &&& x 2)
  let mix := x 7 + spin (x 4) 6 11 25 + pick + kw
  packWords [mix + spin (x 0) 2 13 22 + most, x 0, x 1, x 2, x 3 + mix, x 4, x 5, x 6]

/-- A 64-byte block taken into a chaining value. -/
def shaTake (h : Nat) (b : List Byte) : Nat :=
  let v := (List.zipWith (· + ·) shaKeys (shaWords b 64).reverse).foldl shaMix h
  packWords ((List.range 8).map fun i => chainWord h i + chainWord v i)

/-- The first n blocks of a message taken in. -/
def shaChain (m : List Byte) : Nat → Nat
  | 0 => shaStart
  | n + 1 => shaTake (shaChain m n) ((m.drop (64 * n)).take 64)

/-- SHA-256 of a byte list: 32 bytes. The message is padded with a set bit, zeros and its length in bits. -/
def sha256 (m : List Byte) : List Byte :=
  let blocks := (m.length + 9 + 63) / 64
  let zeros := 64 * blocks - m.length - 9
  beBytes (shaChain (m ++ 0x80#8 :: List.replicate zeros 0#8 ++ beBytes (8 * m.length) 8) blocks) 32

end Sys2Proof.Machine
end

