-- ==== Sys2Proof/Machine/Object.lean ====
section
/-! DEFINITION. The Abaob object container (R104–R110, R253, R254, R291, R316): its sections, and the checks that
refuse it before anything is written (R108). -/

namespace Sys2Proof.Machine

/-- The bytes of an object by offset. -/
abbrev Obj := Nat → Byte

/-- An n-byte little-endian field of an object. -/
def Obj.le (o : Obj) (i : Nat) : Nat → Nat
  | 0 => 0
  | n + 1 => (o i).toNat + 256 * Obj.le o (i + 1) n

/-- n bytes of an object. -/
def Obj.take (o : Obj) (i n : Nat) : List Byte := (List.range n).map fun j => o (i + j)

/-- A load result of R132. -/
structure LoadRes where
  code  : Nat
  roast : Nat := 0
  sect  : Nat := 65535
  loc   : Nat := 0
  vidx  : Nat := 0xFFFF_FFFF
deriving DecidableEq, Repr

/-- Its twelve bytes. -/
def LoadRes.bytes (r : LoadRes) : List Byte :=
  leBytes (r.code + 2 ^ 8 * r.roast + 2 ^ 16 * r.sect + 2 ^ 32 * (r.loc % 4096) + 2 ^ 64 * r.vidx) 12

/-- An entry of the section table (R105). -/
structure Sec where
  idx   : Nat
  typ   : Nat
  rmask : Nat
  res   : Nat
  off   : Nat
  len   : Nat
  lt    : Nat
deriving DecidableEq, Repr

/-- NSECT. -/
def Obj.nsect (o : Obj) : Nat := o.le 0x15 1
/-- LWIDTH. -/
def Obj.lw (o : Obj) : Nat := o.le 0x10 2
/-- LHEIGHT. -/
def Obj.lh (o : Obj) : Nat := o.le 0x12 2
/-- Logical tiles. -/
def Obj.ntiles (o : Obj) : Nat := o.lw * o.lh
/-- ROASTS. -/
def Obj.roasts (o : Obj) : Nat := o.le 0x14 1
/-- NSYNC. -/
def Obj.nsync (o : Obj) : Nat := o.le 0x16 2
/-- MODEL_ID. -/
def Obj.model (o : Obj) : Nat := o.le 8 8

/-- The section table. -/
def Obj.secs (o : Obj) : List Sec :=
  (List.range o.nsect).map fun i =>
    let e := 0x40 + 16 * i
    ⟨i, o.le e 2, o.le (e + 2) 1, o.le (e + 3) 1 + o.le (e + 0xE) 2, o.le (e + 4) 4, o.le (e + 8) 4, o.le (e + 0xC) 2⟩

/-- Sections of a type. -/
def Obj.ofType (o : Obj) (t : Nat) : List Sec := o.secs.filter fun s => s.typ == t

/-- Whether a roast is in a mask. -/
def inMask (m r : Nat) : Bool := m.testBit r

/-- Roasts of an object, ascending. -/
def Obj.roastList (o : Obj) : List Nat := (List.range 4).filter fun r => o.roasts.testBit r

/-- The CODE section of a logical tile for a roast. -/
def Obj.code (o : Obj) (lt r : Nat) : Option Sec := (o.ofType 1).find? fun s => s.lt == lt && s.rmask.testBit r

/-- Whether a type concerns one logical tile: CODE, DATA, SLIPS, RELOC (R106). -/
def perTile (t : Nat) : Bool := t == 1 || t == 2 || t == 3 || t == 8
/-- Whether a type may differ between roasts (R106). -/
def perRoast (t : Nat) : Bool := t == 1 || t == 4
/-- Whether a TYPE is one of R106. -/
def knownType (t : Nat) : Bool := (decide (1 ≤ t) && decide (t ≤ 8)) || t == 0xA

/-! ## Records of variable length -/

/-- Offsets of records laid end to end over a body, none where the last does not end at its end. -/
def records (size : Nat → Nat) : Nat → Nat → Nat → Option (List Nat)
  | 0, a, e => if a = e then some [] else none
  | n + 1, a, e =>
    if a = e then some []
    else if size a = 0 ∨ e < a + size a then none
    else (records size n (a + size a) e).map fun l => a :: l

/-- Records of a section whose size at an offset a function gives. -/
def Sec.recs (s : Sec) (size : Nat → Nat) : Option (List Nat) := records size (s.len + 1) s.off (s.off + s.len)

/-- The size of a DATA record. -/
def Obj.dataSize (o : Obj) (a : Nat) : Nat := 8 + o.le (a + 4) 4
/-- Bytes of a PARTS bitmap (R253). -/
def Obj.partsLen (o : Obj) : Nat := (o.ntiles + 63) / 64 * 8
/-- The size of a crossing record. -/
def Obj.xferSize (o : Obj) (a : Nat) : Nat := 0x20 + o.partsLen + 16 * o.le (a + 4) 4
/-- The size of a manifest record. -/
def Obj.mfSize (o : Obj) (a : Nat) : Nat := (40 + 2 * o.le (a + 0xE) 2 + 2 * o.le (a + 0x10) 2 + 7) / 8 * 8

/-- The records of a DATA, XFER or MANIFEST section. -/
def Obj.recsOf (o : Obj) (s : Sec) : Option (List Nat) :=
  match s.typ with
  | 2 => s.recs o.dataSize
  | 4 => s.recs o.xferSize
  | 7 => s.recs o.mfSize
  | _ => some []

/-- Sizes that R106 gives a section's LENGTH. -/
def Obj.lenOk (o : Obj) (s : Sec) : Bool :=
  match s.typ with
  | 1 => s.len == 8 + 8 * o.le (s.off + 4) 4
  | 2 => (o.recsOf s).isSome
  | 3 => s.len % 16 == 0 && decide (s.len ≤ 512)
  | 4 => (o.recsOf s).isSome
  | 5 => s.len % 32 == 0 && decide (s.len ≤ 8192)
  | 6 => s.len % 8 == 0
  | 7 => (o.recsOf s).isSome
  | 8 => s.len % 16 == 0
  | _ => true

/-- The starts of fixed-size records of a section. -/
def Sec.every (s : Sec) (n : Nat) : List Nat := (List.range (s.len / n)).map fun i => s.off + n * i

/-! ## The checks of R108 -/

/-- Whether the header is well formed as far as the section table. -/
def Obj.headOk (o : Obj) (len : Nat) : Bool :=
  decide (64 ≤ len) && o.le 0 4 == 0x424F4241 && o.le 5 1 == 1 && o.model != 0
    && o.le 6 2 / 4 == 0 && o.le 0x1C 4 == 0 && o.roasts / 16 == 0 && o.roasts != 0 && decide (1 ≤ o.lw) && decide (o.lw ≤ 64)
    && decide (1 ≤ o.lh) && decide (o.lh ≤ 48) && o.nsect != 0 && decide (o.nsync ≤ 8192)
    && decide (0x40 + 16 * o.nsect ≤ len) && decide (o.ntiles ≤ 3072)

/-- Whether DIGEST matches (R104). -/
def Obj.digestOk (o : Obj) (len : Nat) : Bool :=
  sha256 (o.take 0 0x20 ++ List.replicate 32 0 ++ o.take 0x40 (len - 0x40)) == o.take 0x20 32

/-- Whether a section's table entry is well formed. -/
def Obj.secOk (o : Obj) (len : Nat) (s : Sec) : Bool :=
  knownType s.typ && s.res == 0 && s.rmask != 0 && (s.rmask &&& o.roasts) == s.rmask
    && (perRoast s.typ || s.rmask == o.roasts) && (if perTile s.typ then decide (s.lt < o.ntiles) else s.lt == 65535)
    && decide (s.off + s.len ≤ len) && decide (0x40 + 16 * o.nsect ≤ s.off ∨ s.len = 0)

/-- Whether two bodies overlap. -/
def Sec.meets (a b : Sec) : Bool :=
  decide (0 < a.len) && decide (0 < b.len) && decide (a.off < b.off + b.len) && decide (b.off < a.off + a.len)

/-- An endpoint of a transfer that is reserved (R254). -/
def badEnd (e : Nat) : Bool :=
  !(decide (e < 0xC00) || (decide (0xF000 ≤ e) && decide (e < 0xF018)) || (decide (0xF100 ≤ e) && decide (e < 0xF10C)))

/-- Starts of the transfer entries of a crossing record. -/
def Obj.entries (o : Obj) (a : Nat) : List Nat :=
  (List.range (o.le (a + 4) 4)).map fun i => a + 0x20 + o.partsLen + 16 * i

/-- Whether a crossing record carries a reserved value (R253, R254). -/
def Obj.xferBad (o : Obj) (a : Nat) : Bool :=
  o.le (a + 2) 1 ≥ 4 || o.le (a + 3) 1 != 0 || o.le (a + 0xB) 1 != 0 || o.le (a + 0xC) 2 ≥ 4096 || o.le (a + 0xE) 1 > 16
    || o.le (a + 0xF) 1 != 0 || o.le (a + 0x18) 8 != 0
    || (o.entries a).any fun e => badEnd (o.le e 2) || badEnd (o.le (e + 2) 2) || o.le (e + 6) 1 ≥ 3 || o.le (e + 7) 1 != 0
        || o.le (e + 8) 4 == 0 || o.le (e + 8) 4 % 64 != 0

/-- Whether a slip declaration breaks R107. -/
def Obj.slipBad (o : Obj) (e : Nat) : Bool :=
  o.le e 1 ≥ 32 || o.le (e + 1) 1 ≥ 16 || o.le (e + 1) 1 / 2 ≥ 6 || o.le (e + 2) 2 != 0 || o.le (e + 4) 4 % 64 != 0
    || o.le (e + 8) 4 == 0 || o.le (e + 8) 4 % 64 != 0 || o.le (e + 0xC) 4 != 0

/-- Whether a relocation entry carries a reserved value (R122). -/
def Obj.relocBad (o : Obj) (e : Nat) : Bool :=
  let k := o.le (e + 4) 1
  let m := o.le (e + 5) 1
  k % 16 == 0 || k % 16 ≥ 6 || k / 16 == 0 || k / 16 ≥ 7 || m == 0 || (m &&& o.roasts) != m || o.le (e + 6) 2 != 0

/-- Whether a stream template carries a reserved value (R316). -/
def Obj.tplBad (o : Obj) (e : Nat) : Bool :=
  let row := o.le (e + 0xC) 4
  let b := o.le (e + 8) 4
  o.le e 2 != 0 || o.le (e + 2) 2 < 0xF000 || o.le (e + 2) 2 ≥ 0xF018 || o.le (e + 4) 1 ≥ 2 || o.le (e + 5) 1 == 0
    || o.le (e + 5) 1 > 60 || o.le (e + 6) 2 != 0 || row % 64 != 0 || row == 0 || row > 4096 || b == 0 || b % max 1 row != 0
    || o.le (e + 0x15) 3 != 0 || (o.le (e + 4) 1 == 0 && o.le (e + 0x10) 5 != 0) || o.le (e + 0x1D) 3 != 0

/-- Whether a manifest record carries a reserved value (R291). -/
def Obj.mfBad (o : Obj) (a : Nat) : Bool :=
  let kind := o.le (a + 1) 1
  let fl := o.le (a + 2) 1
  let rev := fl.testBit 0
  let row := o.le (a + 0xA) 2
  let rb := o.le (a + 0xC) 2
  let nd := o.le (a + 0x10) 2
  o.le a 1 ≥ 32 || kind ≥ 2 || fl ≥ 16 || o.le (a + 3) 1 != 0 || (!rev && o.le (a + 5) 1 != 0) || o.le (a + 8) 2 == 0
    || o.le (a + 8) 2 > 4096 || row % 64 != 0 || row == 0 || row > 4096
    || (if rev then rb % 64 != 0 || rb == 0 || rb > 4096 else rb != 0) || o.le (a + 0xE) 2 == 0 || o.le (a + 0xE) 2 > 3072
    || nd == 0 || nd > (if kind = 0 then 3072 else 24) || o.le (a + 0x12) 2 != 0 || (kind == 1 && o.le (a + 0x14) 4 != 0)
    || o.le (a + 0x24) 4 != 0

/-- Whether a list has an entry twice. -/
def hasTwice : List Nat → Bool
  | [] => false
  | a :: r => r.contains a || hasTwice r

/-- The VNUMs declared by all SYNC sections. -/
def Obj.syncs (o : Obj) : List Nat := (o.ofType 6).flatMap fun s => s.every 8

/-- The failing section of some, as a load result BAD_OBJECT. -/
def badSec (l : List Sec) (p : Sec → Bool) : Option LoadRes := (l.find? p).map fun s => { code := 1, sect := s.idx }

/-- The first of a list of checks that fails. -/
def firstFail (l : List (Option LoadRes)) : Option LoadRes := l.findSome? id

/-- BAD_OBJECT without a section. -/
def badObj : LoadRes := { code := 1 }

/-- What R108 finds wrong with an object of a length. -/
def Obj.check (o : Obj) (len : Nat) : Option LoadRes :=
  if !o.headOk len then some badObj
  else if !o.digestOk len then some badObj
  else
    let ss := o.secs
    let shape := firstFail
      [badSec ss fun s => !o.secOk len s,
       badSec ss fun a => ss.any fun b => decide (b.idx < a.idx) && a.meets b,
       badSec ss fun s => !o.lenOk s,
       badSec (o.ofType 3) fun a => (o.ofType 3).any fun b => decide (b.idx < a.idx) && a.lt == b.lt]
    match shape with
    | some f => some f
    | none => firstFail
      [((List.range o.ntiles).flatMap fun t => o.roastList.map fun r => (t, r)).findSome? fun e =>
          if ((o.ofType 1).filter fun s => s.lt == e.1 && s.rmask.testBit e.2).length = 1 then none
          else some { code := 1, roast := e.2, loc := e.1 },
       if hasTwice (o.syncs.map fun a => o.le a 2) || o.syncs.length != o.nsync
          || o.syncs.any (fun a => o.le a 2 ≥ o.nsync || (o.le (a + 2) 2 != 65535 && o.le (a + 2) 2 ≥ o.ntiles)) then some badObj
        else none,
       badSec (o.ofType 3) fun s => hasTwice ((s.every 16).map fun e => o.le e 1) || (s.every 16).any o.slipBad,
       badSec (o.ofType 8) fun s => (s.every 16).any o.relocBad,
       badSec (o.ofType 4) fun s => ((o.recsOf s).getD []).any o.xferBad,
       badSec (o.ofType 5) fun s => (s.every 32).any o.tplBad,
       badSec (o.ofType 7) fun s => ((o.recsOf s).getD []).any o.mfBad,
       if hasTwice ((o.ofType 7).flatMap fun s => ((o.recsOf s).getD []).map fun a => o.le a 1) then some badObj else none]

/-! ## Virtual instructions -/

/-- A virtual instruction (R109): its slot, the raw slot bits, JOIN, EOP, BRK, HINT. -/
structure VInstr where
  slot : Slot
  raw  : Nat
  join : Bool
  eop  : Bool
  brk  : Bool
  hint : Nat
deriving DecidableEq, Repr

/-- Whether an operation is a scratchpad load that HINT may time. -/
def SlotOp.isLoad : SlotOp → Bool
  | .mem .ld _ _ _ => true
  | .mem .ldh _ _ _ => true
  | .vld _ _ _ => true
  | _ => false

/-- Whether an operation stores to scratchpad (R119 condition 3). -/
def SlotOp.stores : SlotOp → Bool
  | .mem .st _ _ _ => true
  | .mem .sth _ _ _ => true
  | .vst _ _ _ => true
  | .mout .. => true
  | _ => false

/-- A virtual instruction decoded, none where R110 refuses it. -/
def decodeV (x : Nat) : Option VInstr :=
  let hint := bits x 38 3
  match decodeSlot (bits x 32 2) (bits x 0 32) with
  | .error _ => none
  | .ok sl =>
    if x.testBit 37 || x / 2 ^ 41 != 0 || (decide (1 ≤ hint) && decide (hint ≤ 3)) || (hint != 0 && !sl.op.isLoad) then none
    else some ⟨sl, bits x 0 32, x.testBit 34, x.testBit 35, x.testBit 36, hint⟩

/-- Latency of a virtual instruction for a stepping (R86, R115, R120): a load with HINT 0 is timed at banks 12–15. -/
def VInstr.lat (v : VInstr) (b0 : Bool) : Nat :=
  v.slot.op.lat b0 ((if v.hint = 0 then 3 else v.hint - 4) * 4 * 0x6000)

end Sys2Proof.Machine
end

