-- ==== Sys2Proof/Machine/Translate.lean ====
section
/-! DEFINITION. Translation (R109, R110, R119–R125, R254, R256, R291, R292, R317, R458, R470): code read, packed and
padded for a stepping, laid into execute slips, relocated; placement; what a load writes. -/

namespace Sys2Proof.Machine

/-! ## Code as the object holds it -/

/-- One logical tile's CODE for one roast: the section's index, the tile, the roast, ENTRY, the instructions. -/
structure TCode where
  sect  : Nat
  lt    : Nat
  roast : Nat
  entry : Nat
  vs    : List VInstr
deriving DecidableEq, Repr

/-- A load result about an instruction of a tile's code. -/
def TCode.fail (c : TCode) (code j : Nat) : LoadRes :=
  { code := code, roast := c.roast, sect := c.sect, loc := c.lt, vidx := j }

/-- The j-th virtual instruction's 64 bits. -/
def Obj.vword (o : Obj) (s : Sec) (j : Nat) : Nat := o.le (s.off + 8 + 8 * j) 8

/-- A CODE section's instructions decoded (R109, R110). -/
def Obj.readCode (o : Obj) (s : Sec) (r : Nat) : Except LoadRes TCode :=
  let n := o.le (s.off + 4) 4
  let c : TCode := ⟨s.idx, s.lt, r, o.le s.off 4, (List.range n).filterMap fun j => decodeV (o.vword s j)⟩
  match (List.range n).find? fun j => (decodeV (o.vword s j)).isNone with
  | some j => .error (c.fail 0xA j)
  | none => .ok c

/-- Where a branch or a loop's body end leads, in instructions (R109). -/
def VInstr.leads (v : VInstr) (j : Nat) : Option Int :=
  match v.slot.op with
  | .br off => some (j + sgn off 21)
  | .loop _ _ e => some (j + e : Nat)
  | _ => none

/-- Whether a branch or loop is refused (R110). -/
def VInstr.badLead (v : VInstr) (j n : Nat) : Bool :=
  (match v.leads j with
   | some i => decide (i < 0) || decide ((n : Int) ≤ i)
   | none => false)
  || (match v.slot.op with
      | .loop _ _ 0 => true
      | _ => false)

/-- The instructions with their indices. -/
def TCode.ix (c : TCode) : List (Nat × VInstr) := (List.range c.vs.length).zip c.vs

/-- Loop bodies: first and last instruction. -/
def TCode.bodies (c : TCode) : List (Nat × Nat) :=
  c.ix.filterMap fun e => match e.2.slot.op with
    | .loop _ _ n => some (e.1 + 1, e.1 + n)
    | _ => none

/-- Targets of branches. -/
def TCode.targets (c : TCode) : List Nat :=
  c.ix.filterMap fun e => match e.2.slot.op with
    | .br off => some (e.1 + sgn off 21).toNat
    | _ => none

/-- A relocation entry (R122). -/
structure Reloc where
  sect : Nat
  idx  : Nat
  mean : Nat
  form : Nat
  mask : Nat
  sym  : Nat
deriving DecidableEq, Repr

/-- A logical tile's relocation entries. -/
def Obj.relocs (o : Obj) (lt : Nat) : List Reloc :=
  ((o.ofType 8).filter fun s => s.lt == lt).flatMap fun s => (s.every 16).map fun e =>
    ⟨s.idx, o.le e 4, o.le (e + 4) 1 % 16, o.le (e + 4) 1 / 16, o.le (e + 5) 1, o.le (e + 8) 8⟩

/-- Instructions that CODE_ADDR relocations name. -/
def Obj.codeAddrs (o : Obj) (c : TCode) : List Nat :=
  ((o.relocs c.lt).filter fun x => x.mean == 5 && x.mask.testBit c.roast).map fun x => x.sym % 2 ^ 32

/-- Virtual objects that the landing supervisor owns. -/
def Obj.supObjs (o : Obj) : List Nat :=
  (o.syncs.filter fun a => o.le (a + 2) 2 == 65535).map fun a => o.le a 2

/-- The virtual object that an instruction's field stands for: its relocation's, else the field itself. -/
def Obj.objAt (o : Obj) (c : TCode) (j field : Nat) : Nat :=
  match (o.relocs c.lt).find? fun x => x.form == 6 && x.mean == 2 && x.idx == j && x.mask.testBit c.roast with
  | some x => x.sym % 8192
  | none => field

/-- Superstep-group boundaries of a tile's code, in order (R470). -/
def Obj.boundaries (o : Obj) (c : TCode) : List Nat :=
  c.ix.filterMap fun e => match e.2.slot.op with
    | .sowait _ b => if o.supObjs.contains (o.objAt c e.1 b) then some e.1 else none
    | _ => none

/-- What R110 finds wrong with a tile's code before packing. -/
def Obj.codeBad (o : Obj) (c : TCode) : Option LoadRes :=
  if c.vs.length ≤ c.entry then some (c.fail 0xA c.entry)
  else match c.ix.find? fun e => e.2.badLead e.1 c.vs.length with
    | some e => some (c.fail 0xA e.1)
    | none => ((o.boundaries c).find? fun j => c.bodies.any fun b => decide (b.1 ≤ j) && decide (j ≤ b.2)).map
        fun j => c.fail 0xA j

/-! ## Packing (R119) -/

/-- A long word being laid out: its instructions in order. -/
abbrev VWord := List (Nat × VInstr)

/-- What an instruction may have to wait for: a register's result (R86), or a lane that an earlier instruction keeps
busy (R115, R179, R389): 0 the matrix unit's load lane, 1 its stream lane, 2 the sieve. -/
inductive Res where
  | reg (d : Dst)
  | lane (n : Nat)
deriving DecidableEq, Repr

/-- The lane of an instruction and the tc for which its encoding alone keeps it busy (R179, R208, R389): what spills,
masked rows, the epilogue in force and a sieve's operands add or take is not in the code. DEDUCED (log 156). -/
def SlotOp.lane : SlotOp → Option (Nat × Nat)
  | .mldw fmt _ _ => some (0, if fmt = 1 then 16 else if fmt = 2 then 17 else if fmt = 3 then 18 else 21)
  | .mrun .. => some (1, 1)
  | .mblk .. => some (1, 1)
  | .mzero _ n pair => some (1, 1 + (if pair then 2 * (n + 1) else 0))
  | .mout _ _ n fold _ => some (1, (n + 1) * (1 + if fold then 4 else 0))
  | .mspill .. => some (1, 1)
  | .mepi .. => some (1, 1)
  | .mrda .. => some (1, 0)
  | .mlook _ _ n _ => some (1, n + 1)
  | .sv o _ => some (2, match o with
      | .hist0 => 65
      | .hist1 => 65
      | .cut0 => 66
      | .cut1 => 66
      | .cut2 => 1
      | .draw => 9)
  | _ => none

/-- What an instruction waits for. -/
def VInstr.needs (v : VInstr) : List Res :=
  (v.slot.reads ++ v.slot.writes).map .reg ++ (v.slot.op.lane.map fun e => .lane e.1).toList

/-- What an instruction leaves to wait for, and how long after its issue. -/
def VInstr.leaves (v : VInstr) (b0 : Bool) : List (Res × Nat) :=
  v.slot.writes.map (fun d => (.reg d, v.lat b0)) ++ (v.slot.op.lane.map fun e => (.lane e.1, e.2)).toList

/-- The packer: words closed (newest first), the open word, its PAUSE, when each resource is free on the paths that reach
the open word, the earliest issue of the open word without PAUSE. -/
structure Packer where
  done  : List VWord
  cur   : VWord
  pause : Nat
  ready : List (Res × Nat)
  next  : Nat

/-- When a resource is free. -/
def readyAt (l : List (Res × Nat)) (d : Res) : Nat := ((l.find? fun e => e.1 == d).map (·.2)).getD 0

/-- Registers that a word's instructions write. -/
def VWord.writes (w : VWord) : List Dst := w.flatMap fun e => e.2.slot.writes
/-- What a word's instructions wait for. -/
def VWord.needs (w : VWord) : List Res := w.flatMap fun e => e.2.needs
/-- What a word leaves to wait for. -/
def VWord.leaves (w : VWord) (b0 : Bool) : List (Res × Nat) := w.flatMap fun e => e.2.leaves b0
/-- Whether a slot's predicate is always true. -/
def Slot.always (s : Slot) : Bool := s.pred == 0 && !s.neg
/-- Whether control never falls out of a word into the next. -/
def VWord.closed (w : VWord) : Bool := w.any fun e => e.2.slot.always && match e.2.slot.op with
  | .br _ => true
  | .brr _ => true
  | .endp => true
  | _ => false

/-- The greatest of a list. -/
def maxOf (l : List Nat) : Nat := l.foldl max 0

/-- The PAUSE that an instruction needs in the open word. -/
def Packer.need (p : Packer) (v : VInstr) : Nat := maxOf (v.needs.map fun d => readyAt p.ready d - p.next)

/-- The open word is closed (R120: nothing is pending across an EOP). -/
def Packer.close (p : Packer) (b0 : Bool) : Packer :=
  if p.cur.isEmpty then p
  else
    let at' := p.next + p.pause
    let ws := (p.cur.leaves b0).map fun e => (e.1, at' + e.2)
    { done := p.cur :: p.done, cur := [], pause := 0, next := at' + 1,
      ready := if (p.cur.any fun e => e.2.eop) || p.cur.closed then [] else ws ++ p.ready }

/-- What reaches the open word by branches and loop edges joins what reaches it from the word before. -/
def Packer.meet (p : Packer) (l : List (Res × Nat)) : Packer :=
  { p with ready := l.map (fun e => (e.1, max (p.next + e.2) (readyAt p.ready e.1))) ++ p.ready }

/-- Conditions 1 to 7 for joining the open word, which holds something. -/
def joins (starts ends : List Nat) (w : VWord) (i : Nat) (v : VInstr) : Bool :=
  !w.isEmpty && w.all (fun e => e.2.slot.op.cls != v.slot.op.cls)
    && !(v.slot.reads ++ v.slot.writes).any (fun d => w.writes.contains d)
    && !((v.slot.op.isLoad || decide (2 ≤ v.slot.op.cls)) && w.any fun e => e.2.slot.op.stores)
    && !w.any (fun e => e.2.eop || e.2.slot.op.isCtl) && !starts.contains i && !w.any (fun e => ends.contains e.1)
    && (decide (v.slot.op.cls < 2) || v.join)

/-- The packer over the instructions from one on: the words, or the instruction whose JOIN cannot be honoured. reach: what
branches and loop edges leave to wait for at an instruction that opens a word. -/
def pack (b0 : Bool) (starts ends : List Nat) (reach : Nat → List (Res × Nat)) : VWord → Packer → Except Nat (List VWord)
  | [], p => .ok (p.close b0).done.reverse
  | (i, v) :: r, p =>
    let ok := joins starts ends p.cur i v
    if v.join && !ok then .error i
    else if ok && (v.join || decide (p.need v ≤ p.pause)) then
      pack b0 starts ends reach r { p with cur := p.cur ++ [(i, v)], pause := max p.pause (p.need v) }
    else
      let q := (p.close b0).meet (reach i)
      pack b0 starts ends reach r { q with cur := [(i, v)], pause := q.need v }

/-- The word that holds an instruction. -/
def wordOf (ws : List VWord) (i : Nat) : Nat := ((List.range ws.length).find? fun w => (ws.getD w []).any fun e => e.1 == i).getD 0

/-! ## PAUSE over the control-flow graph (R88, R89, R120) -/

/-- Edges out of a word: source, target, bubble. -/
def edgesOf (ws : List VWord) (bub w : Nat) : List (Nat × Nat × Nat) :=
  let fall := if w + 1 < ws.length then [(w, w + 1, 0)] else []
  match (ws.getD w []).find? fun e => e.2.slot.op.isCtl with
  | none => fall
  | some (j, v) =>
    match v.slot.op with
    | .br off => (if v.slot.always then [] else fall) ++ [(w, wordOf ws (j + sgn off 21).toNat, bub)]
    | .loop _ _ n =>
      let e := wordOf ws (j + n)
      fall ++ (if e + 1 < ws.length then [(w, e + 1, bub)] else []) ++ [(e, wordOf ws (j + 1), 0)]
    | _ => if v.slot.always then [] else fall

/-- What may have to be waited for. -/
def allRes : List Res :=
  ((List.range 31).map fun n => .reg (.g (n + 1))) ++ ((List.range 16).map fun n => .reg (.v n))
    ++ ((List.range 7).map fun n => .reg (.p (n + 1))) ++ [.lane 0, .lane 1, .lane 2]

/-- At a CODE_ADDR target: what is left of a result that issued 1 tc before the BRR (R120), by the greatest latency of a
register (R86). -/
def Res.brrLeft (b0 : Bool) : Res → Nat
  | .reg (.v _) => if b0 then 6 - 3 else 8 - 4
  | .reg _ => if b0 then 5 - 3 else 6 - 4
  | .lane _ => 0

/-- Per word: its PAUSE, and what is left to wait for after it issues. -/
abbrev Flow := List (Nat × List (Res × Nat))

/-- What is left of a resource when a word could issue, over some edges into it. -/
def leftAt (fl : Flow) (ins : List (Nat × Nat × Nat)) (d : Res) : Nat :=
  maxOf (ins.map fun e => readyAt (fl.getD e.1 (0, [])).2 d - 1 - e.2.2)

/-- One word's PAUSE and what it leaves, brought up to date; keep: never below the PAUSE it has. -/
def flowWord (b0 keep : Bool) (ws : List VWord) (edges : List (Nat × Nat × Nat)) (brr : List Nat) (fl : Flow) (w : Nat) : Flow :=
  let x := ws.getD w []
  let ins := edges.filter fun e => e.2.1 == w
  let left (d : Res) : Nat := max (leftAt fl ins d) (if brr.contains w then d.brrLeft b0 else 0)
  let p := max (if keep then (fl.getD w (0, [])).1 else 0) (maxOf (x.needs.map left))
  let out := if x.any fun e => e.2.eop then []
    else x.leaves b0 ++ (allRes.filter fun d => decide (p < left d)).map fun d => (d, left d - p)
  fl.set w (p, out)

/-- Sweeps over the words in address order until nothing changes: then each PAUSE is what its word needs with the others
as they are. None where some number of sweeps does not end so. -/
def flowFix (b0 keep : Bool) (ws : List VWord) (edges : List (Nat × Nat × Nat)) (brr : List Nat) : Nat → Flow → Option Flow
  | 0, _ => none
  | n + 1, fl =>
    let f2 := (List.range ws.length).foldl (flowWord b0 keep ws edges brr) fl
    if f2 == fl then some fl else flowFix b0 keep ws edges brr n f2

/-- The PAUSE of each word (R120): the least that its paths allow. Where lowering never settles, a PAUSE once raised
stays. -/
def flowOf (b0 : Bool) (ws : List VWord) (edges : List (Nat × Nat × Nat)) (brr : List Nat) : Flow :=
  let zero : Flow := ws.map fun _ => (0, [])
  let n := 80 * ws.length + 64
  (flowFix b0 false ws edges brr n zero).getD ((flowFix b0 true ws edges brr n zero).getD zero)

/-- Every edge between words. -/
def allEdges (b0 : Bool) (ws : List VWord) : List (Nat × Nat × Nat) :=
  (List.range ws.length).flatMap fun w => edgesOf ws (if b0 then 1 else 2) w

/-- The words that CODE_ADDR values name. -/
def brrWords (ws : List VWord) (brr : List Nat) (n : Nat) : List Nat := (brr.filter fun j => decide (j < n)).map (wordOf ws)

/-- What branches, loop edges and BRR leave to wait for at the first instruction of a word. -/
def reachOf (b0 : Bool) (ws : List VWord) (edges : List (Nat × Nat × Nat)) (brr : List Nat) (fl : Flow) (i : Nat) : List (Res × Nat) :=
  match (List.range ws.length).find? fun w => ((ws.getD w []).head?.map (·.1)) == some i with
  | none => []
  | some w =>
    let ins := edges.filter fun e => e.2.1 == w && !(e.1 + 1 == w && e.2.2 == 0)
    (allRes.map fun d => (d, max (leftAt fl ins d) (if brr.contains w then d.brrLeft b0 else 0))).filter fun e => decide (0 < e.2)

/-- The words of a tile's code (R119): packed, with condition 8 judged on the paths that the words themselves make, until
that changes them no more. DEDUCED (log 77). -/
def packFix (b0 : Bool) (c : TCode) (starts brr : List Nat) : Nat → (Nat → List (Res × Nat)) → Except Nat (List VWord)
  | 0, reach => pack b0 starts (c.bodies.map (·.2)) reach c.ix ⟨[], [], 0, [], 0⟩
  | n + 1, reach => match pack b0 starts (c.bodies.map (·.2)) reach c.ix ⟨[], [], 0, [], 0⟩ with
    | .error j => .error j
    | .ok ws =>
      let edges := allEdges b0 ws
      let bw := brrWords ws brr c.vs.length
      let next := reachOf b0 ws edges bw (flowOf b0 ws edges bw)
      match pack b0 starts (c.bodies.map (·.2)) next c.ix ⟨[], [], 0, [], 0⟩ with
      | .error j => .error j
      | .ok ws2 => if ws2 == ws then .ok ws else packFix b0 c starts brr n next

/-! ## A tile's code laid out -/

/-- A tile's code for a roast: the words, their PAUSE, their offsets in the run with and without the empty words ahead,
the run's length and where it lies. -/
structure TLay where
  code  : TCode
  words : List VWord
  pause : List Nat
  start : List Nat
  own   : List Nat
  size  : Nat
  base  : Nat := 0

/-- Offsets of words from one on. -/
def offsets : Nat → List (VWord × Nat) → List (Nat × Nat)
  | _, [] => []
  | a, (w, p) :: r => (a, a + p / 16 * 2) :: offsets (a + p / 16 * 2 + 2 + 4 * w.length) r

/-- A tile's code packed and padded for a stepping. -/
def Obj.layCode (o : Obj) (b0 : Bool) (c : TCode) : Except LoadRes TLay :=
  match o.codeBad c with
  | some e => .error e
  | none =>
    let brr := o.codeAddrs c
    let starts := c.entry :: c.targets ++ c.bodies.map (·.1) ++ brr
    match packFix b0 c starts brr (c.vs.length + 1) (fun _ => []) with
    | .error j => .error (c.fail 0xA j)
    | .ok ws =>
      let fl := flowOf b0 ws (allEdges b0 ws) (brrWords ws brr c.vs.length)
      let ps := fl.map (·.1)
      let os := offsets 0 (ws.zip ps)
      .ok { code := c, words := ws, pause := ps, start := os.map (·.1), own := os.map (·.2),
            size := match os.getLast?, ws.getLast? with
              | some a, some w => a.2 + 2 + 4 * w.length
              | _, _ => 0 }

/-- A slip declaration: slip, ATTR, BASE, SIZE (R107). -/
structure Decl where
  slip : Nat
  attr : Nat
  base : Nat
  size : Nat
deriving DecidableEq, Repr

/-- A logical tile's slip declarations, by rising base. -/
def Obj.decls (o : Obj) (lt : Nat) : List Decl :=
  (((o.ofType 3).filter fun s => s.lt == lt).flatMap fun s => (s.every 16).map fun e =>
    (⟨o.le e 1, o.le (e + 1) 1, o.le (e + 4) 4, o.le (e + 8) 4⟩ : Decl)).mergeSort fun a b => decide (a.base ≤ b.base)

/-- Runs of execute slips that lie end to end: first and end offset (R79, R125). -/
def execRuns : List Decl → List (Nat × Nat)
  | [] => []
  | d :: r =>
    let rest := execRuns r
    if d.attr % 2 = 0 then rest
    else match rest with
      | (a, b) :: t => if a = d.base + d.size then (d.base, b) :: t else (d.base, d.base + d.size) :: (a, b) :: t
      | [] => [(d.base, d.base + d.size)]

/-- The ways to take some bytes from the start of a run: where, and the runs after. -/
def takeRuns (n : Nat) : List (Nat × Nat) → List (Nat × List (Nat × Nat))
  | [] => []
  | (a, b) :: r => (if a + n ≤ b then [(a, (a + n, b) :: r)] else []) ++ (takeRuns n r).map fun e => (e.1, (a, b) :: e.2)

/-- A tile's roasts laid into its runs, ascending (R125): the first way in which all of them have room. DESIGN CHOICE
among those ways (log 78). -/
def fitRuns : List TLay → List (Nat × Nat) → Option (List TLay)
  | [], _ => some []
  | l :: r, runs => (takeRuns l.size runs).findSome? fun e => (fitRuns r e.2).map fun t => { l with base := e.1 } :: t

/-- The first roast with which those before it have no room together. -/
def noRoom (runs : List (Nat × Nat)) (ls : List TLay) : Nat :=
  ((List.range ls.length).find? fun n => (fitRuns (ls.take (n + 1)) runs).isNone).getD 0

/-- A tile's roasts in its runs, or SLIP_SPACE (R125). -/
def layRuns (runs : List (Nat × Nat)) (ls : List TLay) : Except LoadRes (List TLay) :=
  match fitRuns ls runs with
  | some l => .ok l
  | none => .error { code := 4, roast := ((ls[noRoom runs ls]?).map fun l => l.code.roast).getD 0,
                     loc := ((ls.head?).map fun l => l.code.lt).getD 0 }

/-! ## Placement and allocation -/

/-- What a load knows of where it goes: the partition, its first row, its rows, its GDDR7 base and allocation; physical
tile by logical tile, physical object by virtual one. -/
structure Site where
  part  : Nat
  y0    : Nat
  rows  : Nat
  gbase : Nat
  gsize : Nat
  place : List Nat
  objs  : List (Nat × Nat)

/-- Whether a tile is fenced. -/
def State.tileFenced (s : State) (t : Nat) : Bool := s.tstate t == 4

/-- Physical tiles of a logical row (R123), none where it does not fit. -/
def State.placeRow (s : State) (o : Obj) (y : Nat) : Option (List Nat) :=
  let row := (List.range 64).map fun x => 64 * y + x
  let l := if (o.le 6 2).testBit 0 then row.take o.lw else (row.filter fun t => !s.tileFenced t).take o.lw
  if l.length < o.lw || l.any s.tileFenced then none else some l

/-- Rows placed from one on. -/
def State.placeRows (s : State) (o : Obj) (y0 : Nat) : Nat → Nat → Except LoadRes (List Nat)
  | 0, _ => .ok []
  | n + 1, ly =>
    match s.placeRow o (y0 + ly) with
    | none => .error { code := 3, loc := ly }
    | some l => match s.placeRows o y0 n (ly + 1) with
      | .error e => .error e
      | .ok r => .ok (l ++ r)

/-- The site of a load in a partition, its objects not yet allocated (R123). -/
def State.site (s : State) (o : Obj) (p : Nat) : Except LoadRes Site :=
  let f := s.rd F.PT_PART_A_FIRST 0 p
  let rows := 4 * (s.rd F.PT_PART_A_LAST 0 p + 1 - f)
  if rows < o.lh then .error { code := 3, loc := rows }
  else match s.placeRows o (4 * f) o.lh 0 with
    | .error e => .error e
    | .ok l => .ok ⟨p, 4 * f, rows, s.rd F.PT_MEM_BASE 0 p * 4096, s.rd F.PT_MEM_SIZE 0 p * 4096, l, []⟩

/-- The lowest n physical objects that are not allocated. -/
def State.freeObjs (s : State) (n : Nat) : List Nat :=
  let taken := s.allocObjs
  ((List.range 8192).filter fun i => !taken.contains i).take n

/-- Physical objects for the virtual ones (R125). -/
def State.allocSync (s : State) (o : Obj) : Except LoadRes (List (Nat × Nat)) :=
  let l := s.freeObjs o.nsync
  if l.length < o.nsync then .error { code := 5 } else .ok ((List.range o.nsync).zip l)

/-- End of what slips and DATA may use: the switch slot begins there (R458). -/
def slotBase : Nat := 0x5F000

/-- A tile's DATA records: scratchpad offset and the payload's place in the object. -/
def Obj.dataRecs (o : Obj) (lt : Nat) : List (Nat × Nat × Nat) :=
  ((o.ofType 2).filter fun s => s.lt == lt).flatMap fun s => ((o.recsOf s).getD []).map fun a => (o.le a 4, a + 8, o.le (a + 4) 4)

/-- Whether some declarations overlap or reach too far (R125). -/
def declsBad : List Decl → Bool
  | [] => false
  | d :: r => decide (slotBase < d.base + d.size) || (r.any fun e => decide (d.base < e.base + e.size) && decide (e.base < d.base + d.size))
      || declsBad r

/-- SLIP_SPACE of a tile's declarations or DATA records (R125, R458). -/
def Obj.slipSpace (o : Obj) (lt : Nat) : Option LoadRes :=
  if declsBad (o.decls lt) then
    some { code := 4, sect := (((o.ofType 3).find? fun s => s.lt == lt).map Sec.idx).getD 65535, loc := lt }
  else if (o.dataRecs lt).any fun e => decide (slotBase < e.1 + e.2.2) then
    some { code := 4, sect := (((o.ofType 2).find? fun s => s.lt == lt && ((o.recsOf s).getD []).any
      fun a => decide (slotBase < o.le a 4 + o.le (a + 4) 4)).map Sec.idx).getD 65535, loc := lt }
  else none

/-! ## What makes a transfer set unroutable whatever the timetable -/

/-- A crossing record: section, roasts, offset. -/
def Obj.xrecs (o : Obj) : List (Sec × Nat) := (o.ofType 4).flatMap fun s => ((o.recsOf s).getD []).map fun a => (s, a)

/-- The slip a tile declares under a number. -/
def Obj.declOf (o : Obj) (lt n : Nat) : Option Decl := (o.decls lt).find? fun d => d.slip == n

/-- Whether a logical tile is in a record's PARTS. -/
def Obj.inParts (o : Obj) (a lt : Nat) : Bool := (o (a + 0x20 + lt / 8)).toNat.testBit (lt % 8)

/-- A stream template's offset by its number (R316). -/
def Obj.tplAt (o : Obj) (n : Nat) : Option Nat := ((o.ofType 5).flatMap fun s => s.every 32)[n]?

/-- Bytes of the entries of a record that share a source or a destination slip. -/
def Obj.shareBytes (o : Obj) (a e : Nat) (dst : Bool) : Nat :=
  let key (x : Nat) : Nat × Nat := if dst then (o.le (x + 2) 2, o.le (x + 5) 1) else (o.le x 2, o.le (x + 4) 1)
  ((o.entries a).filter fun x => key x == key e).foldl (fun n x => n + o.le (x + 8) 4) 0

/-- Bytes of a record's entries that an engine delivers, or that it takes (R397). -/
def Obj.engBytes (o : Obj) (a u : Nat) (dst : Bool) : Nat :=
  ((o.entries a).filter fun x => o.le (if dst then x + 2 else x) 2 == u).foldl (fun n x => n + o.le (x + 8) 4) 0

/-- Whether a transfer's endpoint cannot stand (R256): of a grid channel, one whose KIND is not of its use (R396), or an
engine with more than 1 MiB in one direction (R397). DEDUCED (log 162): KIND is what CF_CHAN_A holds at the load. -/
def State.endBad (s : State) (o : Obj) (p a e : Nat) (dst : Bool) : Bool :=
  let u := if dst then o.le (e + 2) 2 else o.le e 2
  let n := if dst then o.le (e + 5) 1 else o.le (e + 4) 1
  if u < 0xC00 then
    decide (o.ntiles ≤ u) || !o.inParts a u || (match o.declOf u n with
      | none => true
      | some d => (dst && d.attr / 2 != 1) || decide (d.size < o.shareBytes a e dst))
  else if u < 0xF100 then
    dst || !s.ownsQuay p (u - 0xF000) || (match o.tplAt n with
      | none => true
      | some t => o.le (t + 2) 2 != u)
  else
    let k := s.rd F.CF_CHAN_A_KIND (u - 0xF100) n
    decide (16 ≤ n) || !(if dst then k == 1 || k == 2 else k == 3) || decide (2 ^ 20 < o.engBytes a u dst)

/-- The records of a roast whose crossings tiles take part in: their logical tiles, whether START is set, the virtual
crossing that NEXT names where it is valid, the section (R253, R262, R291). -/
def Obj.partRecs (o : Obj) (r : Nat) : List (List Nat × Bool × Option Nat × Sec) :=
  ((o.xrecs.filter fun e => e.1.rmask.testBit r).map fun e =>
    ((List.range o.ntiles).filter (o.inParts e.2), (o.le (e.2 + 2) 1).testBit 0,
     if (o.le (e.2 + 2) 1).testBit 1 then some (o.le (e.2 + 1) 1) else none, e.1))
  ++ (o.ofType 7).flatMap fun x => ((o.recsOf x).getD []).flatMap fun a =>
    let req := (List.range (o.le (a + 0xE) 2)).map fun i => o.le (a + 40 + 2 * i) 2
    let fl := o.le (a + 2) 1
    [(req, fl.testBit 1, if fl.testBit 2 then some (o.le (a + 6) 1) else none, x)]
      ++ if fl.testBit 0 then [(req, false, if fl.testBit 3 then some (o.le (a + 7) 1) else none, x)] else []

/-- The first participant of a roast that is in two records with START set, or in none (R256). -/
def Obj.startBad (o : Obj) (r : Nat) : Option Nat :=
  let l := o.partRecs r
  (List.range o.ntiles).find? fun lt => (l.any fun e => e.1.contains lt) && (l.filter fun e => e.2.1 && e.1.contains lt).length != 1

/-- NO_ROUTE of the records of a roast (R256). -/
def State.xferRefuses (s : State) (o : Obj) (p r : Nat) : Option LoadRes :=
  let l := o.xrecs.filter fun e => e.1.rmask.testBit r
  let nums := l.map (fun e => o.le e.2 1)
    ++ ((o.ofType 7).flatMap fun x => ((o.recsOf x).getD []).flatMap fun a =>
        [o.le (a + 4) 1] ++ if (o.le (a + 2) 1).testBit 0 then [o.le (a + 5) 1] else [])
  let head (e : Sec × Nat) : LoadRes := { code := 7, roast := r, sect := e.1.idx, loc := 0 }
  if hasTwice nums then some { code := 7, roast := r }
  else match (o.partRecs r).find? fun e => e.2.2.1.any fun v => !nums.contains v with
    | some e => some { code := 7, roast := r, sect := e.2.2.2.idx, loc := 0 }
    | none => match o.startBad r with
    | some lt => some { code := 7, roast := r, loc := lt }
    | none => match l.find? fun e => (List.range 24).any fun q => (o.le (e.2 + 8) 4).testBit q && !s.ownsQuay p q with
      | some e => some (head e)
      | none => l.findSome? fun e =>
          let es := o.entries e.2
          ((List.range es.length).find? fun i => s.endBad o p e.2 (es.getD i 0) false || s.endBad o p e.2 (es.getD i 0) true).map
            fun i => { code := 7, roast := r, sect := e.1.idx,
                       loc := let u := o.le (es.getD i 0) 2
                              if u < 0xC00 then u else 0,
                       vidx := i }

/-- Whether, in some roast, the entries of two crossings take from a template, or entries that do not carry its BYTES
(R317). A roast in which no entry takes from it is none of these. -/
def Obj.tplShared (o : Obj) (n t : Nat) : Bool :=
  o.roastList.any fun r =>
    let uses := (o.xrecs.filter fun e => e.1.rmask.testBit r).filterMap fun e =>
      let b := ((o.entries e.2).filter fun x => o.le x 2 == o.le (t + 2) 2 && o.le (x + 4) 1 == n).map fun x => o.le (x + 8) 4
      if b.isEmpty then none else some b.sum
    decide (1 < uses.length) || uses.any fun b => b != o.le (t + 8) 4

/-- The templates with their numbers and sections (R316). -/
def Obj.tplList (o : Obj) : List (Nat × Sec × Nat) :=
  let l := (o.ofType 5).flatMap fun sec => (sec.every 32).map fun t => (sec, t)
  (List.range l.length).zip l

/-- NO_ROUTE or MEM_SPACE of the templates (R317). -/
def State.tplRefuses (s : State) (o : Obj) (x : Site) : Option LoadRes :=
  o.tplList.findSome? fun (n, sec, t) =>
    let q := o.le (t + 2) 2 - 0xF000
    let row := o.le (t + 0xC) 4
    let base := o.le (t + 0x10) 8
    let stride := o.le (t + 0x18) 8
    let stat := (o.le (t + 4) 1).testBit 0
    if stat && decide (x.gsize ≤ base) then some { code := 6, sect := sec.idx }
    else if o.tplShared n t || !s.ownsQuay x.part q || (stat && (List.range (o.le (t + 8) 4 / max 1 row)).any fun i =>
      let a := x.gbase + base + i * stride
      decide (a / 4096 ≠ (a + row - 1) / 4096) || (s.gmap a).map (·.1) != some q) then some { code := 7, sect := sec.idx }
    else none

/-- NO_ROUTE of the manifests (R292): an endpoint that does not exist, areas that pass the scratchpad's end or touch an
execute slip. -/
def State.mfRefuses (s : State) (o : Obj) (p : Nat) : Option LoadRes :=
  (o.ofType 7).findSome? fun sec => ((o.recsOf sec).getD []).findSome? fun a =>
    let nq := o.le (a + 0xE) 2
    let req := (List.range nq).map fun i => o.le (a + 40 + 2 * i) 2
    let dst := (List.range (o.le (a + 0x10) 2)).map fun i => o.le (a + 40 + 2 * nq + 2 * i) 2
    let tile := o.le (a + 1) 1 == 0
    let area (off n : Nat) : Bool := off % 64 != 0 || decide (0x60000 < off + n) || dst.any fun lt =>
      (o.decls lt).any fun d => d.attr % 2 == 1 && decide (off < d.base + d.size) && decide (d.base < off + n)
    let per := o.le (a + 0x14) 4
    let rev := (o.le (a + 2) 1).testBit 0
    if req.any (fun t => decide (o.ntiles ≤ t)) || hasTwice req || hasTwice dst
        || (if tile then dst.any fun t => decide (o.ntiles ≤ t) else dst.any fun d => d < 0xF000 || d ≥ 0xF018 || !s.ownsQuay p (d - 0xF000))
        || (tile && (area (o.le (a + 0x1C) 4) (per * o.le (a + 0xA) 2)
            || (rev && area (o.le (a + 0x20) 4) (per * o.le (a + 0xC) 2))))
    then some { code := 7, sect := sec.idx } else none

/-! ## Relocation (R122) -/

/-- The value of a relocation for a tile's code, or its refusal. -/
def relocVal (x : Site) (l : TLay) (e : Reloc) : Except Nat Nat :=
  match e.mean with
  | 1 => match x.place[e.sym % 4096]? with
    | some t => .ok t
    | none => .error 9
  | 2 => match find2 x.objs (e.sym % 8192) with
    | some p => .ok p
    | none => .error 9
  | 3 => if x.gsize ≤ e.sym then .error 6 else .ok (x.gbase + e.sym)
  | 4 => match x.place[e.sym % 4096]? with
    | some t => .ok (spad t (bits e.sym 20 20))
    | none => .error 9
  | _ =>
    let j := e.sym % 2 ^ 32
    if j < l.code.vs.length then .ok (l.base + l.start.getD (wordOf l.words j) 0) else .error 9

/-- Whether an operation has IMM11: the S immediate layout (R82, R111). -/
def SlotOp.hasImm : SlotOp → Bool
  | .imm .. => true
  | .shi .. => true
  | .cmpi .. => true
  | .mem .. => true
  | _ => false

/-- Whether the instruction at an index passes a test. -/
def TCode.opAt (c : TCode) (j : Nat) (p : SlotOp → Bool) : Bool :=
  match c.vs[j]? with
  | some v => p v.slot.op
  | none => false

/-- Bits of a slot replaced. -/
def putField (raw lo w v : Nat) : Nat := raw - bits raw lo w * 2 ^ lo + v % 2 ^ w * 2 ^ lo

/-- A relocation written into a tile's slots or its concatenated DATA payload; none where the value or the form does not
fit. -/
def TCode.patch (c : TCode) (raws : List Nat) (cat : List Byte) (form j v : Nat) : Option (List Nat × List Byte) :=
  let put (l : List Nat) (i lo w x : Nat) : List Nat := l.set i (putField (l.getD i 0) lo w x)
  let addi (o : SlotOp) : Bool := match o with
    | .imm .addi .. => true
    | _ => false
  let cati (o : SlotOp) : Bool := match o with
    | .imm .cati .. => true
    | _ => false
  match form with
  | 1 => if c.opAt j SlotOp.hasImm ∧ v < 2 ^ 10 then some (put raws j 0 11 v, cat) else none
  | 2 => if c.opAt j addi ∧ c.opAt (j + 1) cati ∧ v < 2 ^ 21 then some (put (put raws j 0 11 (v / 2 ^ 11)) (j + 1) 0 11 v, cat)
         else none
  | 3 => if c.opAt j addi ∧ c.opAt (j + 1) cati ∧ c.opAt (j + 2) cati ∧ v < 2 ^ 32 then
           some (put (put (put raws j 0 11 (v / 2 ^ 22)) (j + 1) 0 11 (v / 2 ^ 11)) (j + 2) 0 11 v, cat)
         else none
  | 6 => if c.opAt j (fun o => match o with
             | .soadd .. => true
             | .sowait .. => true
             | .soset .. => true
             | _ => false) ∧ v < 2 ^ 13 then some (put raws j 0 13 v, cat) else none
  | f =>
    let n := if f = 4 then 4 else 8
    if j + n ≤ cat.length ∧ v < 256 ^ n then some (raws, cat.take j ++ leBytes v n ++ cat.drop (j + n)) else none

/-- A tile's relocations for one roast carried out in order. -/
def Obj.relocate (o : Obj) (x : Site) (l : TLay) : List Reloc → List Nat → List Byte → Except LoadRes (List Nat × List Byte)
  | [], raws, cat => .ok (raws, cat)
  | e :: r, raws, cat =>
    if !e.mask.testBit l.code.roast then o.relocate x l r raws cat
    else
      let bad (code : Nat) : LoadRes :=
        { code := code, roast := l.code.roast, sect := e.sect, loc := l.code.lt,
          vidx := if e.form = 4 ∨ e.form = 5 then 0xFFFF_FFFF else e.idx }
      match relocVal x l e with
      | .error k => .error (bad k)
      | .ok v => match l.code.patch raws cat e.form e.idx v with
        | none => .error (bad 9)
        | some (raws, cat) => o.relocate x l r raws cat

/-! ## Native bytes -/

/-- A word's slots with branch and loop distances converted (R121), by class; or the instruction that does not fit. -/
def TLay.slots (l : TLay) (raws : List Nat) (w : Nat) : VWord → Except Nat (List (Nat × Nat))
  | [] => .ok []
  | (j, v) :: r =>
    let raw := raws.getD j 0
    let own := (l.own.getD w 0 : Int)
    let here : Option Nat := match v.slot.op with
      | .br off =>
        let d := ((l.start.getD (wordOf l.words (j + sgn off 21).toNat) 0 : Int) - own) / 2
        if -(2 ^ 20) ≤ d ∧ d < 2 ^ 20 then some (putField raw 0 21 (wrap d 21)) else none
      | .loop _ _ n =>
        let d := (l.own.getD (wordOf l.words (j + n)) 0 - l.own.getD w 0) / 2
        if d < 2 ^ 15 then some (putField raw 0 15 d) else none
      | _ => some raw
    match here, l.slots raws w r with
    | none, _ => .error j
    | _, .error e => .error e
    | some x, .ok t => .ok ((v.slot.op.cls, x) :: t)

/-- A word's bytes: the empty words ahead of it, its header (R77), its slots in order S, V, M, X. -/
def TLay.wordBytes (l : TLay) (w : Nat) (sl : List (Nat × Nat)) : List Byte :=
  let x := l.words.getD w []
  let p := l.pause.getD w 0
  let head := (sl.map fun e => 2 ^ e.1).foldl (· + ·) 0 + p % 16 * 16 + b2n (x.any fun e => e.2.eop) * 2 ^ 8
    + b2n (x.any fun e => e.2.brk) * 2 ^ 9
  (List.range (p / 16)).flatMap (fun _ => leBytes 0x00F0 2) ++ leBytes head 2
    ++ (List.range 4).flatMap fun k => match find2 sl k with
      | some v => leBytes v 4
      | none => []

/-- A run's bytes from one word on. -/
def TLay.native (l : TLay) (raws : List Nat) : List Nat → Except LoadRes (List Byte)
  | [] => .ok []
  | w :: r =>
    match l.slots raws w (l.words.getD w []) with
    | .error j => .error (l.code.fail 9 j)
    | .ok sl => match l.native raws r with
      | .error e => .error e
      | .ok t => .ok (l.wordBytes w sl ++ t)

/-! ## A whole translation -/

/-- A translated logical tile: physical tile, code runs (roast, offset, bytes), DATA (offset, bytes), slips, T_ENTRY per
roast, resume addresses (roast, boundary, address). -/
structure TTile where
  tile    : Nat
  runs    : List (Nat × Nat × List Byte)
  data    : List (Nat × List Byte)
  decls   : List Decl
  entries : List (Nat × Nat)
  resumes : List (Nat × Nat × Nat)

/-- Every element of a list mapped, or the first refusal. -/
def eachOk {α β : Type} (f : α → Except LoadRes β) : List α → Except LoadRes (List β)
  | [] => .ok []
  | a :: r => match f a with
    | .error e => .error e
    | .ok b => match eachOk f r with
      | .error e => .error e
      | .ok t => .ok (b :: t)

/-- A tile's code of every roast packed and padded. -/
def Obj.layTile (o : Obj) (b0 : Bool) (lt : Nat) : Except LoadRes (List TLay) :=
  eachOk (fun r => match o.code lt r with
    | none => .error badObj
    | some sec => match o.readCode sec r with
      | .error e => .error e
      | .ok c => o.layCode b0 c) o.roastList

/-- A tile's code of every roast relocated: native bytes per roast, and the DATA payload. -/
def Obj.emitTile (o : Obj) (x : Site) (lt : Nat) : List TLay → List Byte → Except LoadRes (List (Nat × Nat × List Byte) × List Byte)
  | [], cat => .ok ([], cat)
  | l :: r, cat =>
    match o.relocate x l (o.relocs lt) (l.code.vs.map VInstr.raw) cat with
    | .error e => .error e
    | .ok (raws, cat) => match l.native raws (List.range l.words.length) with
      | .error e => .error e
      | .ok b => match o.emitTile x lt r cat with
        | .error e => .error e
        | .ok (t, cat) => .ok ((l.code.roast, l.base, b) :: t, cat)

/-- A payload cut again into its records. -/
def cutData : List (Nat × Nat × Nat) → List Byte → List (Nat × List Byte)
  | [], _ => []
  | e :: r, cat => (e.1, cat.take e.2.2) :: cutData r (cat.drop e.2.2)

/-- The native address of the word after the one that holds an instruction. -/
def TLay.after (l : TLay) (j : Nat) : Nat :=
  let w := wordOf l.words j + 1
  l.base + l.start.getD w l.size

/-- A logical tile translated. -/
def Obj.tileOf (o : Obj) (x : Site) (lt : Nat) (laid : List TLay) : Except LoadRes TTile :=
  let recs := o.dataRecs lt
  match o.emitTile x lt laid (recs.flatMap fun e => o.take e.2.1 e.2.2) with
  | .error e => .error e
  | .ok (runs, cat) => .ok
      { tile := x.place.getD lt 0, runs := runs, data := cutData recs cat, decls := o.decls lt,
        entries := laid.map fun l => (l.code.roast, l.base + l.start.getD (wordOf l.words l.code.entry) 0),
        resumes := laid.flatMap fun l =>
          let bs := o.boundaries l.code
          (List.range bs.length).map fun k => (l.code.roast, k, l.after (bs.getD k 0)) }

end Sys2Proof.Machine
end

