-- ==== Sys2Proof/Machine/Routes.lean ====
section
/-! DEFINITION. Timetables (R126, R127, R252–R262, R269, R292, R316–R325): the crossings of an object, what the rules
decide of their tables, and what a layout must obey for the translator to use it. -/

namespace Sys2Proof

/-- The physical number of a virtual crossing of a roast. -/
def Layout.phys (l : Layout) (r v : Nat) : Option Nat :=
  ((l.nums.find? fun e => e.2.1 == v && (e.1 == r || e.1 == 4)).or (l.nums.find? fun e => e.2.1 == v && r == 4)).map fun e => e.2.2

/-- The routers of a crossing. -/
def Layout.routers (l : Layout) (c : Nat) : List Nat := (l.firsts.filter fun e => e.2.1 == c).map (·.1)

/-- The uses of an edge port by transfer: the k-th take is the k-th of the port's slots. -/
def Layout.slotAt (l : Layout) (t c port k : Nat) : Option XferSlot :=
  ((l.slots.find? fun e => e.1 == (t * 256 + c) * 32 + port).map (·.2)).bind fun x => x[k]?

/-- Cycles of [a, b) outside the windows of a quay in a crossing (R325). -/
def Layout.outside (l : Layout) (q c a b : Nat) : Nat :=
  match l.windows.find? fun e => e.1 == q && e.2.1 == c with
  | none => b - a
  | some (_, _, first, per) => ((List.range (b - a)).filter fun i =>
      let n := a + i
      !(decide (first ≤ n) && decide ((if per = 0 then n - first else (n - first) % per) ≤ 191))).length

/-- The place of a slot among the uses of a port, with the cycle of that use. -/
def Layout.useAt (l : Layout) (t c port : Nat) (z : XferSlot) (cycles : List Nat) : Option Nat :=
  (((l.slots.find? fun e => e.1 == (t * 256 + c) * 32 + port).map (·.2)).bind fun zs => zs.idxOf? z).bind fun k => cycles[k]?

end Sys2Proof

namespace Sys2Proof.Machine

/-! ## The crossings of an object -/

/-- A crossing to be built: roast (4: every one), virtual and physical number, barrier, its LOCAL tiles, the physical
crossing that follows, arrivals expected, START, QMASK and FMASK; the XFER record, or the manifest record and whether
this is its reverse crossing. -/
structure Xing where
  roast  : Nat
  virt   : Nat
  phys   : Nat
  bar    : Nat
  tiles  : List Nat
  next   : Option Nat
  expect : Nat
  start  : Bool
  masks  : Nat × Nat
  xfer   : Option Nat
  man    : Option (Nat × Bool)

/-- How many bits of a mask are set. -/
def popcount (n m : Nat) : Nat := ((List.range n).filter fun k => m.testBit k).length

/-- Logical tiles of a record's PARTS. -/
def Obj.parts (o : Obj) (a : Nat) : List Nat := (List.range o.ntiles).filter fun lt => o.inParts a lt

/-- Manifest records. -/
def Obj.mrecs (o : Obj) : List (Sec × Nat) := (o.ofType 7).flatMap fun s => ((o.recsOf s).getD []).map fun a => (s, a)
/-- Requesting logical tiles of a manifest. -/
def Obj.mReq (o : Obj) (a : Nat) : List Nat := (List.range (o.le (a + 0xE) 2)).map fun i => o.le (a + 40 + 2 * i) 2
/-- Destinations of a manifest. -/
def Obj.mDst (o : Obj) (a : Nat) : List Nat :=
  (List.range (o.le (a + 0x10) 2)).map fun i => o.le (a + 40 + 2 * o.le (a + 0xE) 2 + 2 * i) 2
/-- Whether a manifest is of QUAY kind. -/
def Obj.mQuay (o : Obj) (a : Nat) : Bool := o.le (a + 1) 1 == 1
/-- REV. -/
def Obj.mRev (o : Obj) (a : Nat) : Bool := (o.le (a + 2) 1).testBit 0
/-- SB (R292). -/
def Obj.mSB (o : Obj) (a : Nat) : Nat := (o.le (a + 8) 2 * 4 + 63) / 64 * 64

/-- The crossing of an XFER record for a roast (R253, R262, R269). -/
def Obj.xferXing (o : Obj) (x : Site) (l : Layout) (r a : Nat) : Option Xing :=
  let f := o.le (a + 2) 1
  let ts := (o.parts a).map fun lt => x.place.getD lt 0
  let m := (o.le (a + 8) 4 % 2 ^ 24, o.le (a + 0xC) 2)
  match l.phys r (o.le a 1) with
  | none => none
  | some c => (find2 l.bars c).map fun b =>
    { roast := r, virt := o.le a 1, phys := c, bar := b, tiles := ts,
      next := if f.testBit 1 then l.phys r (o.le (a + 1) 1) else none,
      expect := ts.length + popcount 24 m.1 + popcount 12 m.2 + o.le (a + 0xE) 1,
      start := f.testBit 0, masks := m, xfer := some a, man := none }

/-- A crossing of a manifest record (R291, R292). -/
def Obj.manXing (o : Obj) (x : Site) (l : Layout) (a : Nat) (rev : Bool) : Option Xing :=
  let f := o.le (a + 2) 1
  let ts := (o.mReq a).map fun lt => x.place.getD lt 0
  let q := if o.mQuay a then ((o.mDst a).map fun d => 2 ^ (d - 0xF000)).sum else 0
  let v := o.le (a + (if rev then 5 else 4)) 1
  match l.phys 4 v with
  | none => none
  | some c => (find2 l.bars c).map fun b =>
    { roast := 4, virt := v, phys := c, bar := b, tiles := ts,
      next := if f.testBit (if rev then 3 else 2) then l.phys 4 (o.le (a + (if rev then 7 else 6)) 1) else none,
      expect := 2 * ts.length + popcount 24 q, start := f.testBit 1 && !rev, masks := (q, 0), xfer := none, man := some (a, rev) }

/-- Every crossing of an object, none where the layout leaves one without a number or a barrier. -/
def Obj.xings (o : Obj) (x : Site) (l : Layout) : List (Option Xing) :=
  (o.roastList.flatMap fun r => (o.xrecs.filter fun e => e.1.rmask.testBit r).map fun e => o.xferXing x l r e.2)
    ++ o.mrecs.flatMap fun e => [o.manXing x l e.2 false] ++ if o.mRev e.2 then [o.manXing x l e.2 true] else []

/-! ## Register writes of the supervisor -/

/-- The unit and offset of a device address that lies in a register block (R70, R337, R361, R362, R426, R448). -/
def blkOf (a : Nat) : Option (Blk × Nat × Nat) :=
  let d := a - 0x3800_0000_0000
  if 0x2000_0000_0000 ≤ a ∧ a < 0x2000_C000_0000 then some (.tile, (a - 0x2000_0000_0000) / 0x10_0000, a % 0x10_0000)
  else if 0x3000_0000_0000 ≤ a ∧ a < 0x3000_0100_0000 then some (.core, (a - 0x3000_0000_0000) / 0x10_0000, a % 0x10_0000)
  else if 0x3000_0100_0000 ≤ a ∧ a < 0x3000_0200_0000 then some (.cluster, 0, a - 0x3000_0100_0000)
  else if 0x3800_0000_0000 ≤ a ∧ a < 0x3F00_0000_0000 then
    (if 0x20_0000 ≤ d ∧ d < 0x38_0000 then some (.quay, (d - 0x20_0000) / 0x1_0000, d % 0x1_0000)
     else if 0x60_0000 ≤ d ∧ d < 0x6C_0000 then some (.eng, (d - 0x60_0000) / 0x1_0000, d % 0x1_0000)
     else if 0x70_0000 ≤ d ∧ d < 0x7C_0000 then some (.port, (d - 0x70_0000) / 0x1_0000, d % 0x1_0000)
     else some (.dev, 0, d))
  else none

/-- Eight bytes written to a register block by the landing supervisor. -/
def State.poke (s : State) (a v : Nat) : State :=
  match blkOf a with
  | some (b, u, o) => s.write8 b u o v
  | none => s

/-! ## Reading a layout as routers would -/

/-- A state whose routers hold a layout's timetables. -/
def State.withTables (s : State) (l : Layout) : State :=
  let s := l.entries.foldl (fun s e => s.poke (spad e.1 (0x8_8000 + 8 * e.2.1)) e.2.2) s
  l.firsts.foldl (fun s e => (s.wr F.DIR_FIRST e.2.2 e.1 e.2.1).wr F.DIR_VALID 1 e.1 e.2.1) s

/-- The input that feeds output o of a router in a crossing cycle, 0 for none (R259, R260). -/
def State.conn (s : State) (t c cycle o : Nat) : Nat :=
  if s.rd F.DIR_VALID t c = 0 then 0
  else match s.entryAt t cycle 4096 (s.rd F.DIR_FIRST t c) 0 with
    | some (e, b) => if s.paceOn t e b cycle then s.sel t e o else 0
    | none => 0

/-- The cycles that a router's timetable of a crossing lasts (R260): none where it has no last entry. -/
def State.ttEnd (s : State) (t : Nat) : Nat → Nat → Nat → Option Nat
  | 0, _, _ => none
  | n + 1, e, b =>
    let next := b + s.rd F.TT_DUR t e + 1
    if s.rd F.TT_LAST t e = 1 then some next else s.ttEnd t n ((e + 1) % 4096) next

/-- The cycles of a router in a crossing. -/
def State.ttLen (s : State) (t c : Nat) : Nat := (s.ttEnd t 4096 (s.rd F.DIR_FIRST t c) 0).getD 0

/-- The slip that an entry of a crossing cycle names, ISLIP or ESLIP. -/
def State.slipIn (s : State) (t c cycle : Nat) (f : Fld) : Nat :=
  match s.entryAt t cycle 4096 (s.rd F.DIR_FIRST t c) 0 with
  | some (e, _) => s.rd f t e
  | none => 0

/-- The cycles in which a router takes a flit from input p. -/
def State.sends (s : State) (t c p : Nat) : List Nat :=
  (List.range (s.ttLen t c)).filter fun i => (List.range 9).any fun o => s.conn t c i (o + 1) == p
/-- The cycles in which a router takes a flit onto output o. -/
def State.takesOnto (s : State) (t c o : Nat) : List Nat := (List.range (s.ttLen t c)).filter fun i => s.conn t c i o != 0

/-- RELEASE (R261): the later of one cycle after the last take from L and the cycle in which the last take onto L is
visible. A manifest crossing releases at cycle 0 (R292). -/
def State.releaseOf (s : State) (x : Xing) (t : Nat) : Nat :=
  if x.man.isSome then 0
  else max (((s.sends t x.phys 9).getLast?.map (· + 1)).getD 0) (((s.takesOnto t x.phys 9).getLast?.map (· + s.ejectTc)).getD 0)

/-! ## Routes -/

/-- The outputs that a transfer takes in one dimension from place a to place b (R252): up and down are the codes of the
neighbour and express outputs. FAR takes an express link wherever one starts and does not pass the destination. -/
def legMoves (far : Bool) (up dn xup xdn : Nat) : Nat → Nat → Nat → List Nat
  | 0, _, _ => []
  | n + 1, a, b =>
    if a < b then
      (if far && a % 8 == 0 && decide (8 ≤ b - a) then xup :: legMoves far up dn xup xdn n (a + 8) b
       else up :: legMoves far up dn xup xdn n (a + 1) b)
    else if b < a then
      (if far && a % 8 == 0 && decide (8 ≤ a - b) then xdn :: legMoves far up dn xup xdn n (a - 8) b
       else dn :: legMoves far up dn xup xdn n (a - 1) b)
    else []

/-- Whether a leg of a route class goes FAR: AUTO where it spans more than 8 tiles (R252). -/
def legFar (cls a b : Nat) : Bool := cls == 2 || (cls == 0 && decide (8 < max a b - min a b))

/-- The outputs of a route from router a to router b (R252): first along x, then along y. -/
def routeMoves (cls a b : Nat) : List Nat :=
  legMoves (legFar cls (tileX a) (tileX b)) 3 4 7 8 64 (tileX a) (tileX b)
    ++ legMoves (legFar cls (tileY a) (tileY b)) 1 2 5 6 48 (tileY a) (tileY b)

/-- The output in the opposite direction. -/
def oppMove (o : Nat) : Nat := if o % 2 = 1 then o + 1 else o - 1

/-- The route of a gradient (R292): the links of the transfer from b to a in the opposite direction. -/
def backMoves (cls a b : Nat) : List Nat := (routeMoves cls b a).reverse.map oppMove

/-- A flit followed through the timetables (R250, R251, R260): from an input of a router at which it is present in a
cycle, over the outputs of its route, to the last one; the connections it uses, none where one is not there. -/
def State.follow (s : State) (c last : Nat) : List Nat → Nat → Nat → Nat → Option (List (Nat × Nat × Nat))
  | [], t, p, cycle =>
    let n := cycle + if straight t p last then 0 else s.turnTc
    if s.conn t c n last = p then some [(t, n, last)] else none
  | o :: r, t, p, cycle =>
    let n := cycle + if straight t p o then 0 else s.turnTc
    match hop t o with
    | none => none
    | some (u, q) => if s.conn t c n o = p then (s.follow c last r u q (n + s.hopTc o)).map fun l => (t, n, o) :: l else none

/-- A flit that a crossing must carry: where it enters (router, input, cycle), where it may leave (router, output), the
routes it may take, and whether its last connection is right. -/
structure Carry where
  src  : Nat × Nat × Nat
  dsts : List (Nat × Nat)
  way  : Nat → Nat → List (List Nat)
  good : Nat → Nat → Nat → Bool

/-- The connections of a flit, none where the layout does not carry it. -/
def State.carries (s : State) (c : Nat) (f : Carry) : Option (List (Nat × Nat × Nat)) :=
  f.dsts.findSome? fun d => (f.way f.src.1 d.1).findSome? fun w =>
    match s.follow c d.2 w f.src.1 f.src.2.1 f.src.2.2 with
    | none => none
    | some l => if (l.getLast?.map fun e => f.good e.1 e.2.2 e.2.1).getD false then some l else none

/-! ## The flits of an XFER crossing -/

/-- Where and when the flits of a source enter (R255): a tile's slip by its reads in order, a quay's template or an
engine's channel by the takes that its slots give it, earliest first. -/
def State.sourceOf (s : State) (x : Site) (l : Layout) (c src slip : Nat) : List (Nat × Nat × Nat) :=
  if src < 0xC00 then
    let t := x.place.getD src 0
    ((s.sends t c 9).filter fun i => s.slipIn t c i F.TT_ISLIP == slip).map fun i => (t, 9, i)
  else
    let u := if src < 0xF100 then src - 0xF000 else 24 + (src - 0xF100)
    let all := (edgePorts u).flatMap fun e =>
      let is := s.sends e.1 c e.2
      (List.range is.length).filterMap fun k => match l.slotAt e.1 c e.2 k with
        | some z => if z.kind = 0 ∧ z.peer = slip then some (e.1, e.2, is.getD k 0) else none
        | none => none
    all.mergeSort fun a b => decide (a.2.2 ≤ b.2.2)

/-- The transfers of a record that share an entry's source slip and come before it: bytes in flits. -/
def Obj.before (o : Obj) (es : List Nat) (i : Nat) : Nat :=
  let e := es.getD i 0
  (((es.take i).filter fun d => o.le d 2 == o.le e 2 && o.le (d + 4) 1 == o.le (e + 4) 1).map fun d => o.le (d + 8) 4 / 64).sum

/-- The flits of an XFER record, in entry order; none where the layout sends too few. -/
def State.xferFlows (s : State) (o : Obj) (x : Site) (l : Layout) (c a : Nat) : List (Option Carry) :=
  let es := o.entries a
  (List.range es.length).flatMap fun i =>
    let e := es.getD i 0
    let dst := o.le (e + 2) 2
    let slip := o.le (e + 5) 1
    let from_ := (s.sourceOf x l c (o.le e 2) (o.le (e + 4) 1)).drop (o.before es i)
    let after := o.le (e + 0xC) 4
    (List.range (o.le (e + 8) 4 / 64)).map fun j => match from_[j]? with
      | none => none
      | some (t, p, cycle) =>
        if cycle < after + (if p = 9 then s.injectTc else 0) then none
        else some
          { src := (t, p, cycle),
            dsts := if dst < 0xC00 then [(x.place.getD dst 0, 9)] else edgePorts (24 + (dst - 0xF100)),
            way := fun p q => [routeMoves (o.le (e + 6) 1) p q],
            good := fun u out n =>
              if dst < 0xC00 then s.slipIn u c n F.TT_ESLIP == slip
              else (l.slotAt u c (16 + out) ((s.takesOnto u c out).idxOf n)).any fun z => z.kind == 0 && z.peer == slip }

/-- Whether the flits into each destination slip land in entry order (R255). -/
def Obj.landOrder (o : Obj) (a : Nat) (ends : List (Nat × Nat × Nat)) : Bool :=
  let keys := (o.entries a).flatMap fun e => List.replicate (o.le (e + 8) 4 / 64) (o.le (e + 2) 2, o.le (e + 5) 1)
  keys.eraseDups.all fun k =>
    let cs := ((keys.zip ends).filter fun z => z.1 == k).map fun z => z.2.2.1
    (List.range (cs.length - 1)).all fun i => decide (cs.getD i 0 ≤ cs.getD (i + 1) 0)

/-- LEAD (R322). -/
def State.leadTc (s : State) : Nat := if s.isB0 then 132 else 150

/-- Whether the takes of a template keep to what its quay can stage (R323). -/
def State.stagedInTime (s : State) (o : Obj) (x : Site) (l : Layout) (c n : Nat) : Bool :=
  match o.tplAt n with
  | none => true
  | some t =>
    let src := o.le (t + 2) 2
    let fs := s.sourceOf x l c src n
    (List.range fs.length).all fun j =>
      let cycle := (fs.getD j (0, 0, 0)).2.2
      decide (s.leadTc ≤ cycle) && decide ((16 * j + o.le (t + 5) 1 - 1) / o.le (t + 5) 1 ≤ l.outside (src - 0xF000) c s.leadTc cycle)

/-! ## The flits of a manifest crossing -/

/-- The pairs of a manifest crossing's flits: what the sender's slot and the receiver's slot name (R292, R295, R300,
R303). d: the destination's number, r the requester's. -/
def Obj.manPairs (o : Obj) (x : Site) (a : Nat) (rev : Bool) : List ((Nat × XferSlot) × (Nat × XferSlot) × Bool) :=
  let req := (o.mReq a).map fun lt => x.place.getD lt 0
  let dst := o.mDst a
  let slots := o.le (a + 8) 2
  let row := (if rev then o.le (a + 0xC) 2 else o.le (a + 0xA) 2) / 64
  let unit (d : Nat) : Nat := if o.mQuay a then 3072 + (dst.getD d 0 - 0xF000) else x.place.getD (dst.getD d 0) 0
  (List.range req.length).flatMap fun r => (List.range dst.length).flatMap fun d =>
    let t := req.getD r 0
    let mine := if o.mQuay a then t else r
    (if o.mQuay a then [] else (List.range (o.mSB a / 64)).map fun p =>
      ((t, (⟨1, d, 0, p⟩ : XferSlot)), (unit d, (⟨1, r, 0, p⟩ : XferSlot)), false))
    ++ (List.range slots).flatMap fun k => (List.range row).map fun p =>
      if rev then ((t, ⟨3, d, k, p⟩), (unit d, ⟨3, mine, k, p⟩), true)
      else ((unit d, ⟨2, mine, k, p⟩), (t, ⟨2, d, k, p⟩), false)

/-- The flits of a manifest crossing; none where no use sends one. -/
def State.manFlows (s : State) (o : Obj) (x : Site) (l : Layout) (c a : Nat) (rev : Bool) : List (Option Carry) :=
  (o.manPairs x a rev).map fun (snd, rcv, back) =>
    let src := if snd.1 < 3072 then (l.useAt snd.1 c 9 snd.2 (s.sends snd.1 c 9)).map fun i => (snd.1, 9, i)
      else (edgePorts (snd.1 - 3072)).findSome? fun e => (l.useAt e.1 c e.2 snd.2 (s.sends e.1 c e.2)).map fun i => (e.1, e.2, i)
    src.map fun f =>
      { src := f,
        dsts := if rcv.1 < 3072 then [(rcv.1, 9)] else edgePorts (rcv.1 - 3072),
        way := fun p q => if back then [backMoves 1 p q, backMoves 2 p q] else [routeMoves 1 p q, routeMoves 2 p q],
        good := fun u out n =>
          l.useAt u c (if out = 9 then 10 else 16 + out) rcv.2 (s.takesOnto u c out) == some n }

/-- Whether gradient flits are ejected in order of requester, slot and flit, at most one in 2 tc (R292). -/
def gradOrder (o : Obj) (x : Site) (a : Nat) (ends : List (Nat × Nat × Nat)) : Bool :=
  let us := ((o.manPairs x a true).map fun e => (e.2.1.1, e.2.2)).zip ends
  (us.map fun e => e.1.1).eraseDups.all fun u =>
    let cs := (us.filter fun e => e.1.1 == u && e.1.2).map fun e => e.2.2.1
    (List.range (cs.length - 1)).all fun i => decide (cs.getD i 0 + 2 ≤ cs.getD (i + 1) 0)

/-! ## What a layout must obey -/

/-- Whether the routers of a crossing carry its flits and nothing else (R251, R252, R254, R255, R257, R323). -/
def State.crossOk (s : State) (o : Obj) (x : Site) (l : Layout) (z : Xing) : Bool :=
  let c := z.phys
  let rs := l.routers c
  let flows := match z.xfer, z.man with
    | some a, _ => s.xferFlows o x l c a
    | none, some (a, rev) => s.manFlows o x l c a rev
    | none, none => []
  let paths := flows.map fun f => f.bind fun f => s.carries c f
  let used := (paths.filterMap id).flatten
  let ends := (paths.filterMap id).map fun p => p.getLast?.getD (0, 0, 0)
  let all := (rs.map fun t => (((List.range 9).map fun o => (s.takesOnto t c (o + 1)).length).sum)).sum
  z.tiles.all (fun t => rs.contains t)
    && rs.all (fun t => decide (x.y0 ≤ tileY t) && decide (tileY t < x.y0 + x.rows)
        && (s.ttEnd t 4096 (s.rd F.DIR_FIRST t c) 0).any fun n => decide (n ≤ 262143))
    && paths.all Option.isSome && used.eraseDups.length == used.length && used.length == all
    && (used.all fun e => decide (e.2.2 < 5) || e.2.2 == 9 ||
        !(used.any fun f => f.1 == e.1 && f.2.2 == e.2.2 && decide (e.2.1 < f.2.1) && decide (f.2.1 < e.2.1 + 4)))
    && (match z.xfer, z.man with
        | some a, _ => o.landOrder a ends
            && ((o.entries a).filter fun e => decide (0xF000 ≤ o.le e 2 ∧ o.le e 2 < 0xF100)).all fun e => s.stagedInTime o x l c (o.le (e + 4) 1)
        | none, some (a, true) => gradOrder o x a ends
        | _, _ => true)

/-- The index ranges of a router's timetables. -/
def State.ranges (s : State) (l : Layout) (t : Nat) : List (Nat × Nat) :=
  (l.firsts.filter fun e => e.1 == t).map fun e =>
    (e.2.2, ((List.range 4096).find? fun i => s.rd F.TT_LAST t (e.2.2 + i) == 1).getD 4096 + 1)

/-- Whether some ranges (first, length) are within a size and disjoint. -/
def apart (size : Nat) : List (Nat × Nat) → Bool
  | [] => true
  | a :: r => decide (a.1 + a.2 ≤ size) && r.all (fun b => decide (a.1 + a.2 ≤ b.1 ∨ b.1 + b.2 ≤ a.1)) && apart size r

/-- The quays whose staging a crossing takes from or delivers to (R325). -/
def Obj.quaysOf (o : Obj) (z : Xing) : List Nat :=
  match z.xfer, z.man with
  | some a, _ => (((o.entries a).map fun e => o.le e 2).filter fun u => decide (0xF000 ≤ u ∧ u < 0xF100)).eraseDups.map (· - 0xF000)
  | none, some (a, _) => if o.mQuay a then (o.mDst a).map (· - 0xF000) else []
  | none, none => []

/-- The templates of an object, by number, with their quay. -/
def Obj.tpls (o : Obj) : List (Nat × Nat) :=
  let ts := (o.ofType 5).flatMap fun s => s.every 32
  (List.range ts.length).map fun n => (n, o.le (ts.getD n 0 + 2) 2 - 0xF000)

/-- The physical crossings that other images of a partition hold. -/
def State.heldCross (s : State) (p client : Nat) : List Nat :=
  ((s.ctl.images.filter fun i => i.part == p && i.client != client).flatMap fun i => i.plan.masks.map (·.1))

/-- Whether a layout obeys the rules for an object's crossings (R126, R257, R270, R317, R325). -/
def State.layoutOk (s : State) (o : Obj) (x : Site) (l : Layout) (client : Nat) : Bool :=
  let zs := o.xings x l
  let zl := zs.filterMap id
  let cs := zl.map Xing.phys
  let bs := zl.map Xing.bar
  let s1 := ({ State.reset with stepping := s.stepping } : State).withTables l
  zs.all Option.isSome && !hasTwice cs && !hasTwice bs && cs.all (fun c => decide (c < 256) && !(s.heldCross x.part client).contains c)
    && bs.all (fun b => decide (b < 256) && s.rd F.XT_BAR_ALLOC 0 b == 0)
    && l.entries.all (fun e => decide (e.2.1 < 4096) && decide (e.2.2 < 2 ^ 60))
    && (l.firsts.map (·.1)).eraseDups.all (fun t => apart 4096 (s1.ranges l t))
    && (List.range 24).all (fun q => apart 56 ((l.regions.filter fun e => e.1 == q).map fun e => (e.2.2.1, e.2.2.2 + 1)))
    && o.tpls.all (fun e => l.regions.any fun r => r.1 == e.2 && r.2.1 == e.1)
    && zl.all (fun z => (o.quaysOf z).all fun q => l.windows.any fun w => w.1 == q && w.2.1 == z.phys
        && decide (w.2.2.1 ≤ 1024) && decide (192 ≤ w.2.2.2) && decide (w.2.2.2 ≤ 1024))
    && zl.all fun z => s1.crossOk o x l z

/-! ## The OVERLAP check -/

/-- R127: a tile to which an XFER crossing of a roast delivers, after its release, into the range it declares for the
stores of the code that follows. -/
def State.overlaps (s : State) (o : Obj) (x : Site) (z : Xing) : Option Nat :=
  match z.xfer with
  | none => none
  | some a =>
    let lo := o.le (a + 0x10) 4
    let hi := o.le (a + 0x14) 4
    (o.parts a).find? fun lt =>
      let t := x.place.getD lt 0
      (s.takesOnto t z.phys 9).any fun i => decide (s.releaseOf z t < i + s.ejectTc) &&
        (o.decls lt).any fun d => d.slip == s.slipIn t z.phys i F.TT_ESLIP && decide (d.base < hi) && decide (lo < d.base + d.size)

/-! ## The tables that the rules decide -/

/-- A directory entry (R258). -/
def dirWord (first b next rel : Nat) (loc nextv : Bool) : Nat :=
  first + 2 ^ 12 + 2 ^ 13 * b2n loc + 2 ^ 14 * b + 2 ^ 22 * next + 2 ^ 30 * b2n nextv + 2 ^ 31 * rel

/-- A barrier's register (R271). -/
def barWord (z : Xing) (p : Nat) : Nat := z.expect + 2 ^ 26 * z.phys + 2 ^ 34 * p + 2 ^ 36

/-- Where a tile's staging areas go (R292): the lowest place that is free of slips, of the areas that manifests name and
of those already placed. DESIGN CHOICE (log 155). -/
def placeArea (taken : List (Nat × Nat)) (n : Nat) : Option Nat :=
  (List.range (slotBase / 64)).find? fun k =>
    decide (64 * k + n ≤ slotBase) && taken.all fun e => decide (64 * k + n ≤ e.1 ∨ e.1 + e.2 ≤ 64 * k)

/-- The areas of a logical tile for the manifests in order: manifest record, STAGE and SSTAGE in 64-byte units. -/
def Obj.stageAreas (o : Obj) (lt : Nat) : List Nat → List (Nat × Nat) → Option (List (Nat × Nat × Nat))
  | [], _ => some []
  | a :: r, taken =>
    let tile := !o.mQuay a
    let n := if tile && (o.mReq a).contains lt then (o.mDst a).length * o.mSB a else 0
    let m := if tile && (o.mDst a).contains lt then (o.mReq a).length * o.mSB a else 0
    match if n = 0 then some 0 else placeArea taken n with
    | none => none
    | some i =>
      let taken := if n = 0 then taken else (64 * i, n) :: taken
      match if m = 0 then some 0 else placeArea taken m with
      | none => none
      | some j => (o.stageAreas lt r (if m = 0 then taken else (64 * j, m) :: taken)).map fun l => (a, i, j) :: l

/-- The scratchpad that a logical tile's areas must leave alone: slips, and serving and gradient areas (R292). -/
def Obj.areaTaken (o : Obj) (lt : Nat) : List (Nat × Nat) :=
  ((o.decls lt).map fun d => (d.base, d.size)) ++ (o.mrecs.filter fun e => !o.mQuay e.2 && (o.mDst e.2).contains lt).flatMap fun e =>
    [(o.le (e.2 + 0x1C) 4, o.le (e.2 + 0x14) 4 * o.le (e.2 + 0xA) 2)]
      ++ if o.mRev e.2 then [(o.le (e.2 + 0x20) 4, o.le (e.2 + 0x14) 4 * o.le (e.2 + 0xC) 2)] else []

/-- The areas of a logical tile for all manifests, none where they do not fit. -/
def Obj.areasOf (o : Obj) (lt : Nat) : Option (List (Nat × Nat × Nat)) :=
  o.stageAreas lt (o.mrecs.map (·.2)) (o.areaTaken lt)

/-- The manifest-table words of a tile for a manifest it takes part in (R292, R307). -/
def Obj.mtWords (o : Obj) (l : Layout) (lt a stage sstage : Nat) : List Nat :=
  let req := (o.mReq a).contains lt
  let dst := !o.mQuay a && (o.mDst a).contains lt
  let bound := if o.le (a + 0x18) 4 = 0 then o.le 0x18 4 else o.le (a + 0x18) 4
  [(l.phys 4 (o.le (a + 4) 1)).getD 0 + 2 ^ 8 * (if o.mRev a then (l.phys 4 (o.le (a + 5) 1)).getD 0 else 0) + 2 ^ 16
      + 2 ^ 17 * b2n (o.mQuay a) + 2 ^ 18 * b2n (o.mRev a) + 2 ^ 19 * b2n req + 2 ^ 20 * b2n dst
      + 2 ^ 32 * (if dst then (o.mDst a).idxOf lt else 0),
   o.le (a + 8) 2 + 2 ^ 13 * o.le (a + 0xA) 2 + 2 ^ 26 * o.le (a + 0xC) 2 + 2 ^ 39 * (o.mDst a).length,
   o.le (a + 0x14) 4 + 2 ^ 32 * bound,
   (if o.mQuay a then 0 else o.le (a + 0x1C) 4 / 64) + 2 ^ 13 * (if o.mQuay a then 0 else o.le (a + 0x20) 4 / 64)
      + 2 ^ 26 * stage + 2 ^ 39 * sstage]

/-- The eight-byte words of a template's register (R316, R337). -/
def Obj.tplWords (o : Obj) (x : Site) (t rbase rsize : Nat) : List Nat :=
  let stat := (o.le (t + 4) 1).testBit 0
  let b := o.take t 32
  let b := b.take 0x10 ++ leBytes (if stat then x.gbase + o.le (t + 0x10) 5 else 0) 8 ++ b.drop 0x18
  let v := rbase + 2 ^ 6 * rsize + 2 ^ 15 + 2 ^ 16 * leVal (b.drop 2)
  (List.range 4).map fun i => bits v (64 * i) 64

/-- Words written one after another from an address. -/
def wordsFrom (a : Nat) (l : List Nat) : List (Nat × Nat) := (List.range l.length).map fun i => (a + 8 * i, l.getD i 0)

/-- Every register write of a translation. -/
def State.tableWrites (s : State) (o : Obj) (x : Site) (l : Layout) (zs : List Xing) : List (Nat × Nat) :=
  l.entries.map (fun e => (spad e.1 (0x8_8000 + 8 * e.2.1), e.2.2))
    ++ (zs.flatMap fun z => (l.firsts.filter fun e => e.2.1 == z.phys).map fun e =>
        (spad e.1 (0x8_7800 + 8 * z.phys), dirWord e.2.2 z.bar (z.next.getD 0)
          (if z.tiles.contains e.1 then s.releaseOf z e.1 else 0) (z.tiles.contains e.1) z.next.isSome))
    ++ zs.map (fun z => (0x3800_0000_4000 + 8 * z.bar, barWord z x.part))
    ++ (o.tpls.flatMap fun e => match o.tplAt e.1, l.regions.find? fun r => r.1 == e.2 && r.2.1 == e.1 with
        | some t, some r => wordsFrom (0x3800_0020_1000 + 0x1_0000 * e.2 + 32 * e.1) (o.tplWords x t r.2.2.1 r.2.2.2)
        | _, _ => [])
    ++ (zs.flatMap fun z => (o.quaysOf z).flatMap fun q => match l.windows.find? fun w => w.1 == q && w.2.1 == z.phys with
        | some w => [(0x3800_0020_3000 + 0x1_0000 * q + 8 * z.phys, w.2.2.1 + 2 ^ 11 * w.2.2.2 + 2 ^ 22 * 191 + 2 ^ 30)]
        | none => [])
    ++ (List.range o.ntiles).flatMap fun lt => ((o.areasOf lt).getD []).flatMap fun e =>
        if (o.mReq e.1).contains lt || (!o.mQuay e.1 && (o.mDst e.1).contains lt) then
          wordsFrom (spad (x.place.getD lt 0) (0x8_6C00 + 32 * o.le e.1 1)) (o.mtWords l lt e.1 e.2.1 e.2.2)
        else []

/-- Bytes that an XFER crossing delivers into a channel of an engine, and takes from it (R397). -/
def Obj.chanBytes (o : Obj) (a k chan : Nat) : Nat × Nat :=
  let sum (u n : Nat) : Nat := (((o.entries a).filter fun e => o.le (e + u) 2 == 0xF100 + k && o.le (e + n) 1 == chan).map
    fun e => o.le (e + 8) 4).sum
  (sum 2 5, sum 0 4)

/-- The plan of a translation's crossings. -/
def Obj.planOf (o : Obj) (x : Site) (l : Layout) (zs : List Xing) : Plan :=
  { slots := l.slots,
    tpls := zs.flatMap fun z => match z.xfer with
      | none => []
      | some a => (((o.entries a).filter fun e => decide (0xF000 ≤ o.le e 2 ∧ o.le e 2 < 0xF100)).map
          fun e => (o.le e 2 - 0xF000, o.le (e + 4) 1, z.phys)).eraseDups,
    chans := zs.flatMap fun z => match z.xfer with
      | none => []
      | some a => (List.range 12).flatMap fun k => (List.range 16).filterMap fun n =>
          if o.chanBytes a k n = (0, 0) then none else some (k, n, z.phys, (o.chanBytes a k n).1, (o.chanBytes a k n).2),
    dsts := o.mrecs.flatMap fun e => if o.mQuay e.2 then
        (o.mReq e.2).map fun lt => (x.place.getD lt 0, o.le e.2 1, (o.mDst e.2).map (· - 0xF000)) else [],
    masks := zs.map fun z => (z.phys, z.masks.1, z.masks.2) }

/-- XT_CUR of each tile for each roast (R262): the crossing of its START record. -/
def Obj.cursOf (o : Obj) (zs : List Xing) (place : List Nat) : List (Nat × Nat × Nat) :=
  o.roastList.flatMap fun r => place.map fun t =>
    (r, t, ((zs.find? fun z => z.start && (z.roast == r || z.roast == 4) && z.tiles.contains t).map fun z => z.phys + 256).getD 0)

/-! ## A translation -/

/-- The key of a translation's layout (R129): the object, STEPID, the partition, the fenced tiles, what is resident. -/
def State.tableKey (s : State) (o : Obj) (x : Site) : List Nat :=
  [leVal (o.take 0x20 32), s.stepid, x.part, x.y0, x.rows, x.gbase, x.gsize] ++ (x.objs.map (·.2))
    ++ ((List.range 3072).filter s.tileFenced)
    ++ (s.ctl.images.filter fun i => i.part == x.part).map Image.digest

/-- The layout of an object's crossings: nothing to lay out where it has none. -/
def State.layoutFor (s : State) (o : Obj) (x : Site) : Except Nat Layout :=
  if o.xrecs.isEmpty && o.mrecs.isEmpty && o.tpls.isEmpty then .ok {} else Config.timetables (s.tableKey o x)

/-- Step 5's routing (R126, R127): the tables, or the refusal. -/
def State.routeObj (s : State) (o : Obj) (x : Site) (client : Nat) : Except LoadRes Tables :=
  let r0 := o.roastList.headD 0
  match (List.range o.ntiles).find? fun lt => (o.areasOf lt).isNone with
  | some lt => .error { code := 4, roast := r0, loc := lt }
  | none => match s.layoutFor o x with
    | .error k => .error { code := 7, roast := (o.roastList[k % o.roastList.length]?).getD r0 }
    | .ok l =>
      let zs := (o.xings x l).filterMap id
      let s1 := ({ State.reset with stepping := s.stepping } : State).withTables l
      match zs.findSome? fun z => (s1.overlaps o x z).map fun lt => (z.roast, lt) with
      | some (r, lt) => .error { code := 8, roast := r, loc := lt }
      | none =>
        if !s.layoutOk o x l client then
          .error { code := 7, roast := ((zs.find? fun z => z.roast != 4 && !s1.crossOk o x l z).map Xing.roast).getD r0 }
        else .ok { writes := s1.tableWrites o x l zs, curs := o.cursOf zs x.place, plan := o.planOf x l zs }

/-- A translation (R128 steps 3 to 5). -/
structure Build where
  site   : Site
  tiles  : List TTile
  tables : Tables

/-- Steps 3 to 5 of a load: place; allocate the objects and check the slips; pack, pad, route and relocate every roast;
then check that its native code fits. -/
def State.translateObj (s : State) (o : Obj) (p client : Nat) : Except LoadRes Build :=
  match s.site o p with
  | .error e => .error e
  | .ok x => match s.allocSync o with
    | .error e => .error e
    | .ok objs =>
      let x := { x with objs := objs }
      let lts := List.range o.ntiles
      match lts.findSome? o.slipSpace with
      | some e => .error e
      | none => match eachOk (o.layTile s.isB0) lts with
        | .error e => .error e
        | .ok laid => match firstFail ((o.roastList.map fun r => s.xferRefuses o p r) ++ [s.tplRefuses o x, s.mfRefuses o p]) with
          | some e => .error e
          | none => match s.routeObj o x client with
            | .error e => .error e
            | .ok tb =>
              let fit (lt : Nat) : Except LoadRes (List TLay) := layRuns (execRuns (o.decls lt)) (laid.getD lt [])
              let lay (lt : Nat) : List TLay := match fit lt with
                | .ok l => l
                | .error _ => laid.getD lt []
              match eachOk (fun lt => o.tileOf x lt (lay lt)) lts with
              | .error e => .error e
              | .ok ts => match eachOk fit lts with
                | .error e => .error e
                | .ok _ => .ok { site := x, tiles := ts, tables := tb }

end Sys2Proof.Machine
end

