-- ==== Sys2Proof/Machine/Load.lean ====
section
/-! DEFINITION. Loading and starting programs: LOAD_PROGRAM with its fetch (R128–R130, R453, R462, R499, R535, R536),
START_GRID (R500). -/

namespace Sys2Proof.Machine

/-! ## Common to the commands of the landing supervisor -/

/-- What carrying out a command gives: its effect, its result (none while it goes on), DETAIL, its body. -/
abbrev Ran := State × Option Nat × Nat × List Byte

/-- A command refused with BADSTATE. -/
def badState (s : State) : Ran := (s, some 1, 0, [])

/-- A command about a partition, refused with BADFIELD where its number is out of range. -/
def onPart (s : State) (p : Nat) (run : Nat → Ran) : Ran := if 3 < p then (s, some 3, 0, []) else run p

/-- Whether the module is in one of the states in which a command is accepted (R492 check 4, R498). -/
def State.inStates (s : State) (l : List Nat) : Bool := l.contains s.modState

/-- Whether a partition is being switched. -/
def State.switching (s : State) (p : Nat) : Bool := s.rd F.PT_PART_A_SWITCHING 0 p == 1

/-! ## Tiles written from outside -/

/-- Register fields of a tile that a state record holds (R459), by window offset. -/
def savedOff (o : Nat) : Bool :=
  (decide (0x81000 ≤ o) && decide (o < 0x81508)) || o == 0x80078 || o == 0x80010 || o == 0x80018
    || (decide (0x80020 ≤ o) && decide (o < 0x80048)) || (decide (0x80058 ≤ o) && decide (o < 0x80078))
    || o == 0x80410 || o == 0x80418 || o == 0x87010 || (decide (0x86000 ≤ o) && decide (o < 0x86800))
    || (decide (0x86C00 ≤ o) && decide (o < 0x87000))

/-- A tile's scratchpad and state record (R459). -/
def State.capture (s : State) (t : Nat) : Nat × List Host.Cell × Cells :=
  (t, (s.mem.filter fun e => decide (spad t 0 ≤ e.1) && decide (e.1 < spad t 0x60000)).map fun e => (e.1 - spad t 0, e.2),
   (s.rf.filter fun e => tileOfKey e.1 == some t && (tileOff e.1).any savedOff).map fun e => (e.1 - spad t 0 * 64, e.2))

/-- A scratchpad and state record put back (R459, R461). -/
def State.putBack (s : State) (x : Nat × List Host.Cell × Cells) : State :=
  let t := x.1
  let s := s.dropMem fun a => decide (spad t 0 ≤ a) && decide (a < spad t 0x60000)
  let s := s.dropRf fun k => tileOfKey k == some t && (tileOff k).any savedOff
  let s := x.2.1.foldl (fun s e => s.setByte (spad t e.1) e.2) s
  { s with rf := x.2.2.foldl (fun m e => aput 0 m (spad t 0 * 64 + e.1) e.2) s.rf }

/-- A tile's slip registers written from its declarations: a slip with none has SIZE 0 (R107). -/
def State.putDecls (s : State) (t : Nat) (l : List Decl) : State :=
  (List.range 32).foldl (fun s i =>
    let d := (l.find? fun d => d.slip == i).getD ⟨i, 0, 0, 0⟩
    let s := ((s.wr F.SLIP_BASE_BASE d.base t i).wr F.SLIP_SIZE_SIZE d.size t i).wr F.SLIP_ATTR_EXEC (d.attr % 2) t i
    ((s.wr F.SLIP_ATTR_CLASS (d.attr / 2) t i).wr F.SLIP_HEAD_COUNT 0 t i).wr F.SLIP_TAIL_COUNT 0 t i) s

/-- Step 6 of R128 on one tile: DATA, code of every roast, slip registers, T_ENTRY, T_CODE_STAMP. -/
def State.putTile (s : State) (x : TTile) (r : Nat) : State :=
  let t := x.tile
  let s := x.data.foldl (fun s e => s.setBytes (spad t e.1) e.2) s
  let s := x.runs.foldl (fun s e => s.setBytes (spad t e.2.1) e.2.2) s
  let s := s.putDecls t x.decls
  (s.wr F.T_ENTRY_ADDR ((find2 x.entries r).getD 0) t).wr F.T_CODE_STAMP_STAMP s.stepid t

/-- Whether a device address is in a tile's manifest table. -/
def isMt (a : Nat) : Bool := decide (a < 0x3000_0000_0000) && decide (0x86C00 ≤ a % 0x10_0000) && decide (a % 0x10_0000 < 0x87000)

/-! ## Images -/

/-- The roast in which an image starts: PW_ROAST's where the image has it, else the highest present. -/
def State.startRoast (s : State) (im : Image) : Nat :=
  let r := s.roastOf im.part
  if im.roasts.testBit r then r else topRoast im.roasts

/-- XT_CUR of an image's tiles for a roast (R262). -/
def State.putCurs (s : State) (im : Image) (r : Nat) : State :=
  im.curs.foldl (fun s e => if e.1 = r ∧ im.tiles.contains e.2.1 then
    (s.wr F.XT_CUR_CROSSING (e.2.2 % 256) e.2.1).wr F.XT_CUR_VALID (e.2.2 / 256 % 2) e.2.1 else s) s

/-- The synchronisation objects of a load allocated (R125, R275). -/
def State.putObjs (s : State) (o : Obj) (x : Site) : State :=
  o.syncs.foldl (fun s a =>
    match find2 x.objs (o.le a 2) with
    | none => s
    | some n =>
      let own := o.le (a + 2) 2
      let s := (s.wr F.SO_STATE_COUNT 0 0 n).wr F.SO_STATE_TARGET (o.le (a + 4) 4) 0 n
      let s := (s.wr F.SO_CTL_OWNER (if own = 65535 then 0x6000 else x.place.getD own 0) 0 n).wr F.SO_CTL_PART x.part 0 n
      (s.wr F.SO_CTL_ALLOC 1 0 n).wr F.SO_CTL_BROKEN 0 0 n) s

/-- Synchronisation objects given back. -/
def State.freeObjects (s : State) (l : List Nat) : State :=
  l.foldl (fun s n => (((((s.wr F.SO_STATE_COUNT 0 0 n).wr F.SO_STATE_TARGET 0 0 n).wr F.SO_CTL_OWNER 0 0 n).wr
    F.SO_CTL_PART 0 0 n).wr F.SO_CTL_ALLOC 0 0 n).wr F.SO_CTL_BROKEN 0 0 n) s

/-- An image is removed: its objects, its tables, its saved context, its record. -/
def State.dropImage (s : State) (p c : Nat) : State :=
  match s.image p c with
  | none => s
  | some im =>
    let s := s.freeObjects im.objs
    let s := im.tables.foldl (fun s a => s.poke a 0) s
    s.upCtl fun x => { x with images := x.images.filter fun i => !(i.part == p && i.client == c),
                              contexts := x.contexts.filter fun i => !(i.part == p && i.client == c) }

/-- The model to which a client is bound (R453): none where it is bound to none yet. -/
def State.boundModel (s : State) (c : Nat) : Option Nat :=
  let held := (List.range 4).any fun p => s.partEn p && s.client p == c
  let pt := s.rd F.PT_MODEL_MODEL_ID
  if held && pt != 0 then some pt else (s.ctl.images.find? fun i => i.client == c).map Image.model

/-- A client is bound by a load (R453): while PT_MODEL is 0, the first load of a client that holds a partition writes it. -/
def State.bindModel (s : State) (c m : Nat) : State :=
  if s.rd F.PT_MODEL_MODEL_ID = 0 ∧ ((List.range 4).any fun p => s.partEn p && s.client p == c) then s.wr F.PT_MODEL_MODEL_ID m else s

/-- The record of a translated object (R129). -/
def State.imageOf (s : State) (o : Obj) (b : Build) (c area len : Nat) : Image :=
  { part := b.site.part, client := c, model := o.model, digest := leVal (o.take 0x20 32), stepid := s.stepid,
    gen := s.rd F.FT_FENCE_GEN_GEN, area := area, length := len, roasts := o.roasts, tiles := b.site.place,
    entries := b.tiles.flatMap fun x => x.entries.map fun e => (e.1, x.tile, e.2),
    curs := b.tables.curs,
    resumes := b.tiles.flatMap fun x => x.resumes.map fun e => (e.1, e.2.1, x.tile, e.2.2),
    objs := b.site.objs.map (·.2), tables := b.tables.writes.map (·.1),
    plan := b.tables.plan }

/-- Steps 6 to 8 of R128, the image of the partition's current client. -/
def State.install (s : State) (o : Obj) (b : Build) (im : Image) : State :=
  let r := s.startRoast im
  let s := b.site.place.foldl (fun s t => s.stop t) s
  let s := s.dropImage im.part im.client
  let s := b.tiles.foldl (fun s x => s.putTile x r) s
  let s := b.tables.writes.foldl (fun s e => s.poke e.1 e.2) s
  let s := ((s.putObjs o b.site).putCurs im r).setResumable im.part false
  s.upCtl fun c => { c with images := c.images ++ [im] }

/-- R462: the image of another client: its initial context, its tables beside those of the running client. -/
def State.installAside (s : State) (o : Obj) (b : Build) (im : Image) : State :=
  let r := s.startRoast im
  let s := s.dropImage im.part im.client
  let blank := b.tiles.foldl (fun s x => s.putTile x r) { State.reset with stepping := s.stepping }
  let blank := ((b.tables.writes.filter fun e => isMt e.1).foldl (fun s e => s.poke e.1 e.2) blank).putCurs im r
  let s := (b.tables.writes.filter fun e => !isMt e.1).foldl (fun s e => s.poke e.1 e.2) s
  let x : Context := { part := im.part, client := im.client, tiles := b.site.place.map blank.capture, lost := [], fresh := true }
  (s.putObjs o b.site).upCtl fun c => { c with images := c.images ++ [im], contexts := c.contexts ++ [x] }

/-! ## The fetch (R536) -/

/-- Ports whose DSTMAP permits an endpoint. -/
def State.fetchPorts (s : State) (dst : Nat) : List Nat := (List.range 12).filter fun k => s.guardPasses k dst

/-- The body of LOAD_PROGRAM: FETCH and the load result. -/
def loadBody (f : Nat) (r : LoadRes) : List Byte := leBytes f 4 ++ r.bytes

/-- A fetch that failed: no rule gives the load result then, a free value among its codes. -/
def State.fetchFails (s : State) (f : Nat) : Ran :=
  (s.drawn, some 5, 0, loadBody f { code := (Config.rng s.free).toNat % 12 })

/-- FETCH_REQ of a request (R535). -/
def fetchReq (name : Nat) (r : Fetch) : List Byte :=
  [0x10, 0, 0, 0] ++ leBytes r.id 4 ++ leBytes name 32 ++ leBytes r.off 8 ++ leBytes r.len 4

/-- A request sent on the n-th permitted port. -/
def State.sendReq (s : State) (l : Load) (off len n tries : Nat) : State × Load :=
  let ps := s.fetchPorts l.ingest
  let k := ps.getD (n % max 1 ps.length) 0
  let r : Fetch := { id := s.ctl.nextReq, off := off, len := len, port := n, tries := tries, got := 0 }
  ((s.vc1 k l.ingest (fetchReq l.name r)).upCtl fun c => { c with nextReq := (c.nextReq + 1) % 2 ^ 32 },
   { l with reqs := l.reqs ++ [r] })

/-- Requests of at most 1 MiB, at most eight outstanding. -/
def State.sendMore (s : State) (l : Load) : Nat → State × Load
  | 0 => (s, l)
  | n + 1 =>
    if l.length ≤ l.next ∨ 8 ≤ l.reqs.length then (s, l)
    else
      let len := min (2 ^ 20) (l.length - l.next)
      let (s, l) := s.sendReq { l with next := l.next + len } l.next len (l.next / 2 ^ 20) 0
      s.sendMore l n

/-- Where the next object goes in the object area: after those that stand there. -/
def State.objectBase (s : State) : Nat :=
  (s.ctl.images.map fun i => (i.area + i.length + 63) / 64 * 64).foldl max Config.objectArea.1

/-- LOAD_PROGRAM is carried out as far as its first requests (R499, R536). -/
def State.loadBegin (s : State) (p c ingest len digest name : Nat) : Ran :=
  if !s.inStates [2, 3, 4] || s.ctl.load.isSome || !s.partEn p || s.switching p || (s.client p == c && s.run p) then badState s
  else if !s.boot.ingest.contains ingest then s.fetchFails 1
  else if Config.objectArea.1 + Config.objectArea.2 < s.objectBase + len then s.fetchFails 4
  else if (s.fetchPorts ingest).isEmpty then s.fetchFails 2
  else
    let l : Load := { part := p, client := c, ingest := ingest, length := len, digest := digest, name := name,
                      area := s.objectBase, next := 0, reqs := [] }
    let (s, l) := s.sendMore l 8
    (s.upCtl fun x => { x with load := some l }, none, 0, [])

/-- The fetched object, as GDDR7 holds it. -/
def State.objectAt (s : State) (a : Nat) : Obj := fun i => s.gbyte (a + i)

/-- Steps 1 to 8 of R128 on a fetched object (R462, R499). -/
def State.loadObject (s : State) (l : Load) : Ran :=
  let o := s.objectAt l.area
  let fail (r : LoadRes) : Ran := (s, some 5, 0, loadBody 0 r)
  if leVal (o.take 0x20 32) ≠ l.digest then s.fetchFails 3
  else match o.check l.length with
    | some r => fail r
    | none =>
      if (s.boundModel l.client).any fun m => m != o.model then fail { code := 2 }
      else match s.translateObj o l.part l.client with
        | .error r => fail r
        | .ok b =>
          let im := s.imageOf o b l.client l.area l.length
          let t := if s.client l.part = l.client then s.install o b im else s.installAside o b im
          (t.bindModel l.client o.model, some 0, 0, loadBody 0 { code := 0 })

/-- A fetch ends: the load goes on with the object, or fails, and the command has its result. -/
def State.loadEnd (s : State) (run : State → Ran) : State :=
  let old := s
  let (s, r, _, b) := run (s.upCtl fun x => { x with load := none })
  (s.finish 2 (r.getD 5) b).settle old

/-- A request's failure (R536): it is sent again on another port, and the third ends the fetch. -/
def State.fetchRetry (s : State) (l : Load) (r : Fetch) : State :=
  if 2 ≤ r.tries then s.loadEnd fun s => s.fetchFails 2
  else
    let l := { l with reqs := l.reqs.filter fun x => x.id != r.id }
    let (s, l) := s.sendReq l r.off r.len (r.port + 1) (r.tries + 1)
    s.upCtl fun x => { x with load := some l }

/-- FETCH_DATA_RECEIVE (R535, R536): the next bytes of a request enter the object area; any other message is discarded. -/
def State.fetchData (s : State) (k id off : Nat) (d : List Byte) : State :=
  let s := s.actedOn k 1 ([0x11, 0, 0, 0] ++ leBytes id 4 ++ leBytes off 8 ++ d)
  match s.ctl.load with
  | none => s
  | some l => match l.reqs.find? fun r => r.id == id with
    | none => s
    | some r =>
      if d.isEmpty || decide (2032 < d.length) || off != r.off + r.got || decide (r.len < r.got + d.length) then s
      else
        let s := s.gset (l.area + off) d
        let rs := mapFirst (fun r => r.id == id) (fun r => { r with got := r.got + d.length }) l.reqs
        s.upCtl fun x => { x with load := some { l with reqs := rs } }

/-- FETCH_END_RECEIVE (R535, R536): a request is complete, or the fetch ends UNREACHABLE; the last one completes it. -/
def State.fetchEnd (s : State) (k id st total : Nat) : State :=
  let s := s.actedOn k 1 ([0x12, 0, 0, 0] ++ leBytes id 4 ++ leBytes st 1 ++ leBytes 0 3 ++ leBytes total 8)
  match s.ctl.load with
  | none => s
  | some l => match l.reqs.find? fun r => r.id == id with
    | none => s
    | some r =>
      if 2 < st then s
      else if st ≠ 0 then s.loadEnd fun s => s.fetchFails 2
      else if r.got < r.len then s.fetchRetry l r
      else
        let (s, l) := s.sendMore { l with reqs := l.reqs.filter fun x => x.id != id } 8
        if l.reqs.isEmpty ∧ l.length ≤ l.next then s.loadEnd fun s => s.loadObject l
        else s.upCtl fun x => { x with load := some l }

/-- FETCH_REQUEST_TIMEOUT (R536): no message came for 1 s. -/
def State.fetchTimeout (s : State) (id : Nat) : State :=
  match s.ctl.load with
  | none => s
  | some l => match l.reqs.find? fun r => r.id == id with
    | none => s
    | some r => s.fetchRetry l r

/-- UNLOAD_PROGRAM (R499). -/
def State.unload (s : State) (p c : Nat) : Ran :=
  if !s.inStates [2, 3, 4] || !s.partEn p || s.switching p || (s.image p c).isNone || (s.client p == c && s.run p) then badState s
  else
    let s := s.dropImage p c
    let s := if s.client p = c then s.setResumable p false else s
    (s, some 0, 0, loadBody 0 { code := 0 })

/-! ## START_GRID (R500) -/

/-- The program of an image is started from T_ENTRY. -/
def State.startImage (s : State) (im : Image) : State :=
  let p := im.part
  let r := s.startRoast im
  let old := s.rd F.PW_ROAST_ROAST
  let s := (s.wr F.PW_ROAST_ROAST (old - bits old (2 * p) 2 * 4 ^ p + r * 4 ^ p)).writeCaps
  let s := im.entries.foldl (fun s e => if e.1 = r then s.wr F.T_ENTRY_ADDR e.2.2 e.2.1 else s) s
  let s := (s.putCurs im r).gridStart
  ((s.placed p).foldl (fun s t => s.go t) s).setRun p true

/-- The body of START_GRID. -/
def startBody (r : LoadRes) : List Byte := r.bytes ++ leBytes 0 4

/-- START_GRID (R130, R500): a partition is resumed at its boundary, or its image started, translated again where a
tile it places on was fenced since the load. -/
def State.startRun (s : State) (p : Nat) : Ran :=
  match s.curImage p with
  | none => badState s
  | some im =>
    if !s.inStates [2, 3, 4] || !s.partEn p || s.run p || s.switching p then badState s
    else if s.resumable p then
      let t := (s.placed p).foldl (fun s t => s.resume t) s.gridStart
      (((t.setRun p true).meetBoundary p).setResumable p false, some 0, 0, startBody { code := 0 })
    else if s.rd F.FT_FENCE_GEN_GEN ≠ im.gen ∧ im.tiles.any s.tileFenced then
      let o := s.objectAt im.area
      match (s.dropImage p im.client).translateObj o p im.client with
      | .error r => (s, some 5, 0, startBody r)
      | .ok b =>
        let im := s.imageOf o b im.client im.area im.length
        ((s.install o b im).startImage im, some 0, 0, startBody { code := 0 })
    else (s.startImage im, some 0, 0, startBody { code := 0 })

/-! ## Commands -/

/-- A relayed command carried out, CP_STATE brought up to date (R487, R497). -/
def State.relayed (s : State) (op : Nat) (ok : List Byte → Bool) (run : State → Ran) : State :=
  (s.serve op ok run).settle s

/-- LOAD_PROGRAM (R499). -/
def execLoadProgram (part client : BitVec 8) (ingest : BitVec 16) (length : BitVec 32) (digest name : BitVec 256) (s : State) :
    Host.Outcome State Fault Refusal :=
  .next (s.relayed 2 (fun a => a == leBytes part.toNat 1 ++ leBytes client.toNat 1 ++ leBytes 0 2 ++ leBytes ingest.toNat 2
      ++ leBytes 0 2 ++ leBytes length.toNat 4 ++ leBytes digest.toNat 32 ++ leBytes name.toNat 32)
    fun s => onPart s part.toNat fun p => s.loadBegin p client.toNat ingest.toNat length.toNat digest.toNat name.toNat)

/-- UNLOAD_PROGRAM (R499): LOAD_PROGRAM with UNLOAD; the arguments of a fetch are not read. -/
def execUnloadProgram (part client : BitVec 8) (s : State) : Host.Outcome State Fault Refusal :=
  .next (s.relayed 2 (fun a => a.take 4 == leBytes part.toNat 1 ++ leBytes client.toNat 1 ++ leBytes 1 2)
    fun s => onPart s part.toNat fun p => s.unload p client.toNat)

/-- FETCH_DATA_RECEIVE (R536). -/
def execFetchDataReceive (port : PortId) (reqid : BitVec 32) (off : BitVec 64) (data : List (BitVec 8)) (s : State) :
    Host.Outcome State Fault Refusal := .next (s.fetchData port.val reqid.toNat off.toNat data)

/-- FETCH_END_RECEIVE (R536). -/
def execFetchEndReceive (port : PortId) (reqid : BitVec 32) (status : BitVec 8) (total : BitVec 64) (s : State) :
    Host.Outcome State Fault Refusal := .next (s.fetchEnd port.val reqid.toNat status.toNat total.toNat)

/-- FETCH_REQUEST_TIMEOUT (R536). -/
def execFetchRequestTimeout (reqid : BitVec 32) (s : State) : Host.Outcome State Fault Refusal :=
  .next (s.fetchTimeout reqid.toNat)

/-- START_GRID (R500). -/
def execStartGrid (part : BitVec 8) (s : State) : Host.Outcome State Fault Refusal :=
  .next (s.relayed 3 (fun a => a == leBytes part.toNat 1 ++ leBytes 0 7) fun s => onPart s part.toNat fun p => s.startRun p)

end Sys2Proof.Machine
end

