-- ==== Sys2Proof/Machine/Partition.lean ====
section
/-! DEFINITION. Commands that act on partitions, tiles and units: SET_PARTITIONS (R451), STOP_GRID (R63, R501),
HALT_TILE (R502), FENCE and UNFENCE (R503, R543), and the ends of the fence block's work that complete them. -/

namespace Sys2Proof.Machine

/-! ## SET_PARTITIONS -/

/-- Fields of PT_PART_A that SET_PARTITIONS writes. -/
def partFields : List Fld := [F.PT_PART_A_FIRST, F.PT_PART_A_LAST, F.PT_PART_A_EN, F.PT_PART_A_CLIENT]
/-- Fields of PT_MEM. -/
def memFields : List Fld := [F.PT_MEM_BASE, F.PT_MEM_SIZE]

/-- Whether a partition's bands or memory would change. -/
def State.partChanges (s : State) (p a m : Nat) : Bool :=
  [F.PT_PART_A_FIRST, F.PT_PART_A_LAST, F.PT_PART_A_EN].any (fun f => bits a f.lo f.width != s.rd f 0 p)
    || memFields.any fun f => bits m f.lo f.width != s.rd f 0 p

/-- XT_RCFG of every router follows the partition table (R450, R451). -/
def State.routerParts (s : State) : State :=
  (List.range 3072).foldl (fun s t =>
    match s.tilePart t with
    | some p => (s.wr F.XT_RCFG_PART p t).wr F.XT_RCFG_EN 1 t
    | none => (s.wr F.XT_RCFG_PART 0 t).wr F.XT_RCFG_EN 0 t) s

/-- Whether a table would give a partition to a client bound to a model other than a non-zero PT_MODEL (R453). -/
def State.partsMixed (s : State) (a : List Nat) : Bool :=
  let m := s.rd F.PT_MODEL_MODEL_ID
  m != 0 && a.any fun x => let c := bits x F.PT_PART_A_CLIENT.lo F.PT_PART_A_CLIENT.width
    bits x F.PT_PART_A_EN.lo F.PT_PART_A_EN.width == 1 && c != 0 && (s.boundModel c).any fun k => k != m

/-- SET_PARTITIONS (R451). -/
def State.setParts (s : State) (a m : List Nat) : Ran :=
  match partsBad a m with
  | some o => (s, some 3, o, [])
  | none =>
    let held (p : Nat) : Bool := (s.ctl.images.any fun i => i.part == p) || s.switching p
    if !s.inStates [2, 3] || s.partsMixed a || (List.range 4).any (fun p => s.partChanges p (a.getD p 0) (m.getD p 0) && held p) then badState s
    else
      let s := (List.range 4).foldl (fun s p =>
        let s := partFields.foldl (fun s f => s.wr f (bits (a.getD p 0) f.lo f.width) 0 p) s
        memFields.foldl (fun s f => s.wr f (bits (m.getD p 0) f.lo f.width) 0 p) s) s
      (s.routerParts.writeCaps, some 0, 0, [])

/-! ## STOP_GRID and HALT_TILE -/

/-- Partitions of a mask. -/
def maskParts (m : Nat) : List Nat := (List.range 4).filter fun p => m.testBit p

/-- A partition is stopped (R501): its tiles, its crossings, RUN and RESUMABLE. -/
def State.stopPart (s : State) (p : Nat) : State :=
  let s := (s.placed p).foldl (fun s t => s.stop t) s
  ((s.abandon fun q => q == p).setRun p false).setResumable p false

/-- STOP_GRID (R63, R501): the body holds the tiles that were running in each partition it stops; a slack ends with the
last running crossing. -/
def State.stopGrid (s : State) (m : Nat) : Ran :=
  if m = 0 ∨ 15 < m then (s, some 3, 0, [])
  else
    let ps := (maskParts m).filter s.run
    if !s.inStates [3, 4] || ps.isEmpty || (maskParts m).any s.switching then badState s
    else
      let n (p : Nat) : Nat := if ps.contains p then ((s.placed p).filter fun t => s.tstate t == 1).length else 0
      let s1 := ps.foldl (fun s p => s.stopPart p) s
      (if s1.hub.running.isEmpty then s1.endSlack else s1, some 0, 0, (List.range 4).flatMap fun p => leBytes (n p) 2)

/-- The halt record that HALT_TILE returns. -/
def State.haltBody (s : State) (t : Nat) : List Byte :=
  [0x80020, 0x80028, 0x80030, 0x80078].flatMap fun o => leBytes (s.read8 .tile t o) 8

/-- HALT_TILE (R502). -/
def State.haltTile (s : State) (t : Nat) : Ran :=
  if 3071 < t then (s, some 3, 0, [])
  else if !s.inStates [3, 4] || s.tstate t != 1 || (s.tilePart t).any s.switching then badState s
  else
    let s := s.stop t
    (s, some 0, 0, s.haltBody t)

/-! ## FENCE and UNFENCE -/

/-- The body of FENCE and UNFENCE: the fence generation. -/
def State.fenceBody (s : State) : List Byte := leBytes (s.rd F.FT_FENCE_GEN_GEN) 4 ++ leBytes 0 4

/-- FENCE or UNFENCE (R503, R543): refused, or queued at the fence block. -/
def State.fenceRun (s : State) (kind unit : Nat) (un : Bool) : Ran :=
  match s.fenceCode kind unit un with
  | 2 => (s, some 3, if kind > 2 then 0 else 2, [])
  | 0 => if s.inStates [2, 3, 4] then (s.fencePut kind unit un 1, none, 0, []) else badState s
  | _ => badState s

/-- RECLAIM_WALK_END (R543): FENCE completes where a command asked for this fence. -/
def State.walkDone (s : State) : State :=
  match s.fault.active with
  | none => s
  | some r =>
    let t := s.walkEnd
    if r.actor = 1 then t.finish 6 0 t.fenceBody else t

/-- UNFENCE_EXECUTE (R543, R547): UNFENCE completes where a command asked for it. -/
def State.unfenceDone (s : State) : State :=
  match s.fault.reqs with
  | [] => s
  | r :: _ =>
    let t := s.unfenceExecute
    if r.un && r.actor == 1 && s.fault.active.isNone then t.finish 7 0 t.fenceBody else t

/-! ## Commands -/

/-- SET_PARTITIONS (R451). -/
def execSetPartitions (partA partB : List (BitVec 64)) (s : State) : Host.Outcome State Fault Refusal :=
  let a := partA.map BitVec.toNat
  let m := partB.map BitVec.toNat
  .next (s.relayed 9 (fun x => x == (List.range 4).flatMap fun p => leBytes (a.getD p 0) 8 ++ leBytes (m.getD p 0) 8)
    fun s => s.setParts a m)

/-- STOP_GRID (R501). -/
def execStopGrid (pmask : BitVec 8) (s : State) : Host.Outcome State Fault Refusal :=
  .next (s.relayed 4 (fun a => a == leBytes pmask.toNat 1 ++ leBytes 0 7) fun s => s.stopGrid pmask.toNat)

/-- HALT_TILE (R502). -/
def execHaltTile (tile : BitVec 16) (s : State) : Host.Outcome State Fault Refusal :=
  .next (s.relayed 5 (fun a => a == leBytes tile.toNat 2 ++ leBytes 0 6) fun s => s.haltTile tile.toNat)

/-- FENCE (R503). -/
def execFenceCmd (kind : BitVec 8) (unit : BitVec 16) (s : State) : Host.Outcome State Fault Refusal :=
  .next (s.relayed 6 (fun a => a == leBytes kind.toNat 1 ++ leBytes 0 1 ++ leBytes unit.toNat 2 ++ leBytes 0 4)
    fun s => s.fenceRun kind.toNat unit.toNat false)

/-- UNFENCE (R503). -/
def execUnfence (kind : BitVec 8) (unit : BitVec 16) (s : State) : Host.Outcome State Fault Refusal :=
  .next (s.relayed 7 (fun a => a == leBytes kind.toNat 1 ++ leBytes 0 1 ++ leBytes unit.toNat 2 ++ leBytes 0 4)
    fun s => s.fenceRun kind.toNat unit.toNat true)

/-- RECLAIM_WALK_END (R545). -/
def execReclaimWalkEnd (s : State) : Host.Outcome State Fault Refusal := .next s.walkDone

/-- UNFENCE_EXECUTE (R547). -/
def execUnfenceExecute (s : State) : Host.Outcome State Fault Refusal := .next s.unfenceDone

end Sys2Proof.Machine
end

