-- ==== Sys2Proof/Machine/Switch.lean ====
section
/-! DEFINITION. Context switches (R131, R457–R463, R504) and DRAIN (R505). -/

namespace Sys2Proof.Machine

/-! ## Accounts and times -/

/-- A switch crossing moves a tile's scratchpad through its band's quay, charged to a client (R460, R464). -/
def State.chargeMove (s : State) (c t : Nat) (wr : Bool) : State :=
  let q := homeQuay t
  let s := if wr then s.inc F.Q_WR_BYTES_BYTES 0x60000 q else s.inc F.Q_RD_BYTES_BYTES 0x60000 q
  s.inc F.PT_ACC_QBYTES_BYTES 0x60000 0 (64 * c + q)

/-- Microseconds of the present phase of a switch. -/
def State.phaseUs (s : State) (x : Switch) : Nat := min 65535 ((s.tick - x.began) / 600)

/-- A switch goes to a phase. -/
def State.toPhase (s : State) (x : Switch) (n : Nat) : State :=
  (s.wr F.PT_SWITCH_PHASE n).upCtl fun c => { c with switch := some { x with phase := n, began := s.tick } }

/-- The mask of a switch's partitions. -/
def Switch.mask (x : Switch) : Nat := x.parts.foldl (fun n e => n ||| 2 ^ e.1) 0

/-! ## Beginning -/

/-- Whether every partition of a list stands at a boundary (R457, R504): one that does not run is at one. -/
def State.allAtBoundary (s : State) (ps : List (Nat × Nat)) : Bool := ps.all fun e => !s.run e.1 || s.partAtBoundary e.1

/-- The body of CONTEXT_SWITCH. -/
def State.switchBody (s : State) (outcome : Nat) : List Byte :=
  leBytes (s.read8 .dev 0 0x7048) 8 ++ leBytes (s.read8 .dev 0 0x7050) 8 ++ leBytes outcome 1 ++ leBytes 0 7

/-- The drain begins (R461): every placed tile is stopped, which abandons its SOWAIT; the grid clock is wanted. -/
def State.switchBegin (s : State) (ps : List (Nat × Nat)) (dev : Bool) (model : Nat) : State :=
  let x : Switch := { parts := ps, device := dev, model := model, phase := 1, began := s.tick }
  let s := ps.foldl (fun s e =>
    let s := s.noteBoundary e.1
    ((s.placed e.1).foldl (fun s t => s.stop t) s).wr F.PT_PART_A_SWITCHING 1 0 e.1) s
  let s := (s.wr F.PT_SWITCH_PARTS x.mask).wr F.PT_SWITCH_DEVICE (b2n dev)
  (s.upCtl fun c => { c with swWait := none }).gridStart.toPhase x 1

/-- Whether CONTEXT_SWITCH is refused for a partition and its incoming client (R504). -/
def State.switchBad (s : State) (dev : Bool) (model : Nat) (e : Nat × Nat) : Bool :=
  !s.partEn e.1 || !s.pinEn e.1 || s.switching e.1 || (match s.image e.1 e.2 with
    | none => true
    | some im => if dev then (s.ctl.images.any fun i => i.client == e.2 && i.model != model)
                 else im.model != s.rd F.PT_MODEL_MODEL_ID)

/-- Partitions that a CONTEXT_SWITCH names, with their incoming clients. -/
def State.switchParts (s : State) (m fl cl : Nat) : List (Nat × Nat) :=
  ((List.range 4).filter fun p => if fl.testBit 0 then s.partEn p else m.testBit p).map fun p => (p, bits cl (4 * p) 4)

/-- CONTEXT_SWITCH (R504): it begins, or waits for every named partition to reach a boundary. -/
def State.switchRun (s : State) (m fl cl model : Nat) : Ran :=
  let dev := fl.testBit 0
  let ps := s.switchParts m fl cl
  if ps.isEmpty || ps.any (fun e => e.2 == 0) then (s, some 3, if ps.isEmpty then 0 else 2, [])
  else if !s.inStates [2, 3] || s.ctl.swWait.isSome || s.ctl.switch.isSome || ps.any (s.switchBad dev model) then badState s
  else if s.allAtBoundary ps then (s.switchBegin ps dev model, none, 0, [])
  else (s.upCtl fun c => { c with swWait := some (m, fl, cl, model) }, none, 0, [])

/-- The landing supervisor's wait for boundaries goes on: the switch begins once all are reached. -/
def State.switchPoll (s : State) : State :=
  match s.ctl.swWait with
  | none => s
  | some (m, fl, cl, model) =>
    let ps := s.switchParts m fl cl
    if s.allAtBoundary ps then (s.switchBegin ps (fl.testBit 0) model).settle s else s

/-- SWITCH_BOUNDARY_WAIT_EXPIRE (R504): NO_BOUNDARY, unless every partition stands at one now. -/
def State.switchExpire (s : State) : State :=
  let s := s.switchPoll
  if s.ctl.swWait.isNone then s
  else
    let s := s.upCtl fun c => { c with swWait := none }
    s.finish 8 5 (s.switchBody 1)

/-! ## Phases -/

/-- Whether a tile has drained (R461). -/
def State.tileDrained (s : State) (t : Nat) : Bool :=
  let x := s.tile t
  s.matIdle t && x.sq.isEmpty && x.srun.isNone && s.mfIdle t && x.creds.isEmpty
    && !(List.range 16).any (fun c => s.credState t c == 1 || s.credState t c == 2)
    && !(List.range 24).any fun q => (s.quay q).pushQ.any (fun b => b.tile == t) || (s.quay q).pushes.any fun b => b.post.tile == t

/-- The switch slot of a tile takes the state record, whose layout no rule gives: free values (R458, R459). -/
def State.fillSlot (s : State) (t : Nat) : State :=
  (List.range 16).foldl (fun s i => s.drawn.setBytes (spad t (slotBase + 256 * i)) (leBytes (Config.rng s.free).toNat 256)) s

/-- SWITCH_DRAIN_COMPLETE (R461). -/
def State.switchDrained (s : State) : State :=
  match s.ctl.switch with
  | none => s
  | some x =>
    if x.phase ≠ 1 ∨ !(x.parts.all fun e => (s.placed e.1).all s.tileDrained) then s
    else
      let s := s.wr F.PT_SWITCH_TIME_DRAIN (s.phaseUs x)
      let s := x.parts.foldl (fun s e => (s.placed e.1).foldl (fun s t => s.fillSlot t) s) s
      s.toPhase x 2

/-- A save crossing writes a tile's scratchpad into the stripes that the partition's pin has on the tile's quay (R460),
at offsets that no rule gives; a pin that ends beyond the device takes none. -/
def State.saveBlocks (s : State) (p c t : Nat) : State :=
  let q := homeQuay t
  let n := s.rd F.QR_PIN_B_NSTRIPES 0 p * 64
  if n = 0 ∨ 2 ^ 20 < s.rd F.QR_PIN_B_SBASE 0 p + s.rd F.QR_PIN_B_NSTRIPES 0 p ∨ !(s.pinQuays p).contains q then s
  else
    let at0 := s.rd F.QR_PIN_B_SBASE 0 p * 4096
    let place := tileY t % 4 * 32 + tileX t % 32
    (List.range 6144).foldl (fun w i =>
      w.setBytes (gkey q (at0 + 64 * (Config.contextBlock c place i % n))) ((List.range 64).map fun j => s.byte (spad t (64 * i + j)))) s

/-- A partition's outgoing context is saved (R459, R460). -/
def State.saveContext (s : State) (p : Nat) : State :=
  let c := s.client p
  match s.image p c with
  | none => s
  | some im =>
    let ts := s.placed p
    let s := ts.foldl (fun s t => (s.saveBlocks p c t).chargeMove c t true) s
    let x : Context :=
      { part := p, client := c, tiles := ts.map s.capture, lost := im.tiles.filter s.tileFenced,
        bounds := (s.ctl.boundary.filter fun e => e.1 / 8192 == p).map fun e => e.1 % 8192, fresh := false }
    s.upCtl fun y => { y with contexts := (y.contexts.filter fun z => !(z.part == p && z.client == c)) ++ [x],
                              boundary := y.boundary.filter fun e => e.1 / 8192 != p }

/-- The setup of a partition (R169, R461): matrix state reset on its placed tiles, PT_PART.CLIENT set. -/
def State.setupPart (s : State) (p c : Nat) : State :=
  let ts := s.placed p ++ (match s.image p c with
    | some im => im.tiles
    | none => [])
  (s.matrixReset fun t => ts.contains t).wr F.PT_PART_A_CLIENT c 0 p

/-- SWITCH_SAVE_COMPLETE (R461): the save has ended; setup runs, and the restore starts. -/
def State.switchSaved (s : State) : State :=
  match s.ctl.switch with
  | none => s
  | some x =>
    if x.phase ≠ 2 then s
    else
      let old := s
      let s := s.wr F.PT_SWITCH_TIME_SAVE (s.phaseUs x)
      let s := x.parts.foldl (fun s e => s.saveContext e.1) s
      let s := x.parts.foldl (fun s e => s.setupPart e.1 e.2) s
      let s := (if x.device then s.wr F.PT_MODEL_MODEL_ID x.model else s).writeCaps
      ((s.wr F.PT_SWITCH_TIME_SETUP 0).toPhase x 4).settle old

/-- A restored tile (R461): its record in place; stopped at a boundary it reads HALTED, otherwise STOPPED. -/
def State.restoreTile (s : State) (x : Nat × List Host.Cell × Cells) (fresh : Bool) : State :=
  let s := s.putBack x
  let s := s.upTile x.1 fun y => { y with results := [], wait := 0, held := 0, soWait := none, qpost := none, atBar := false }
  s.wr F.T_STATUS_STATE (if !fresh && s.rd F.T_HALT_VALID x.1 == 1 then 2 else 0) x.1

/-- A partition's incoming context is restored, resumed where it was saved at a boundary; or it is lost (R461, R463):
the state, and whether it was restored. -/
def State.restorePart (s : State) (p c : Nat) : State × Bool :=
  let done := fun (s : State) => ((s.wr F.PT_PART_A_SWITCHING 0 0 p).setRun p false).setResumable p false
  let lose := fun (s : State) =>
    let s := (s.partTiles p).foldl (fun s t => if s.tstate t = 4 then s else s.wr F.T_STATUS_STATE 0 t) s
    (done ((s.dropImage p c).wr F.PT_PART_A_CLIENT 0 0 p), false)
  match s.ctl.contexts.find? fun x => x.part == p && x.client == c with
  | none => lose s
  | some x =>
    if !x.lost.isEmpty || x.tiles.any (fun e => s.tileFenced e.1) then lose s
    else
      let s := x.tiles.foldl (fun s e => (s.restoreTile e x.fresh).chargeMove c e.1 false) s
      let s := s.upCtl fun y => { y with contexts := y.contexts.filter fun z => !(z.part == p && z.client == c),
                                         boundary := x.bounds.foldl (fun m o => aput 0 m (p * 8192 + o) 1) y.boundary }
      let s := done s
      if x.fresh then (s, true)
      else (((x.tiles.map (·.1)).foldl (fun s t => s.resume t) s).meetBoundary p, true)

/-- A switch ends with a result (R463, R504): 0 DONE, 1 DRAIN_TIMEOUT, 2 CONTEXT_LOST. -/
def State.switchEnd (s : State) (r : Nat) : State :=
  let s := ((s.wr F.PT_SWITCH_RESULT r).wr F.PT_SWITCH_PHASE 0).inc F.PT_SWITCHES_COUNT 1
  let s := s.upCtl fun c => { c with switch := none }
  s.finish 8 (if r = 0 then 0 else 5) (s.switchBody 0)

/-- SWITCH_RESTORE_COMPLETE (R461, R463). -/
def State.switchRestored (s : State) : State :=
  match s.ctl.switch with
  | none => s
  | some x =>
    if x.phase ≠ 4 then s
    else
      let old := s
      let s := s.wr F.PT_SWITCH_TIME_RESTORE (s.phaseUs x)
      let (s, ok) := x.parts.foldl (fun (e : State × Bool) pc =>
        let (t, b) := e.1.restorePart pc.1 pc.2
        (t, e.2 && b)) (s, true)
      (s.switchEnd (if ok then 0 else 2)).settle old

/-- SWITCH_DRAIN_TIMEOUT (R463): nothing is saved, the outgoing client's tiles go on. -/
def State.switchTimeout (s : State) : State :=
  match s.ctl.switch with
  | none => s
  | some x =>
    if x.phase ≠ 1 then s
    else
      let old := s
      let s := s.wr F.PT_SWITCH_TIME_DRAIN (s.phaseUs x)
      let s := x.parts.foldl (fun s e =>
        let s := (s.placed e.1).foldl (fun s t => s.resume t) s
        (s.upCtl fun c => { c with boundary := c.boundary.filter fun b => b.1 / 8192 != e.1 }).wr F.PT_PART_A_SWITCHING 0 0 e.1) s
      (s.switchEnd 1).settle old

/-! ## DRAIN (R505) -/

/-- Whether a confluence engine still works. -/
def State.engBusy (s : State) (k : Nat) : Bool := (s.eng k).run.isSome || !(s.eng k).queue.isEmpty

/-- A drained partition is stopped at its boundary. -/
def State.drainPart (s : State) (p : Nat) : State :=
  let s := s.noteBoundary p
  ((((s.placed p).foldl (fun s t => s.stop t) s)).setRun p false).setResumable p true

/-- DRAIN has done all its work: its result. -/
def State.drainEnd (s : State) (forced aborts : Nat) : State :=
  let s := s.upCtl fun c => { c with drain := none }
  s.finish 0xB (if forced = 0 ∧ aborts = 0 then 0 else 5) (leBytes forced 1 ++ leBytes 0 1 ++ leBytes aborts 2 ++ leBytes 0 4)

/-- One look at how far DRAIN has come. -/
def State.drainOnce (s : State) : State :=
  match s.ctl.drain with
  | none => s
  | some 1 =>
    if s.roster.build.isSome ∨ s.roster.trig then s
    else (s.rosEnable false).upCtl fun c => { c with drain := some 2 }
  | some 2 =>
    let s := (List.range 4).foldl (fun s p => if s.run p && s.partAtBoundary p then s.drainPart p else s) s
    if (List.range 4).any s.run then s else s.upCtl fun c => { c with drain := some 3 }
  | some _ => if (List.range 12).any s.engBusy then s else s.drainEnd 0 0

/-- DRAIN goes on as far as it can. -/
def State.drainPoll (s : State) : State :=
  if s.ctl.drain.isNone then s else s.drainOnce.drainOnce.drainOnce.settle s

/-- DRAIN (R505). -/
def State.drainRun (s : State) : Ran :=
  if !s.inStates [2, 3] then badState s
  else (s.upCtl fun c => { c with drain := some 1 }, none, 0, [])

/-- DRAIN_LIMIT_EXPIRE (R505): the remaining work is ended by force. -/
def State.drainForce (s : State) : State :=
  match s.ctl.drain with
  | none => s
  | some _ =>
    let old := s
    let s := if s.roster.build.isSome then s.rosFinalize.publish else s
    let s := s.rosEnable false
    let s := (List.range 4).foldl (fun s p => if s.run p && s.partAtBoundary p then s.drainPart p else s) s
    let ps := (List.range 4).filter s.run
    let s := ps.foldl (fun s p => s.stopPart p) s
    let ks := (List.range 12).filter s.engBusy
    let s := ks.foldl (fun s k => s.cfAbort k) s
    let m (l : List Nat) : Nat := l.foldl (fun n i => n ||| 2 ^ i) 0
    (s.drainEnd (m ps) (m ks)).settle old

/-! ## Commands -/

/-- CONTEXT_SWITCH (R504). -/
def execContextSwitch (pmask flags : BitVec 8) (clients : BitVec 16) (wait : BitVec 32) (model : BitVec 64) (s : State) :
    Host.Outcome State Fault Refusal :=
  .next (s.relayed 8 (fun a => a == leBytes pmask.toNat 1 ++ leBytes flags.toNat 1 ++ leBytes clients.toNat 2
      ++ leBytes wait.toNat 4 ++ leBytes model.toNat 8)
    fun s => s.switchRun pmask.toNat flags.toNat clients.toNat model.toNat)

/-- SWITCH_BOUNDARY_WAIT_EXPIRE (R504). -/
def execSwitchBoundaryWaitExpire (s : State) : Host.Outcome State Fault Refusal := .next s.switchExpire

/-- SWITCH_DRAIN_COMPLETE (R461). -/
def execSwitchDrainComplete (s : State) : Host.Outcome State Fault Refusal := .next s.switchDrained

/-- SWITCH_DRAIN_TIMEOUT (R463). -/
def execSwitchDrainTimeout (s : State) : Host.Outcome State Fault Refusal := .next s.switchTimeout

/-- SWITCH_SAVE_COMPLETE (R461). -/
def execSwitchSaveComplete (s : State) : Host.Outcome State Fault Refusal := .next s.switchSaved

/-- SWITCH_RESTORE_COMPLETE (R461). -/
def execSwitchRestoreComplete (s : State) : Host.Outcome State Fault Refusal := .next s.switchRestored

/-- DRAIN (R505). -/
def execDrainCmd (limit : BitVec 32) (s : State) : Host.Outcome State Fault Refusal :=
  .next ((s.relayed 0xB (fun a => a == leBytes limit.toNat 4 ++ leBytes 0 4) fun s => s.drainRun).drainPoll)

/-- DRAIN_LIMIT_EXPIRE (R505). -/
def execDrainLimitExpire (s : State) : Host.Outcome State Fault Refusal := .next s.drainForce

end Sys2Proof.Machine
end

