-- ==== Sys2Proof/Machine/Module.lean ====
section
/-! DEFINITION. The module's pins, input, rails and resets (R22, R25–R32), and its power states OFF and DROWSE as the
management port commands them (R479–R481, R528, R529, R534). -/

namespace Sys2Proof.Machine

/-! ## What a reset or a loss of power leaves -/

/-- What the flash keeps of the trust state: its slots, counters and control block (R511–R514, R530). -/
def BootX.kept (b : BootX) : BootX :=
  { flash := b.flash, counters := b.counters, next := b.next, slotSt := b.slotSt, tries := b.tries, ctlSeq := b.ctlSeq,
    ownerGen := b.ownerGen, ownerKey := b.ownerKey, lens := b.lens }

/-- The module with everything lost that needs power or the pilot: the flash, the pins and the commands that wait
remain (R29, R31). -/
def State.bare (s : State) : State :=
  { State.reset with stepping := s.stepping, boot := s.boot.kept, pins := s.pins, free := s.free, pending := s.pending }

/-- The pins of a module whose rails 1 to 5 are down. -/
def Pins.railsDown (p : Pins) : Pins := { p with rails := 0, ramping := false, pwrGood := false }

/-- The switch opens (R31): everything loses power, STBY included. -/
def State.switchOpen (s : State) : State :=
  let s := s.bare.upPins fun p =>
    { p.railsDown with swClosed := false, stby := false, thermTrip := false, railFault := false, alert := false, ibi := 0,
                       inReset := false, filtering := false, bus := none }
  s.upCtl fun c => { c with base := 0 }

/-- Whether the hot-swap controller may close its switch (R22, R25). -/
def Pins.mayClose (p : Pins) : Bool := p.pinEn && !p.underV && !p.overV

/-- The switch closes where it may (R22, R25, R27): STBY comes up, the pilot in power-on reset. -/
def State.switchClose (s : State) : State :=
  if s.pins.swClosed || !s.pins.mayClose then s
  else (s.bare.upPins fun p => { p with swClosed := true, stby := true, inReset := true }).upCtl fun c => { c with base := 1 }

/-- The whole module is reset (R29): rails down, the pilot in reset. The latch of a rail fault is cleared (R28);
THERM_TRIP_N keeps its value while the module is in reset (R39). -/
def State.moduleReset (s : State) : State :=
  s.bare.upPins fun p =>
    { p.railsDown with inReset := true, filtering := false, railFault := false, alert := false, ibi := 0 }

/-- RESET_MODULE and restarts (R522, R529, R531): as MOD_RESET_N, but the fault log and the EID are kept, and
THERM_TRIP_N. The last answer of the management port has been given. -/
def State.restart (s : State) : State :=
  ((s.moduleReset.upFault fun x => { x with log := s.fault.log, nextSeq := s.fault.nextSeq }).upCtl fun c =>
    { c with eid := s.ctl.eid, mgmtOut := s.ctl.mgmtOut }).alertSync

/-- The module goes to OFF (R477, R479): rails fall; the pilot keeps its log, its management port and what POWER_SET
set. -/
def State.powerDown (s : State) : State :=
  let c0 := s.ctl
  let t := s.bare.upPins Pins.railsDown
  let t := t.upFault fun x => { x with log := s.fault.log, nextSeq := s.fault.nextSeq }
  let t := t.upPower fun p => { p with setLimit := s.power.setLimit, setGrant := s.power.setGrant, energy := s.power.energy,
                                       window := s.power.window, accounts := s.power.accounts }
  let t := t.upCtl fun c =>
    { c with base := 0, mgmt := c0.mgmt, mgmtOut := c0.mgmtOut, order := c0.order.filter (fun p => p == .management),
             eid := c0.eid, dyn := c0.dyn, mgNext := c0.mgNext, mgState := c0.mgState, spdm := c0.spdm.filter (fun e => e.1 == 0) }
  ({ t with tick := s.tick } : State).settle s

/-- Power comes back (R27, R479): BOOTING, the first rail ramps. -/
def State.powerUp (s : State) : State :=
  ((s.upPins fun p => { p with ramping := true }).upCtl fun c => { c with base := 1 }).settle s

/-! ## Input, pins and rails -/

/-- POWER_UP_START (R27, R29): MOD_RESET_N high for 100 µs with the switch closed: the pilot leaves reset and the rails
begin; while THERM_TRIP_N is low they stay disabled (R32), the module in OFF. -/
def State.powerUpStart (s : State) : State :=
  let p := s.pins
  if p.swClosed && p.resetN && !p.filtering && s.ctl.base == 1 && p.rails == 0 && !p.ramping then
    if p.thermTrip then ((s.upPins fun p => { p with inReset := false }).upCtl fun c => { c with base := 0 }).settle s
    else s.upPins fun p => { p with inReset := false, ramping := true }
  else s

/-- The pilot reads the cages (R37): FL_STATUS shows the cables it finds, and those of more than 1.5 W are reported. -/
def State.readCages (s : State) : State :=
  ((List.range 12).foldl (fun s k =>
    (s.wr F.FL_STATUS_CABLE (b2n (s.pins.cagePrs.testBit k)) k).wr F.FL_STATUS_LOWPOWER (b2n (s.pins.cageLpw.testBit k)) k) s).upCtl
      fun c => { c with unusable := s.pins.cageLpw }

/-- RAIL_RAMP_DONE (R27): the next rail; after the last PWR_GOOD rises, and the die is powered with its grid clock
stopped. A cable that was in its cage before is found there again (DEDUCED, log 147: R37 has the pilot read
PRSn). -/
def State.railDone (s : State) : State :=
  if !s.pins.ramping then s
  else
    let n := s.pins.rails + 1
    if n < 5 then s.upPins fun p => { p with rails := n }
    else ((s.upPins fun p => { p with rails := 5, ramping := false, pwrGood := true }).upPower fun x => { x with state := .idle }).grantSync.readCages

/-- A rail fails (R28): recorded, rails 1 to 5 disabled, the module off until a reset. -/
def State.railFail (s : State) (rail : Nat) : State :=
  ((s.event 9 7 0 0x0090 rail).powerDown.upPins fun p => { p with railFault := true }).alertSync

/-- THERMAL_TRIP (R32, R479): recorded, rails 1 to 5 disabled, THERM_TRIP_N low. No rule gives the record a rail: its
DATA is a free value. While the pilot is in reset the comparator acts alone. -/
def State.trip (s : State) : State :=
  if !s.pins.stby then s
  else if s.pins.inReset then s.upPins fun p => { p with thermTrip := true }
  else (((s.drawn.event 9 7 0 0x0091 (Config.rng s.free).toNat).powerDown).upPins fun p => { p with thermTrip := true }).alertSync

/-! ## DROWSE and WAKE -/

/-- A quay completes its work in progress, empties its write buffer and enters self-refresh (R335). -/
def State.quaySleep (s : State) (q : Nat) : State :=
  let x := s.quay q
  let s := (x.reserved ++ x.resWait).foldl (fun s r => s.qaccept q r)
    (s.upQuay q fun y => { y with reserved := [], resWait := [], forceTc := 0 })
  let s := (s.quay q).grads.foldl (fun s _ => s.gradAdd q .ok) s
  let s := (s.quay q).wab.foldl (fun s r => s.retire q r .ok) s
  let s := (s.quay q).reads.foldl (fun s _ => s.accessComplete q .ok) s
  ((s.upQuay q fun y => { y with wab := [], wback := [], bankTc := 0 }).wabSync q).wr F.Q_STATUS_SELFREF 1 q

/-- Whether DROWSE is accepted (R480). -/
def State.mayDrowse (s : State) : Bool :=
  s.modState == 2 && s.ctl.images.isEmpty && !(List.range 12).any s.engBusy

/-- DROWSE (R480): ports down, caches written back, the devices in self-refresh, VCORE down; scratchpad, roster and the
landing cores' state are lost. -/
def State.drowseEnter (s : State) : State :=
  let old := s
  let s := (List.range 12).foldl (fun s k => s.portDisable k) s
  let s := (s.cache.foldl (fun s l => if l.locked then s else s.cacheLine 3 l) s).rosEnable false
  let s := (List.range 24).foldl (fun s q => s.quaySleep q) s
  let s := s.dropMem fun a => decide (0x2000_0000_0000 ≤ a) && decide (a < 0x2000_C000_0000)
  let s := s.dropRf fun k => decide (0x3800_0040_0000 ≤ k / 64) && decide (k / 64 < 0x3800_0050_0000)
  let s := (List.range 16).foldl (fun s c => s.stopCore c) { s with cores := [] }
  let s := s.upBoot fun b => { b with landSeed := 0 }
  ((s.upPower fun p => { p with state := .drowse }).upCtl fun c => { c with base := 7 }).settle old

/-- The landing cores leave reset; core 0 starts in supervisor mode at landing SRAM offset 0 (R519). -/
def State.coreStart (s : State) : State :=
  ({ s with cores := [] }.wr F.L_STATUS_RUN 1 0).wr F.L_STATUS_SUPER 1 0

/-- Ports as a reset sets FL_CTL.EN: one that the guard switches off stays DISABLED (R431, R519, R524). -/
def State.portsOn (s : State) : State :=
  (List.range 12).foldl (fun s k =>
    (s.wr F.FL_CTL_EN 1 k).wr F.FL_STATUS_STATE (if aget 0 s.boot.portMode k = 0 then 0 else 1) k) s

/-- SHA-256 over the first FW_LEN bytes of landing SRAM (R534). -/
def State.sramHash (s : State) : Nat := beVal (sha256 (s.bytes sramBase s.boot.fwLen))

/-- WAKE with the retained supervisor intact (R335, R480): quays retrained, ports on, the landing generators seeded and
core 0 restarted; without entropy the landing cluster does not start (R150, R151). -/
def State.wakeUp (s : State) : State :=
  let old := s
  let s := (List.range 24).foldl (fun s q => (s.wr F.Q_STATUS_SELFREF 0 q).wr F.Q_STATUS_DEBT 0 q) s
  let s := (s.upPower fun p => { p with state := .idle }).upCtl fun c => { c with base := 2 }
  let s := s.grantSync.portsOn
  if s.boot.entropy then ((s.upBoot fun b => { b with landSeed := 0xFFFF }).coreStart).settle old
  else (s.settle old).outOfService 7 0 0x0036 0

/-- A full boot instead (R534): the die as after a reset with its rails up, the pilot's log and management port kept. -/
def State.wakeBoot (s : State) : State :=
  let t := s.powerDown
  let t := t.upPins fun p => { p with rails := 5, pwrGood := true }
  ((t.upPower fun p => { p with state := .idle }).upCtl fun c => { c with base := 1 }).readCages.settle s

/-! ## Commands of the management port -/

/-- A management command that has no arguments, carried out where the port asks for it, else of the pilot's own. -/
def State.managed (s : State) (op : Nat) (run : State → Ran) : State := s.serve op (fun _ => true) run

/-- DROWSE. An ACTIVE grid with nothing to do goes to IDLE first. -/
def State.drowseRun (s : State) : Ran :=
  let s1 := s.idleEntry
  if s.mayDrowse && s1.power.state == .idle then (s1.drowseEnter, some 0, 0, []) else badState s

/-- WAKE. -/
def State.wakeRun (s : State) : Ran :=
  if s.ctl.base ≠ 7 then badState s
  else if s.sramHash = s.boot.fwHash then (s.wakeUp, some 0, 0, [])
  else (s.wakeBoot, some 5, 0, [])

/-- Whether a held POWER_SET is refused for the present state (R528). -/
def State.powerBad (s : State) (fl : Nat) : Bool :=
  let off := s.modState == 0
  (fl.testBit 2 && off) || (fl.testBit 3 && (!off || s.pins.railFault || s.pins.thermTrip || !s.pins.swClosed))

/-- A part of POWER_SET (bit of FLAGS): in order of the bits for the command that asks for it, else of the pilot's own.
A part that the state has come to refuse since the first (a rail fault, R28) ends the command. -/
def State.powerPart (s : State) (bit : Nat) (ok : List Byte → Bool) (act : State → State) : State :=
  match s.heldOn .management with
  | some h =>
    if h.op ≠ 0x20 ∨ h.result.isSome then s
    else if s.powerBad (if h.began then h.left else byteAt h.args 0) then s.reply .management 1 0 []
    else if !h.left.testBit bit || h.left % 2 ^ bit != 0 || !ok h.args then s
    else
      let t := act s
      let t := t.setHeld .management (some { h with began := true, left := h.left - 2 ^ bit })
      if h.left = 2 ^ bit then t.reply .management 0 0 (leBytes (t.read8 .dev 0 0x3200) 8) else t
  | none => if s.powerBad (2 ^ bit) then s else act s

/-! ## Commands -/

/-- PIN_EN_MATE (R25). -/
def execPinEnMate (s : State) : Host.Outcome State Fault Refusal :=
  .next (s.upPins fun p => { p with pinEn := true }).switchClose

/-- PIN_EN_BREAK (R25, R31). -/
def execPinEnBreak (s : State) : Host.Outcome State Fault Refusal :=
  .next (s.upPins fun p => { p with pinEn := false }).switchOpen

/-- INPUT_UNDERVOLTAGE (R22, R31). -/
def execInputUndervoltage (s : State) : Host.Outcome State Fault Refusal :=
  .next (s.upPins fun p => { p with underV := true }).switchOpen

/-- INPUT_UVLO_RELEASE (R22). -/
def execInputUvloRelease (s : State) : Host.Outcome State Fault Refusal :=
  .next (s.upPins fun p => { p with underV := false }).switchClose

/-- INPUT_OVERVOLTAGE (R22, R31). -/
def execInputOvervoltage (s : State) : Host.Outcome State Fault Refusal :=
  .next (s.upPins fun p => { p with overV := true }).switchOpen

/-- OVERVOLTAGE_RECOVERY (R22). -/
def execOvervoltageRecovery (s : State) : Host.Outcome State Fault Refusal :=
  .next (s.upPins fun p => { p with overV := false }).switchClose

/-- MOD_RESET_ASSERT (R29): the filter starts. -/
def execModResetAssert (s : State) : Host.Outcome State Fault Refusal :=
  .next (s.upPins fun p => { p with resetN := false, filtering := p.resetN || p.filtering })

/-- MOD_RESET_FILTER_EXPIRE (R29, R30). -/
def execModResetFilterExpire (s : State) : Host.Outcome State Fault Refusal :=
  .next (if s.pins.filtering && !s.pins.resetN && s.pins.swClosed then s.moduleReset else s)

/-- MOD_RESET_RELEASE (R29): a filter that runs is cancelled; the end of a pulse that reset the module clears
THERM_TRIP_N (R32). -/
def execModResetRelease (s : State) : Host.Outcome State Fault Refusal :=
  .next (s.upPins fun p =>
    { p with resetN := true, filtering := false, thermTrip := p.thermTrip && !(p.inReset && !p.resetN && !p.filtering) })

/-- POWER_UP_START (R27). -/
def execPowerUpStart (s : State) : Host.Outcome State Fault Refusal := .next s.powerUpStart

/-- RAIL_RAMP_DONE (R27). -/
def execRailRampDone (s : State) : Host.Outcome State Fault Refusal := .next s.railDone

/-- RAIL_RAMP_TIMEOUT (R28). -/
def execRailRampTimeout (s : State) : Host.Outcome State Fault Refusal :=
  .next (if s.pins.ramping then s.railFail (s.pins.rails + 1) else s)

/-- RAIL_FAULT (R28): of an enabled rail, with the pilot out of reset. -/
def execRailFault (rail : Fin 6) (s : State) : Host.Outcome State Fault Refusal :=
  .next (if s.pins.stby && !s.pins.inReset && decide (rail.val ≤ s.pins.rails) then s.railFail rail.val else s)

/-- THERMAL_TRIP (R32). -/
def execThermalTrip (s : State) : Host.Outcome State Fault Refusal := .next s.trip

/-- POWER_SET_LIMIT (R468, R528). -/
def execPowerSetLimit (limit : BitVec 16) (s : State) : Host.Outcome State Fault Refusal :=
  .next (s.powerPart 0 (fun a => leAt a 2 2 == limit.toNat) fun s =>
    if limitOk limit.toNat then (s.upPower fun p => { p with setLimit := limit.toNat }).grantSync else s)

/-- POWER_SET_GRANT (R468, R528). -/
def execPowerSetGrant (grant : BitVec 16) (s : State) : Host.Outcome State Fault Refusal :=
  .next (s.powerPart 1 (fun a => leAt a 4 2 == grant.toNat) fun s =>
    if 300 ≤ grant.toNat ∧ grant.toNat ≤ s.limitNow then (s.upPower fun p => { p with setGrant := grant.toNat }).grantSync else s)

/-- POWER_OFF (R479, R528). -/
def execPowerOff (s : State) : Host.Outcome State Fault Refusal := .next (s.powerPart 2 (fun _ => true) State.powerDown)

/-- POWER_ON (R479, R528). -/
def execPowerOn (s : State) : Host.Outcome State Fault Refusal := .next (s.powerPart 3 (fun _ => true) State.powerUp)

/-- RESET_MODULE (R494, R529): refused while THERM_TRIP_N is low; the reset follows the response. -/
def execResetModule (port : CmdPort) (s : State) : Host.Outcome State Fault Refusal :=
  .next (if !s.asked port 0x21 (leBytes 0 8) then s
    else if s.pins.thermTrip then s.reply port 1 0 []
    else (s.reply port 0 0 []).upCtl fun c => { c with resetReq := true })

/-- COMMAND_COMPLETE (R489): the response is written; a restart that waits for it follows (R529, R531). -/
def execCommandComplete (port : CmdPort) (s : State) : Host.Outcome State Fault Refusal :=
  let t := s.complete port
  .next (if t.ctl.resetReq && t.ctl.mgmt.isNone then t.restart else t)

/-- DROWSE (R480). -/
def execDrowse (s : State) : Host.Outcome State Fault Refusal := .next (s.managed 0x24 State.drowseRun)

/-- WAKE (R481, R534). -/
def execWake (s : State) : Host.Outcome State Fault Refusal := .next (s.managed 0x25 State.wakeRun)

end Sys2Proof.Machine
end

