-- ==== Sys2Proof/Machine/Boot.lean ====
section
/-! DEFINITION. Start-up and trust (R309, R511–R524, R530, R531): the flash's image slots, the checks of an image, the
boot sequence, trial and commit, boot failures, staging and activation. -/

namespace Sys2Proof.Machine

/-! ## The image in a slot -/

/-- The flash address of a slot (R511). -/
def slotAt (n : Nat) : Nat := if n = 0 then 0x20_0000 else 0x210_0000

/-- The bytes of a slot (R511). -/
def slotSize : Nat := 0x1F0_0000

/-- One of a pair kept for slots A and B. -/
def slotOf (p : Nat × Nat) (n : Nat) : Nat := if n = 0 then p.1 else p.2

/-- A pair with slot n's entry set. -/
def slotPut (p : Nat × Nat) (n v : Nat) : Nat × Nat := if n = 0 then (v, p.2) else (p.1, v)

/-- One byte of the flash: an erased byte reads 0xFF. -/
def BootX.fbyte (b : BootX) (a : Nat) : Byte := aget 0xFF#8 b.flash a

/-- n bytes of a slot from an offset. -/
def BootX.fbytes (b : BootX) (n off len : Nat) : List Byte := (List.range len).map fun i => b.fbyte (slotAt n + off + i)

/-- An n-byte little-endian field of a slot's header (R515). -/
def BootX.hdr (b : BootX) (n off len : Nat) : Nat := leVal (b.fbytes n off len)

/-- FW_LEN of a slot's image. -/
def BootX.fwLenOf (b : BootX) (n : Nat) : Nat := b.hdr n 0x00C 4
/-- CFG_LEN of a slot's image. -/
def BootX.cfgLenOf (b : BootX) (n : Nat) : Nat := b.hdr n 0x034 4
/-- The bytes of a whole image (R515). -/
def BootX.imageLen (b : BootX) (n : Nat) : Nat := 0x1000 + b.fwLenOf n + b.cfgLenOf n
/-- The firmware part (R515). -/
def BootX.fwPart (b : BootX) (n : Nat) : List Byte := b.fbytes n 0x1000 (b.fwLenOf n)
/-- The configuration part (R515). -/
def BootX.cfgPart (b : BootX) (n : Nat) : List Byte := b.fbytes n (0x1000 + b.fwLenOf n) (b.cfgLenOf n)
/-- OWNER_KEY of a slot's image. -/
def BootX.keyOf (b : BootX) (n : Nat) : Nat := beVal (b.fbytes n 0x060 64)
/-- FW_SVN of a slot's image. -/
def BootX.fwSvnOf (b : BootX) (n : Nat) : Nat := b.hdr n 0x008 4
/-- CFG_SVN of a slot's image. -/
def BootX.cfgSvnOf (b : BootX) (n : Nat) : Nat := b.hdr n 0x030 4

/-- Whether the header breaks FORMAT (R515, R517). -/
def BootX.formatBad (b : BootX) (n : Nat) : Bool :=
  let f := b.fwLenOf n
  let g := b.cfgLenOf n
  b.hdr n 0 4 != 0x49545242 || b.hdr n 4 2 != 0x0100 || b.hdr n 6 2 != 0 || b.hdr n 0x038 8 != 0
    || (b.fbytes n 0x160 3744).any (fun x => x != 0)
    || f % 4096 != 0 || decide (f < 65536) || decide (2 ^ 24 < f) || g % 4096 != 0 || decide (slotSize < b.imageLen n)

/-- The first module entry's offset in a configuration part (R516). -/
def modBase (c : List Byte) : Nat := (0x1840 + 4 * leAt c 0x0A 2 + 63) / 64 * 64

/-- DSTMAPk of a configuration part, endpoint e at bit e (R516). -/
def dstMapOf (c : List Byte) (k : Nat) : Nat := leAt c (0x40 + 512 * k) 512

/-- The ingest endpoints of a configuration part (R516). -/
def ingestOf (c : List Byte) : List Nat := (List.range (leAt c 0x0A 2)).map fun i => leAt c (0x1840 + 4 * i) 4

/-- The module entries of a configuration part (R516): 64 bytes each. -/
def modEntries (c : List Byte) : List (List Byte) :=
  (List.range (leAt c 0x08 2)).map fun i => (c.drop (modBase c + 64 * i)).take 64

/-- Whether a list names something twice. -/
def repeats : List Nat → Bool
  | [] => false
  | a :: r => r.contains a || repeats r

/-- Whether a module entry is out of range: MODNUM, its reserved bytes, a PEER. -/
def entryBad (c e : List Byte) : Bool :=
  decide (2047 < leAt e 32 2) || leAt e 34 2 != 0 || leAt e 60 4 != 0 || decide (e.length < 64)
    || (List.range 12).any fun k =>
        let p := leAt e (36 + 2 * k) 2
        if leAt c (0x10 + 4 * k) 4 == 1 then decide (4094 < p) else p != 0xFFFF

/-- Whether a configuration part breaks CONFIG (R516, R517). -/
def cfgBad (c : List Byte) : Bool :=
  let nm := leAt c 0x08 2
  let ni := leAt c 0x0A 2
  leAt c 0 8 == 0 || nm == 0 || decide (2048 < nm) || decide (256 < ni) || decide (1 < leAt c 0x0C 4)
    || (List.range 12).any (fun k => decide (2 < leAt c (0x10 + 4 * k) 4))
    || decide (c.length < modBase c + 64 * nm)
    || (ingestOf c).any (fun e => decide (e < 2048) || decide (4094 < e) || !(List.range 12).any fun k => (dstMapOf c k).testBit e)
    || (modEntries c).any (entryBad c) || repeats ((modEntries c).map fun e => leAt e 32 2)

/-- The verification code of a slot's image from check 0x02 on (R517). -/
def BootX.verifyFrom2 (b : BootX) (n : Nat) : Nat :=
  let sig := fun (o : Nat) => beVal (b.fbytes n o 64)
  let dig := fun (l : List Byte) => beVal (sha256 l)
  if b.formatBad n then 2
  else if dig (b.fwPart n) ≠ beVal (b.fbytes n 0x010 32) then 3
  else if !Config.romKeyOk 1 (dig (b.fbytes n 0 0x30)) (sig 0x0A0) then 4
  else if dig (b.cfgPart n) ≠ beVal (b.fbytes n 0x040 32) then 5
  else if b.ownerKey ≠ 0 ∧ b.keyOf n ≠ b.ownerKey ∧ !Config.ecdsaOk b.ownerKey (dig (b.fbytes n 0x060 64)) (sig 0x120) then 6
  else if !Config.ecdsaOk (b.keyOf n) (dig (b.fbytes n 0 0xA0)) (sig 0x0E0) then 7
  else if b.fwSvnOf n < b.counters.1 ∨ b.cfgSvnOf n < b.counters.2.1 then 8
  else if cfgBad (b.cfgPart n) then 9
  else 0

/-- Whether a slot's state lets it be verified (R517 check 0x01). -/
def BootX.slotReady (b : BootX) (n : Nat) : Bool := let st := slotOf b.slotSt n; st == 2 || st == 3 || st == 4

/-- The verification code of a slot's image (R517). -/
def BootX.verifySlot (b : BootX) (n : Nat) : Nat :=
  if !b.slotReady n ∨ slotOf b.lens n < b.imageLen n then 1 else b.verifyFrom2 n

/-! ## The control block -/

/-- An update of the control block (R514): the other copy is written with SEQ + 1. -/
def State.ctlBlock (s : State) (f : BootX → BootX) : State := s.upBoot fun b => { f b with ctlSeq := b.ctlSeq + 1 }

/-- A slot's state is written. -/
def State.setSlot (s : State) (n st : Nat) : State := s.ctlBlock fun b => { b with slotSt := slotPut b.slotSt n st }

/-! ## Boot -/

/-- The verification code that a boot failure records for a slot: INCOMPLETE for one that could not be read. -/
def BootX.failCode (b : BootX) (n : Nat) : Nat :=
  let v := slotOf b.verify n
  if v = 0 ∧ !b.slotReady n then (if slotOf b.slotSt n = 5 then 0 else 1) else v

/-- A boot that cannot complete (R523): the module stays in BOOTING, its landing cluster in reset, its ports DISABLED. -/
def State.bootFail (s : State) (c : Nat) : State :=
  let s := (s.upBoot fun b => { b with failed := some c, booted := none }).event 10 7 0 (0x100 + c)
    (s.boot.failCode 0 + 256 * s.boot.failCode 1)
  let s := (List.range 12).foldl (fun s k => s.portDisable k) s
  (List.range 16).foldl (fun s c => s.stopCore c) s

/-- The other slot is booted where it is VALID (R520). -/
def State.bootOther (s : State) (n : Nat) : State :=
  if slotOf s.boot.slotSt (1 - n) = 4 then
    (s.ctlBlock fun b => { b with next := 1 - n }).upBoot fun b => { b with booted := some (1 - n), step := 4 }
  else s.bootFail 6

/-- The slot of this boot is chosen (R520). -/
def State.chooseSlot (s : State) : State :=
  let n := s.boot.next
  match slotOf s.boot.slotSt n with
  | 3 =>
    if s.boot.tries = 3 then (s.setSlot n 5).bootOther n
    else (s.ctlBlock fun b => { b with tries := b.tries + 1 }).upBoot fun b => { b with booted := some n, step := 4 }
  | 4 => s.upBoot fun b => { b with booted := some n, step := 4 }
  | _ => s.bootOther n

/-- Whether the boot ROM may start: the pilot is out of reset and has not booted. -/
def State.bootable (s : State) : Bool := s.mgmtUp && s.ctl.base == 1 && s.boot.step == 0 && s.boot.failed.isNone

/-- BOOT_ROM_START: steps 1 to 3 (R518–R520). -/
def State.bootRom (s : State) (ok : BootCheck) : State :=
  if !s.bootable then s
  else if !ok.recordOk then s.bootFail 3
  else if !ok.identityOk then s.bootFail 2
  else if !ok.steppingOk then s.bootFail 4
  else if s.boot.ownerGen ≠ s.boot.counters.2.2 then s.bootFail 5
  else s.chooseSlot

/-- A trial boot that fails (R522): the slot INVALID, NEXT the other one, the module restarted. -/
def State.trialFails (s : State) (n : Nat) : State :=
  ((s.setSlot n 5).ctlBlock fun b => { b with next := 1 - n }).restart

/-- The guard's values, what the image carries and the firmware in landing SRAM (R519 steps 4 to 7, R524), and core 0
released. -/
def State.bootImage (s : State) (n : Nat) (e : List Byte) : State :=
  let b := s.boot
  let c := b.cfgPart n
  let cells := fun (f : Nat → Nat) => (List.range 12).foldl (fun m k => aput 0 m k (f k)) ([] : Cells)
  let s := s.wr F.L_CFG_LSRAM ((b.fwLenOf n + 2 ^ 20 - 1) / 2 ^ 20)
  let s := s.setBytes sramBase (b.fwPart n)
  let s := s.upBoot fun x =>
    { x with guard := true, sysid := leAt c 0 8, modnum := leAt e 32 2, portMode := cells fun k => leAt c (0x10 + 4 * k) 4,
             dstMap := cells (dstMapOf c), portPeer := cells fun k => leAt e (36 + 2 * k) 2, ingest := ingestOf c,
             debug := (leAt c 0x0C 4).testBit 0, fwLen := b.fwLenOf n, fwSvn := b.fwSvnOf n, cfgSvn := b.cfgSvnOf n,
             fwDigest := b.hdr n 0x010 32, cfgDigest := b.hdr n 0x040 32, landSeed := 0xFFFF, step := 8 }
  s.portsOn.coreStart

/-- IMAGE_STREAM_COMPLETE: steps 4 to 7 (R519, R520, R522). -/
def State.streamDone (s : State) : State :=
  match s.boot.booted with
  | none => s
  | some n =>
    if s.boot.step ≠ 4 then s
    else
      let trial := slotOf s.boot.slotSt n == 3
      let code := s.boot.verifyFrom2 n
      let s := s.upBoot fun b => { b with verify := slotPut b.verify n code }
      if code ≠ 0 then (if trial then s.trialFails n else (s.setSlot n 5).bootOther n)
      else
        match (modEntries (s.boot.cfgPart n)).find? fun e => beVal (e.take 32) == Config.identityHash.toNat with
        | none => if trial then s.trialFails n else s.bootFail 7
        | some e => if !s.boot.entropy then s.bootFail 1 else s.bootImage n e

/-- The commit of a trial boot (R521 step 1). -/
def State.commitTrial (s : State) (n : Nat) : State :=
  s.ctlBlock fun b =>
    let key := b.keyOf n
    let o := 1 - n
    let low := decide (b.fwSvnOf o < b.fwSvnOf n) || decide (b.cfgSvnOf o < b.cfgSvnOf n)
    let st := slotPut b.slotSt n 4
    { b with slotSt := if low then slotPut st o 5 else st, tries := 0, ownerKey := key,
             ownerGen := if key = b.ownerKey then b.ownerGen else (b.ownerGen + 1) % 2 ^ 32 }

/-- The counters are raised to the booted image's values (R521 step 2). -/
def State.raiseCounters (s : State) : State :=
  s.upBoot fun b => { b with counters := (max b.counters.1 b.fwSvn, max b.counters.2.1 b.cfgSvn, b.ownerGen) }

/-- SUPERVISOR_READY: steps 8 and 9 (R519, R521, R534), once every quay is trained (R309). -/
def State.supReady (s : State) : State :=
  match s.boot.booted with
  | none => s
  | some n =>
    if s.boot.step ≠ 8 ∨ s.boot.failed.isSome ∨ s.ctl.base ≠ 1 ∨ !(List.range 24).all (fun q => s.boot.quayUp.contains q) then s
    else
      let old := s
      let s := s.upBoot fun b => { b with fwHash := s.sramHash, step := 9 }
      let s := if slotOf s.boot.slotSt n = 3 then s.commitTrial n else s
      (s.raiseCounters.upCtl fun c => { c with base := 2 }).settle old

/-- Step 8 fails with a code (R522, R523): a trial boot gives its slot up, another stays in BOOTING. A device that does
not train fails step 8, which waits for it, as soon as a slot is chosen (DEDUCED, log 163). -/
def State.waitFails (s : State) (c : Nat) : State :=
  match s.boot.booted with
  | none => s.bootFail c
  | some n => if slotOf s.boot.slotSt n = 3 then s.trialFails n else s.bootFail c

/-- SUPERVISOR_READY_TIMEOUT (R522, R523). -/
def State.supTimeout (s : State) : State :=
  if s.boot.booted.isNone ∨ s.boot.step ≠ 8 ∨ s.boot.failed.isSome then s else s.waitFails 9

/-- QUAY_LINK_TRAIN (R309): the device's blocks are written with zeros; a failure fails the boot. -/
def State.quayTrain (s : State) (q : Nat) (ok : Bool) : State :=
  if s.ctl.base ≠ 1 ∨ !s.pins.pwrGood then s
  else if !ok then (if s.boot.failed.isSome then s else s.waitFails 8)
  else
    let s := s.dropMem fun a => decide (a < 0x18_0000_0000) && (qmap a).1 == q
    (s.upBoot fun b => { b with quayUp := q :: b.quayUp.filter fun x => x != q }).wr F.Q_STATUS_TRAINED 1 q

/-- ENTROPY_HEALTH_FAIL (R151): a module still in BOOTING does not leave it, a start that waits for seeding goes out of
service. -/
def State.entropyFail (s : State) : State :=
  let s := s.upBoot fun b => { b with entropy := false }
  if s.ctl.base = 1 ∧ s.boot.step = 8 ∧ s.boot.failed.isNone then s.waitFails 1
  else if s.power.state == .starting then s.outOfService 7 0 0x0036 0 else s

/-! ## Staging and activation -/

/-- Whether the module is in BOOTING after a boot failure (R523). -/
def State.bootFailed (s : State) : Bool := s.ctl.base == 1 && s.boot.failed.isSome

/-- STAGE_IMAGE's body (R528). -/
def State.stageBody (s : State) (n code : Nat) : List Byte :=
  leBytes code 1 ++ leBytes (slotOf s.boot.slotSt n) 1 ++ leBytes 0 2 ++ leBytes (slotOf s.boot.lens n) 4

/-- Data written into a slot in order (R530). -/
def State.putFlash (s : State) (n off : Nat) (d : List Byte) : State :=
  s.upBoot fun b =>
    { b with flash := (List.range d.length).foldl (fun m i => aput 0xFF#8 m (slotAt n + off + i) (d.getD i 0)) b.flash,
             lens := slotPut b.lens n (off + d.length), staged := some (n, off + d.length) }

/-- A slot's earlier contents are lost (R530 FIRST). -/
def State.eraseSlot (s : State) (n : Nat) : State :=
  s.upBoot fun b =>
    { b with flash := b.flash.filter fun e => !(decide (slotAt n ≤ e.1) && decide (e.1 < slotAt n + slotSize)),
             lens := slotPut b.lens n 0 }

/-- The code of a read-back at LAST (R530): the checks of R517 but INCOMPLETE, over what was staged. What an image that
runs beyond the bytes staged reads there is lost contents: its code is a free value. -/
def State.readBack (s : State) (n : Nat) : State × Nat :=
  let b := s.boot
  let len := slotOf b.lens n
  if 4096 ≤ len ∧ b.formatBad n then (s, 2)
  else if b.imageLen n ≤ len then (s, b.verifyFrom2 n)
  else
    let c := (Config.rng s.free).toNat % 9
    (s.drawn, if c = 0 then 0 else c + 1)

/-- STAGE_IMAGE carried out (R528, R530): the state, its RESULT and body. -/
def State.stageRun (s : State) (n flags off : Nat) (d : List Byte) : Ran :=
  let st := s.modState
  let okState := (decide (2 ≤ st) && decide (st ≤ 5)) || st == 8 || s.bootFailed
  let first := flags.testBit 0
  let goesOn := slotOf s.boot.slotSt n == 1 && s.boot.staged == some (n, off)
  if !okState || s.boot.booted == some n || (!first && !goesOn) then (s, some 1, 0, [])
  else
    let s := if first then (s.eraseSlot n).setSlot n 1 else s
    let s := s.putFlash n off d
    if flags.testBit 1 then
      let (s, code) := s.readBack n
      let s := s.setSlot n (if code = 0 then 2 else 5)
      let s := s.upBoot fun b => { b with staged := none }
      (s, some (if code = 0 then 0 else 5), 0, s.stageBody n code)
    else (s.drawn, some 0, 0, s.stageBody n (Config.rng s.free).toNat)

/-- ACTIVATE_IMAGE carried out (R531). -/
def State.activateRun (s : State) (n : Nat) : Ran :=
  let old := s
  let st := slotOf s.boot.slotSt n
  if !(s.modState == 2 || s.bootFailed) || !(st == 2 || st == 4) || s.boot.booted == some n || s.ctl.control.isSome then
    (s, some 1, 0, [])
  else
    let code := s.boot.verifySlot n
    let s := if s.bootFailed then s else (s.upCtl fun c => { c with updating := true }).settle old
    let s :=
      if code = 0 then
        s.ctlBlock fun b => { b with next := n, slotSt := if st = 2 then slotPut b.slotSt n 3 else b.slotSt, tries := 0 }
      else s.setSlot n 5
    let s := s.upCtl fun c => { c with resetReq := true }
    (s, some (if code = 0 then 0 else 5), 0, leBytes code 1 ++ leBytes 0 7)

/-! ## Commands -/

/-- QUAY_LINK_TRAIN (R309). -/
def execQuayLinkTrain (q : QuayId) (ok : Bool) (s : State) : Host.Outcome State Fault Refusal := .next (s.quayTrain q.val ok)

/-- BOOT_ROM_START (R519). -/
def execBootRomStart (ok : BootCheck) (s : State) : Host.Outcome State Fault Refusal := .next (s.bootRom ok)

/-- ENTROPY_HEALTH_FAIL (R151). -/
def execEntropyHealthFail (s : State) : Host.Outcome State Fault Refusal := .next s.entropyFail

/-- IMAGE_STREAM_COMPLETE (R519). -/
def execImageStreamComplete (s : State) : Host.Outcome State Fault Refusal := .next s.streamDone

/-- SUPERVISOR_READY (R519). -/
def execSupervisorReady (s : State) : Host.Outcome State Fault Refusal := .next s.supReady

/-- SUPERVISOR_READY_TIMEOUT (R523). -/
def execSupervisorReadyTimeout (s : State) : Host.Outcome State Fault Refusal := .next s.supTimeout

/-- Arguments of STAGE_IMAGE (R528). -/
def stageArgs (slot flags off : Nat) (d : List Byte) : List Byte :=
  leBytes slot 1 ++ leBytes flags 1 ++ leBytes d.length 2 ++ leBytes off 4 ++ leBytes 0 8 ++ d

/-- A command of the management port that the pilot carries out where it is asked for it. -/
def State.pilotRun (s : State) (op : Nat) (args : List Byte) (run : State → Ran) : State :=
  if !s.asked .management op args then s
  else
    let (t, r, d, b) := run s
    t.reply .management (r.getD 0) d b

/-- STAGE_IMAGE (R530). -/
def execStageImage (slot flags : BitVec 8) (off : BitVec 32) (data : List (BitVec 8)) (s : State) :
    Host.Outcome State Fault Refusal :=
  .next (s.pilotRun 0x22 (stageArgs slot.toNat flags.toNat off.toNat data) fun s => s.stageRun slot.toNat flags.toNat off.toNat data)

/-- ACTIVATE_IMAGE (R531). -/
def execActivateImage (slot : BitVec 8) (s : State) : Host.Outcome State Fault Refusal :=
  .next (s.pilotRun 0x23 (leBytes slot.toNat 8) fun s => s.activateRun slot.toNat)

end Sys2Proof.Machine
end

