-- ==== Sys2Proof/Machine/Spdm.lean ====
section
/-! DEFINITION. The pilot as an MCTP endpoint and an SPDM responder (R525, R532, R533), and the reports of the two
buses (R19, R525). The message layouts are those of DSP0236 and DSP0274, which R525 and R532 name: PRESUMED (log 88). -/

namespace Sys2Proof.Machine

/-! ## MCTP control commands -/

/-- An answer to an MCTP control command: command code, completion code, data. -/
def State.mctpAnswer (s : State) (b : List Byte) : State := s.upCtl fun c => { c with mctpOut := b }

/-- Set Endpoint ID (R525): the null EID and the broadcast EID are no endpoint's. -/
def State.setEid (s : State) (e : Nat) : State :=
  if !s.mgmtUp then s
  else if e = 0 ∨ e = 0xFF then s.onBus.mctpAnswer [1, 2]
  else (s.onBus.upCtl fun c => { c with eid := e }).mctpAnswer [1, 0, 0, BitVec.ofNat 8 e, 0]

/-- Get Endpoint ID (R525). -/
def State.getEid (s : State) : State :=
  if !s.mgmtUp then s else s.onBus.mctpAnswer [2, 0, BitVec.ofNat 8 s.ctl.eid, 0, 0]

/-- Get MCTP Version Support (R525): one entry, whose four bytes no rule gives, a free value. -/
def State.getMctpVersion (s : State) : State :=
  if !s.mgmtUp then s else s.onBus.drawn.mctpAnswer ([4, 0, 1] ++ leBytes (Config.rng s.free).toNat 4)

/-- Get Message Type Support (R525): the types beside control. -/
def State.getMsgTypes (s : State) : State := if !s.mgmtUp then s else s.onBus.mctpAnswer [5, 0, 2, 0x05, 0x7E]

/-! ## SPDM -/

/-- The SPDM connection state of a transport (0 MCTP, 1 DOE): 0 none, 1 version, 2 capabilities, 3 algorithms. -/
def State.spdmAt (s : State) (doe : Bool) : Nat := aget 0 s.ctl.spdm (b2n doe)

/-- A transport's connection state set. -/
def State.spdmTo (s : State) (doe : Bool) (n : Nat) : State := s.upCtl fun c => { c with spdm := aput 0 c.spdm (b2n doe) n }

/-- An SPDM answer. -/
def State.spdmAnswer (s : State) (b : List Byte) : State := s.upCtl fun c => { c with spdmOut := b }

/-- ERROR with a code (R532): 1 InvalidRequest, 3 Busy, 4 UnexpectedRequest, 5 Unspecified, 7 UnsupportedRequest,
0x41 VersionMismatch. -/
def State.spdmError (s : State) (e : Nat) : State := s.spdmAnswer [0x12, 0x7F, BitVec.ofNat 8 e, 0]

/-- Whether a transport reaches the responder: the management port, or the control port's DOE mailbox. -/
def State.spdmUp (s : State) (doe : Bool) : Bool := s.mgmtUp && (!doe || s.power.state != .off)

/-- An SPDM request (R532): Busy before step 5, Unspecified after an IDENTITY failure, refused out of its order, with
another version or with another code; else answered. -/
def State.spdmServe (s : State) (doe : Bool) (req : List Byte) (code ver : Nat) (need : Nat → Bool) (run : State → State) :
    State :=
  if !s.spdmUp doe then s else
  let s := if doe then s else s.onBus
  if s.boot.failed = some 2 then s.spdmError 5
  else if s.boot.failed.isNone ∧ s.boot.step < 5 then s.spdmError 3
  else if byteAt req 1 ≠ code then s.spdmError 7
  else if byteAt req 0 ≠ ver then s.spdmError 0x41
  else if !need (s.spdmAt doe) then s.spdmError 4
  else run s

/-- The device's certificate chain in slot 0 (R533). -/
def certBytes (off n : Nat) : List Byte := (List.range n).map fun i => Config.certChain (off + i)

/-- SHA-256 of the certificate chain. -/
def certHash : List Byte := sha256 (certBytes 0 Config.certLen)

/-- The value of a measurement and its DMTF type (R533), bit 7 marking a value that is not a digest. -/
def State.measurement (s : State) (i : Nat) : Nat × List Byte :=
  let b := s.boot
  let gone := b.failed.isSome
  let z : List Byte := leBytes 0 32
  let n := b.booted.getD b.next
  match i with
  | 1 => (0x00, beBytes Config.romDigest.toNat 32)
  | 2 => (0x01, if gone then z else beBytes b.fwDigest 32)
  | 3 => (0x03, if gone then z else beBytes b.cfgDigest 32)
  | 4 => (0x02, beBytes Config.recordDigest.toNat 32)
  | 5 => (0x87, leBytes b.counters.1 4 ++ leBytes b.counters.2.1 4)
  | 6 => (0x84, leBytes n 1 ++ leBytes (slotOf b.slotSt n) 1 ++ leBytes s.stepid 2 ++ leBytes b.ownerGen 4)
  | _ => (0x03, if gone then z else sha256 (beBytes b.ownerKey 64))

/-- A measurement block. -/
def State.measBlock (s : State) (i : Nat) : List Byte :=
  let m := s.measurement i
  leBytes i 1 ++ [1] ++ leBytes (m.2.length + 3) 2 ++ leBytes m.1 1 ++ leBytes m.2.length 2 ++ m.2

/-- The blocks of all seven measurements. -/
def State.measAll (s : State) : List Byte := [1, 2, 3, 4, 5, 6, 7].flatMap s.measBlock

/-- A signature over an answer with the identity key (R518). -/
def State.signed (s : State) (req b : List Byte) : List Byte :=
  b ++ beBytes (Config.identitySign (beVal (sha256 (req ++ b))) s.free).toNat 64

/-- A nonce of the pilot's entropy (R152). -/
def State.nonce (s : State) : List Byte := leBytes (Config.rng s.free).toNat 32

/-- GET_VERSION: starts the connection again; SPDM 1.2. -/
def State.spdmVersion (s : State) (doe : Bool) : State :=
  (s.spdmTo doe 1).spdmAnswer [0x10, 0x04, 0, 0, 0, 1, 0x00, 0x12]

/-- GET_CAPABILITIES: CERT_CAP, CHAL_CAP, MEAS_CAP with signature, 4,096 B. CTExponent is given by no rule. -/
def State.spdmCaps (s : State) (doe : Bool) : State :=
  (s.drawn.spdmTo doe 2).spdmAnswer
    ([0x12, 0x61, 0, 0, 0, BitVec.ofNat 8 (Config.rng s.free).toNat, 0, 0] ++ leBytes 0x16 4 ++ leBytes 4096 4 ++ leBytes 4096 4)

/-- NEGOTIATE_ALGORITHMS: ECDSA P-256, SHA-256, the DMTF measurement specification. -/
def State.spdmAlgs (s : State) (doe : Bool) (req : List Byte) : State :=
  if !(leAt req 8 4).testBit 4 || !(leAt req 12 4).testBit 0 then s.spdmError 1
  else (s.spdmTo doe 3).spdmAnswer
    ([0x12, 0x63, 0, 0] ++ leBytes 36 2 ++ [1, 0] ++ leBytes 2 4 ++ leBytes 0x10 4 ++ leBytes 1 4 ++ leBytes 0 12 ++ leBytes 0 4)

/-- GET_DIGESTS: slot 0 alone is filled. -/
def State.spdmDigests (s : State) : State := s.spdmAnswer ([0x12, 0x01, 0, 1] ++ certHash)

/-- GET_CERTIFICATE: a portion of the chain of slot 0. -/
def State.spdmCert (s : State) (req : List Byte) : State :=
  let off := leAt req 4 2
  let n := min (leAt req 6 2) (min 4088 (Config.certLen - off))
  if byteAt req 2 % 16 ≠ 0 ∨ Config.certLen ≤ off then s.spdmError 1
  else s.spdmAnswer ([0x12, 0x02, 0, 0] ++ leBytes n 2 ++ leBytes (Config.certLen - off - n) 2 ++ certBytes off n)

/-- CHALLENGE: the chain's digest, a nonce, the summary asked for and the signature. Which measurements count as the
trusted base no rule says: that summary is a free value. -/
def State.spdmChallenge (s : State) (req : List Byte) : State :=
  if byteAt req 2 % 16 ≠ 0 then s.spdmError 1
  else
    let sum : List Byte := match byteAt req 3 with
      | 0 => []
      | 0xFF => sha256 s.measAll
      | _ => leBytes ((Config.rng s.free).toNat / 2 ^ 256) 32
    s.drawn.spdmAnswer (s.signed req ([0x12, 0x03, 0, 1] ++ certHash ++ s.nonce ++ sum ++ leBytes 0 2))

/-- GET_MEASUREMENTS: their number, one of them or all, signed where asked. -/
def State.spdmMeas (s : State) (req : List Byte) : State :=
  let op := byteAt req 3
  let signs := (byteAt req 2).testBit 0
  if (op ≠ 0 ∧ op ≠ 0xFF ∧ 7 < op) ∨ (signs ∧ byteAt req 36 % 16 ≠ 0) then s.spdmError 1
  else
    let blocks := if op = 0 then [] else if op = 0xFF then s.measAll else s.measBlock op
    let n := if op = 0 then 0 else if op = 0xFF then 7 else 1
    let b := [0x12, 0x60] ++ leBytes (if op = 0 then 7 else 0) 1 ++ [0] ++ leBytes n 1 ++ leBytes blocks.length 3 ++ blocks
      ++ s.nonce ++ leBytes 0 2
    s.drawn.spdmAnswer (if signs then s.signed req b else b)

/-! ## Commands -/

/-- SET_ENDPOINT_ID (R525). -/
def execSetEndpointId (eid : BitVec 8) (s : State) : Host.Outcome State Fault Refusal := .next (s.setEid eid.toNat)

/-- GET_ENDPOINT_ID (R525). -/
def execGetEndpointId (s : State) : Host.Outcome State Fault Refusal := .next s.getEid

/-- GET_MCTP_VERSION_SUPPORT (R525). -/
def execGetMctpVersionSupport (s : State) : Host.Outcome State Fault Refusal := .next s.getMctpVersion

/-- GET_MESSAGE_TYPE_SUPPORT (R525). -/
def execGetMessageTypeSupport (s : State) : Host.Outcome State Fault Refusal := .next s.getMsgTypes

/-- GET_VERSION (R532). -/
def execGetVersion (doe : Bool) (req : List (BitVec 8)) (s : State) : Host.Outcome State Fault Refusal :=
  .next (s.spdmServe doe req 0x84 0x10 (fun _ => true) fun s => s.spdmVersion doe)

/-- GET_CAPABILITIES (R532). -/
def execGetCapabilities (doe : Bool) (req : List (BitVec 8)) (s : State) : Host.Outcome State Fault Refusal :=
  .next (s.spdmServe doe req 0xE1 0x12 (fun n => n == 1) fun s => s.spdmCaps doe)

/-- NEGOTIATE_ALGORITHMS (R532). -/
def execNegotiateAlgorithms (doe : Bool) (req : List (BitVec 8)) (s : State) : Host.Outcome State Fault Refusal :=
  .next (s.spdmServe doe req 0xE3 0x12 (fun n => n == 2) fun s => s.spdmAlgs doe req)

/-- GET_DIGESTS (R532, R533). -/
def execGetDigests (doe : Bool) (req : List (BitVec 8)) (s : State) : Host.Outcome State Fault Refusal :=
  .next (s.spdmServe doe req 0x81 0x12 (fun n => n == 3) State.spdmDigests)

/-- GET_CERTIFICATE (R532, R533). -/
def execGetCertificate (doe : Bool) (req : List (BitVec 8)) (s : State) : Host.Outcome State Fault Refusal :=
  .next (s.spdmServe doe req 0x82 0x12 (fun n => n == 3) fun s => s.spdmCert req)

/-- CHALLENGE (R532). -/
def execChallenge (doe : Bool) (req : List (BitVec 8)) (s : State) : Host.Outcome State Fault Refusal :=
  .next (s.spdmServe doe req 0x83 0x12 (fun n => n == 3) fun s => s.spdmChallenge req)

/-- GET_MEASUREMENTS (R532, R533). -/
def execGetMeasurements (doe : Bool) (req : List (BitVec 8)) (s : State) : Host.Outcome State Fault Refusal :=
  .next (s.spdmServe doe req 0xE0 0x12 (fun n => n == 3) fun s => s.spdmMeas req)

/-- CONTROL_PORT_LINK_TRAINED (R19): CP_LINK records width, rate and mode; unpowered, in reset, after a rail fault or a
thermal trip there is no link (R39). -/
def execControlPortLinkTrained (width rate : BitVec 4) (flit : Bool) (s : State) : Host.Outcome State Fault Refusal :=
  .next (if !s.pins.pwrGood then s else ((s.wr F.CP_LINK_WIDTH width.toNat).wr F.CP_LINK_RATE rate.toNat).wr F.CP_LINK_FLIT (b2n flit))

/-- SETDASA (R20, R525): the dynamic address, on an I3C bus alone; as the first transaction it shows the bus to be one. -/
def execSetdasa (dyn : BitVec 7) (s : State) : Host.Outcome State Fault Refusal :=
  .next (if !s.mgmtUp ∨ s.pins.bus = some false then s
    else (s.upPins fun p => { p with bus := some true }).upCtl fun c => { c with dyn := dyn.toNat })

end Sys2Proof.Machine
end

