-- ==== Sys2Proof/Machine/Clock.lean ====
section
/-! DEFINITION. Time: what one tc of idle time does (R65, R91–R94, R100, R188, R354, R437–R439, R455, R464, R549). A
step on an empty queue is one tc; the other clocks count in proportion (R33, R72). -/

namespace Sys2Proof.Machine

/-! ## Clocks -/

/-- How far a clock of num/den cycles a tc moves on in the present tick. -/
def State.cycles (s : State) (num den : Nat) : Nat := (s.tick + 1) * num / den - s.tick * num / den

/-- Landing cycles (2.0 GHz) of a tick. -/
def State.lcs (s : State) : Nat := s.cycles 10 3
/-- Quay cycles (1.125 GHz) of a tick. -/
def State.qcs (s : State) : Nat := s.cycles 15 8
/-- Fabric cycles (1.5625 GHz) of a tick. -/
def State.fcs (s : State) : Nat := s.cycles 125 48

/-! ## A tile -/

/-- The class of a tile's tc (R91): 0 busy, 1 to 13 an idle cause, 14 a barrier wait, 15 crossing, 16 a tc of slack,
which its poll counts. -/
def State.tcClass (s : State) (t : Nat) : Nat :=
  if s.inCrossing t && s.holding then 16
  else if s.tstate t = 4 then 13
  else if s.tstate t ≠ 1 then 12
  else if s.inCrossing t then 15
  else if (s.tile t).atBar then 14
  else (s.tile t).wait

/-- A tile's tc is counted under its class (R91, R93, R188). -/
def State.countTc (s : State) (t : Nat) : State :=
  match s.tcClass t with
  | 0 => s.upTile t fun x => { x with busyTc := x.busyTc + 1 }
  | 14 => s.inc F.T_BAR_PENDING_TC 1 t
  | 15 => s.inc F.T_CROSS_TC_TC 1 t
  | 16 => s
  | 6 => (s.addIdle t 6 1).inc F.PW_TOKEN_WAIT_TC 1 0 (domainOf t)
  | c => s.addIdle t c 1

/-- One tc of a tile: what its last tc took onto L lands (R251), its class, its watchdog (R100), its units' counters, its
router's cycle (R267). -/
def State.tileTick (s : State) (t : Nat) : State :=
  let s := (s.tile t).ejects.foldl (fun s _ => s.ejectLand t .ok) s
  let x := s.tile t
  let s := s.countTc t
  let s := if s.tstate t = 1 ∧ s.inCrossing t = false then s.inc F.T_WDOG_COUNT_TC 1 t else s
  let s := s.matTick t
  let s := if x.srun.isSome then s.inc F.SV_TC_TC 1 t else s
  let s := if s.mfWaiting t = 0 then s else s.inc F.MF_WAIT_TC_TC (s.mfWaiting t) t
  if s.rd F.XT_RSTATUS_RUN t = 1 ∧ s.frozen = false then s.inc F.XT_RSTATUS_CYCLE 1 t else s

/-! ## Accounts -/

/-- The client charged for a partition's tiles (R464): client 0 in the drain and the setup of a switch. -/
def State.payer (s : State) (p : Nat) : Nat :=
  match s.ctl.switch with
  | some x => if x.parts.any (fun e => e.1 == p) && (x.phase == 1 || x.phase == 3) then 0 else s.client p
  | none => s.client p

/-- One tc of a partition's account and weight (R464, R465). -/
def State.partTick (s : State) (p : Nat) : State :=
  if !s.partEn p || s.client p == 0 then s
  else
    let ts := s.placed p
    let busy := (ts.filter fun t => s.tcClass t == 0).length
    let held := ((s.partTiles p).filter fun t => s.rd F.T_MSTATUS_TOKEN t == 1).length
    let c := s.payer p
    let s := (s.inc F.PT_ACC_TILE_TC_TC ts.length 0 c).inc F.PT_ACC_BUSY_TC_TC busy 0 c
    s.upPower fun x => { x with weights := aadd (aadd x.weights p busy) (4 + p) held }

/-! ## Units of the other clocks -/

/-- A landing core's stalls and whom its time is charged to (R346, R351, R464). -/
def State.coreTick (s : State) (c : Nat) : State :=
  if s.rd F.L_STATUS_RUN c = 0 then s
  else
    let n := s.lcs
    let x := s.core c
    let s := if x.mem.isSome || x.soOp then s.inc F.L_MEM_WAIT_LC_LC n c else s
    let s := if x.soWait.any (fun w => w.2.1) then s.inc F.L_SOWAIT_LC_LC n c else s
    let p := s.corePart c
    s.inc F.PT_ACC_LAND_LC_LC n 0 (if p < 4 ∧ s.partEn p then s.client p else 0)

/-- The oldest corrected block of a quay is written back once the device serves rank 4 (R328, R332). -/
def State.writeBack (s : State) (q : Nat) : State :=
  if (s.quay q).wback.isEmpty || !s.serves q 4 then s
  else (s.inc F.Q_WR_BYTES_BYTES 64 q).upQuay q fun x => { x with wback := x.wback.drop 1 }

/-- A quay's refreshes, its write-backs and its pushes that wait for a credit (R324, R332, R337). -/
def State.quayTick (s : State) (q : Nat) : State :=
  let s := (s.refreshTick q).writeBack q
  let n := ((s.quay q).pushes.filter fun x => x.recNo.isNone).length
  if n = 0 then s else s.inc F.Q_PUSH_CREDIT_WAIT_QC (n * s.qcs) q

/-- Whether a port has a frame ready that waits for credits or replay space (R437). -/
def State.txWaits (s : State) (k : Nat) : Bool :=
  s.plState k == 4 && match (s.port k).txq with
    | f :: _ => !s.mayStart k 1 f.dst (frameWords f.body.length)
    | [] => match (s.eng k).sends with
      | x :: _ => !s.mayStart k 0 x.dst (frameWords x.body.length)
      | [] => false

/-- Whether a TO_FABRIC channel holds data but no credit (R438). -/
def State.chanWaits (s : State) (k : Nat) : Bool :=
  (List.range 16).any fun c => s.chanKind k c == 2 && !(chanBytes (s.eng k).gridIn c).isEmpty && s.chanReady k c == 0

/-- A port's and its engine's waits (R399, R437, R438). -/
def State.portTick (s : State) (k : Nat) : State :=
  let n := s.fcs
  let s := if s.txWaits k then s.inc F.FL_TX_WAIT_FC_FC n k else s
  let s := if s.chanWaits k then s.inc F.FL_CHAN_WAIT_FC_FC n k else s
  let m := ((List.range 16).filter fun c => ((s.eng k).chan c).asked || (s.chanKind k c == 4 && s.chanBusy k c)).length
  if m = 0 then s else s.inc F.CF_CRED_WAIT_FC_FC (m * n) k

/-- A bucket refills (R455): what LEVEL lacks falls by RATE. -/
def State.refill (s : State) (p : Nat) (fab : Bool) : State :=
  if !s.polices p fab then s
  else
    let r := if fab then s.rd F.QR_REG_FAB_RATE 0 p else s.rd F.QR_REG_RING_RATE 0 p
    s.upPower fun x => { x with lacks := aput 0 x.lacks (2 * p + b2n fab) (aget 0 x.lacks (2 * p + b2n fab) - s.cycles (r * 1024) 600) }

/-- A microsecond of a lease (R549). -/
def State.leaseTick (s : State) (n : Nat) : State :=
  if s.rd F.FT_LEASE_STATE_HELD 0 n = 1 then s.wr F.FT_LEASE_STATE_REMAIN (s.rd F.FT_LEASE_STATE_REMAIN 0 n - 1) 0 n else s

/-! ## The tick -/

/-- One tc while the grid clock runs. A hold that was sampled takes effect at its checkpoint (R53). -/
def State.gridTick (s : State) : State :=
  if !s.clockRuns then s
  else
    let s := s.holdBegin
    let s := (List.range 4).foldl (fun s p => s.partTick p) s
    let s := (List.range 3072).foldl (fun s t => s.tileTick t) s
    let s := if s.holding then s else s.inc F.XT_SPINE_CYCLE_COUNT 1
    { s with tc := (s.tc + 1) % 2 ^ 64 }

/-- One tc of the die's other units, while VCORE is up. -/
def State.dieTick (s : State) : State :=
  if !s.powered then s
  else
    let s := (List.range 16).foldl (fun s c => s.coreTick c) s
    let s := (List.range 24).foldl (fun s q => s.quayTick q) s
    let s := (List.range 12).foldl (fun s k => s.portTick k) s
    let s := (List.range 4).foldl (fun s p => (s.refill p false).refill p true) s
    if s.rd F.ROS_STATUS_LOGWAIT = 1 then s.inc F.ROS_LOG_WAIT_QC_QC s.qcs else s

/-- One tc of idle time: the pilot's leases each microsecond, the die, the grid, and what the landing supervisor waits
for (R504, R505). -/
def State.clockTick (s : State) : State :=
  let s := if (s.tick + 1) % 600 = 0 then (List.range 32).foldl (fun s n => s.leaseTick n) s else s
  let s := s.dieTick.gridTick
  let s := { s with tick := s.tick + 1 }
  s.switchPoll.drainPoll

end Sys2Proof.Machine
end

