-- ==== Sys2Proof/Machine/Bus.lean ====
section
/-! DEFINITION. Who reaches which register (R9, R10, R70, R71, R264, R271, R313, R336–R340, R347–R349, R362, R367, R455,
R484–R488): the accesses of landing cores, the host server's writes through BAR0, and what reading or writing a register
does beyond its fields. -/

namespace Sys2Proof.Machine

/-! ## Registers that do more than store -/

/-- A write of a pin register (R313, R336) by the landing supervisor: the state, and the code of R241. -/
def State.pinWrite (s : State) (p : Nat) (second : Bool) (v : Nat) : State × Nat :=
  if s.hub.running.any fun x => x.part == p then (s, 1)
  else if second then (s.write8 .dev 0 (0x5008 + 16 * p) v, 0)
  else
    let s1 := s.write8 .dev 0 (0x5000 + 16 * p) v
    let clash := fun (q : Nat) =>
      q != p && s1.pinEn q
        && ((decide (0 < s1.pinLen p) && decide (0 < s1.pinLen q) && decide (s1.pinBase p < s1.pinBase q + s1.pinLen q)
              && decide (s1.pinBase q < s1.pinBase p + s1.pinLen p))
          || ((s1.pinQuays p).any (fun k => (s1.pinQuays q).contains k)
              && decide (s1.rd F.QR_PIN_B_SBASE 0 p < s1.rd F.QR_PIN_B_SBASE 0 q + s1.rd F.QR_PIN_B_NSTRIPES 0 q)
              && decide (s1.rd F.QR_PIN_B_SBASE 0 q < s1.rd F.QR_PIN_B_SBASE 0 p + s1.rd F.QR_PIN_B_NSTRIPES 0 p)))
    if !s1.pinEn p then (s1, 0)
    else if (List.range 4).any clash then ((s.wr F.QR_PIN_A_EN 0 0 p).wr F.QR_PIN_A_REFUSED 1 0 p, 0)
    else (s1.wr F.QR_PIN_A_REFUSED 0 0 p, 0)

/-- A write of a regulator register (R455, R456): EN set fills the bucket, and a RATE below 1,000 MB/s stores 1,000. -/
def State.regulatorWrite (s : State) (o v : Nat) : State :=
  let p := (o - 0x5100) / 32
  let fab := o % 32 == 8
  if o % 32 ≥ 16 then s
  else
    let was := if fab then s.rd F.QR_REG_FAB_EN 0 p else s.rd F.QR_REG_RING_EN 0 p
    let s := s.write8 .dev 0 o v
    if !v.testBit 22 then s
    else
      let r := max (bits v 0 22) 1000
      let s := if fab then s.wr F.QR_REG_FAB_RATE r 0 p else s.wr F.QR_REG_RING_RATE r 0 p
      if was = 1 then s else s.upPower fun x => { x with lacks := aput 0 x.lacks (2 * p + b2n fab) 0 }

/-- Offsets of the roster registers that take writes only while the roster is off (R392). -/
def rosterConf (o : Nat) : Bool :=
  (decide (0x6018 ≤ o) && decide (o < 0x6058)) || o == 0x6070 || o == 0x6078 || o == 0x6090

/-- A write of a roster register (R366, R368, R369): the state, and the code of R241. -/
def State.rosterWrite (s : State) (o v : Nat) : State × Nat :=
  if rosterConf o then (if s.rd F.ROS_CTL_EN = 1 then (s, 1) else (s.write8 .dev 0 o v, 0))
  else if o = 0x6000 then
    let s := (s.wr F.ROS_CTL_ESTOP (bits v 3 1)).rosEnable (v.testBit 0)
    let s := if v.testBit 1 then s.rosBuild else s
    (if v.testBit 2 then s.rosFinalize else s, 0)
  else if o = 0x6060 then (s.poolPush (v % 2 ^ 32), 0)
  else if o = 0x6098 then
    (if v.testBit 17 then s.rosCmd (bits v 0 14) (bits v 14 3) else s.write8 .dev 0 o v, 0)
  else (s.write8 .dev 0 o v, 0)

/-- A write of a fault register by a core (R543, R548, R551). -/
def State.faultWrite (s : State) (c o v : Nat) : State :=
  if o = 0x8010 then
    match bits v 2 2 with
    | 1 => s.fenceAsk (bits v 0 2) (bits v 4 12) false 3
    | 2 => s.fenceAsk (bits v 0 2) (bits v 4 12) true 3
    | _ => s.wr F.FT_WALK_RESULT 2
  else if o = 0x8058 then s.event 15 8 0 (0x8000 + v % 2 ^ 15) (s.rd F.FT_SOFT_DATA_DATA) 0
  else if 0x8400 ≤ o ∧ o % 16 = 0 then
    let n := (o - 0x8400) / 16
    match v % 4 with
    | 1 => s.leaseAcquire c n (bits v 2 20)
    | 2 => s.leaseRenew c n (bits v 2 20)
    | 3 => s.leaseRelease c n
    | _ => s
  else s.write8 .dev 0 o v

/-- Blocks of device registers that take only privileged accesses (R452–R466, R482, R392, R551, R238): their offsets. -/
def ownBlocks : List (Nat × Nat) :=
  [(0x3200, 0x3260), (0x5100, 0x5180), (0x6000, 0x6100), (0x7000, 0x7070), (0x8000, 0x8600), (0x9000, 0x9018),
   (0x1_0000, 0x1_2000)]

/-- Whether a device-register offset takes only privileged accesses. -/
def ownOff (o : Nat) : Bool := ownBlocks.any fun b => decide (b.1 ≤ o) && decide (o < b.2)

/-- A core's write of eight bytes at a device-register offset: the state, and the fault code. -/
def State.devWrite (s : State) (c : Nat) (sup : Bool) (o v : Nat) : State × Nat :=
  if ownOff o && !sup then (s, 0x13)
  else if 0x4000 ≤ o ∧ o < 0x4800 then
    let b := (o - 0x4000) / 8
    if sup && (s.rd F.XT_BAR_ALLOC 0 b == 0 || s.rd F.XT_BAR_ARRIVED 0 b == 0) then (s.write8 .dev 0 o v, 0) else (s, 1)
  else if o = 0x4800 then (s.barArrive c (v % 256), 0)
  else if 0x3000 ≤ o ∧ o < 0x3060 then (s.write8 .dev 0 o (min (v % 2 ^ 9) 256), 0)
  else if 0x5000 ≤ o ∧ o < 0x5040 then (if sup then s.pinWrite ((o - 0x5000) / 16) (o % 16 == 8) v else (s, 3))
  else if 0x5100 ≤ o ∧ o < 0x5180 then (s.regulatorWrite o v, 0)
  else if 0x6000 ≤ o ∧ o < 0x6100 then s.rosterWrite o v
  else if 0x7000 ≤ o ∧ o < 0x7070 then ((s.write8 .dev 0 o v).settle s, 0)
  else if o = 0x3218 then ((s.write8 .dev 0 o v).settle s, 0)
  else if 0x8000 ≤ o ∧ o < 0x8600 then (s.faultWrite c o v, 0)
  else if o = 0x9000 then
    (let s := s.wr F.DBG_CTL_WRITE (bits v 2 1)
     if v.testBit 1 then s.dbgGo else s, 0)
  else if 0x10_0000 ≤ o ∧ o < 0x12_0000 then
    (if o % 16 = 0 then (s, 0) else if sup then (s.write8 .dev 0 o v, 0) else (s, 0x13))
  else if o = 0x12_0000 then
    match bits v 13 2 with
    | 1 => (s.soOp c 1 (v % 2 ^ 13) (bits v 32 32), 0)
    | 2 => (s.soOp c 2 (v % 2 ^ 13) (bits v 32 32), 0)
    | _ => (s, 0x16)
  else (s.write8 .dev 0 o v, 0)

/-- A write of an engine's register (R396, R400, R424, R428). -/
def State.engWrite (s : State) (k o v : Nat) : State × Nat :=
  if o = 0x08 then
    ((if (s.eng k).queue.length ≥ 8 then s.wr F.CF_STATUS_DROPPED 1 k
      else (s.upEng k fun e => { e with queue := e.queue ++ [v % 2 ^ 48] }).cfSync k), 0)
  else if o = 0x20 then (if v.testBit 0 then s.cfAbort k else s, 0)
  else if 0x100 ≤ o ∧ o < 0x200 then
    (let c := (o - 0x100) / 16
     if s.chanRunning k c then (s, 1) else (s.chanWrite k c (o % 16 == 8) v, 0))
  else (s.write8 .eng k o v, 0)

/-- FL_CTL is written (R431, R433): DOWN, and EN, with which a port is DISABLED or free to train. -/
def State.flCtlWrite (s : State) (k v : Nat) : State :=
  let s := if v.testBit 1 then s.linkDown k 6 else s
  let was := s.rd F.FL_CTL_EN k
  let s := s.wr F.FL_CTL_EN (v % 2) k
  if v % 2 = was then s
  else if v % 2 = 0 then s.portDisable k
  else if aget 0 s.boot.portMode k = 0 then s else s.wr F.FL_STATUS_STATE 1 k

/-- A write of a port's register (R440, R448). -/
def State.portWrite (s : State) (k o v : Nat) : State × Nat :=
  if o = 0x08 then (s.flCtlWrite k v, 0)
  else if o = 0x10 ∨ o = 0x18 then
    (if s.rd F.CF_STATUS_BUSY k = 0 ∧ s.rd F.CF_STATUS_QUEUED k = 0 then (s.write8 .port k o v, 0) else (s, 1))
  else (s.write8 .port k o v, 0)

/-- A write of a quay's register (R337): templates and refresh windows by the supervisor, while no crossing of the
partition of the quay's band runs. -/
def State.quayWrite (s : State) (q : Nat) (sup : Bool) (o v : Nat) : State × Nat :=
  if o < 0x1000 ∨ 0x3800 ≤ o then (s, 0)
  else if !sup then (s, 3)
  else if s.hub.running.any (fun x => s.bandPart (q % 12) == some x.part) then (s, 1)
  else (s.write8 .quay q o v, 0)

/-- A write of a cluster register by core c (R341, R357, R362). -/
def State.clusterWrite (s : State) (c o v : Nat) : State :=
  if o = 0 then s.lsramWrite c (v % 32)
  else if o = 8 then s.epochWrite c v
  else if o = 0x20 then
    if v.testBit 36 then s.cacheGo (bits v 34 2) (s.rd F.L_CACHE_OP_A_BASE) (v % 2 ^ 34) else s.write8 .cluster 0 o v
  else s.write8 .cluster 0 o v

/-- A write of a register of core u's block (R351–R353, R361). -/
def State.coreWrite (s : State) (u o v : Nat) : State :=
  if o = 0x18 then s.soWaitWrite u (v % 2 ^ 13)
  else if o = 0x30 then s.credReqWrite u (v % 2 ^ 12) (bits v 12 5) (bits v 17 20)
  else if 0x400 ≤ o ∧ o < 0x500 ∧ o % 32 = 0x18 then
    let n := (o - 0x400) / 32
    let s := s.write8 .core u o v
    let s := if v.testBit 0 then s.streamGo u n else s
    if v.testBit 12 then s.streamCancel u n else s
  else s.write8 .core u o v

/-! ## A landing core at a register -/

/-- The bytes of an access that a register block takes at an offset (R349): eight; four in the roster table; eight or
all 32 of a quay's template. -/
def regSize (b : Blk) (o n : Nat) : Bool :=
  if b == .dev && decide (0x40_0000 ≤ o) && decide (o < 0x50_0000) then n == 4
  else if b == .quay && decide (0x1000 ≤ o) && decide (o < 0x3000) then n == 8 || n == 32
  else n == 8

/-- Whether an accessor is refused at a register, and the code (R340, R349, R361–R363, R544): core c, privileged or not,
at offset o of a block's unit. -/
def State.regRefused (s : State) (c : Nat) (sup : Bool) (b : Blk) (u o : Nat) : Nat :=
  match b with
  | .core => if s.isFenced 1 u then 0x10 else if o = 0xF00 ∧ u ≠ c then 0x10 else if sup then 0 else if u ≠ c then 0x10 else if o = 8 ∨ o = 16 then 0x13 else 0
  | .cluster => if 0x2000 ≤ o then 0x10 else if sup then 0 else 0x13
  | .eng => if sup then 0 else 0x13
  | .port => if sup then 0 else 0x13
  | .dev => if 0x40_0000 ≤ o ∧ o < 0x50_0000 ∧ !sup then 0x10 else if ownOff o && !sup then 0x13 else 0
  | _ => 0

/-- Eight bytes written to a register by core c: the state, and the fault code. -/
def State.regWrite8 (s : State) (c : Nat) (sup : Bool) (b : Blk) (u o v : Nat) : State × Nat :=
  match b with
  | .dev => s.devWrite c sup o v
  | .eng => s.engWrite u o v
  | .port => s.portWrite u o v
  | .quay => s.quayWrite u sup o v
  | .cluster => (s.clusterWrite c o v, 0)
  | .core => (s.coreWrite u o v, 0)
  | _ => (s, 0)

/-- A run of eight-byte writes, ended by the first that is refused. -/
def State.regWrites (s : State) (c : Nat) (sup : Bool) (b : Blk) (u o : Nat) : List Nat → State × Nat
  | [] => (s, 0)
  | v :: r =>
    match s.regWrite8 c sup b u o v with
    | (s1, 0) => s1.regWrites c sup b u (o + 8) r
    | (s1, k) => (s1, k)

/-- A core's write of a register at device address a, used at address virt: its effect, or its fault. -/
def State.regPut (s : State) (c : Nat) (sup : Bool) (b : Blk) (u o virt : Nat) (d : List Byte) : State :=
  let code := s.regRefused c sup b u o
  if code ≠ 0 then s.coreFault c code 0 virt
  else if b == .core && decide (0x8_0000 ≤ o) then s.aperture u (o - 0x8_0000) d
  else if !regSize b o d.length then s.coreFault c 0x19 0 virt
  else if d.length = 4 then
    let n := (o - 0x40_0000) / 64
    if s.entState n = 0 ∨ s.rd F.ROS_CTL_EN = 0 then s.entWr n (o % 64 / 4) (leVal d) else s.coreFault c 1 0 virt
  else
    let (t, k) := s.regWrites c sup b u o (chunks8 (d.length / 8) d)
    if k = 0 then t else t.coreFault c k 0 virt

/-- A core's read of a register: what it returns, and what the read does (R9, R149, R351, R352, R368, R541). -/
def State.regGet (s : State) (c : Nat) (sup : Bool) (b : Blk) (u o n virt : Nat) : State :=
  let code := s.regRefused c sup b u o
  let give := fun (s : State) (d : List Byte) => s.upCore c fun x => { x with rdata := d }
  if code ≠ 0 then s.coreFault c code 0 virt
  else if b == .core && decide (0x8_0000 ≤ o) then give s (leBytes 0 n)
  else if !regSize b o n then s.coreFault c 0x19 0 virt
  else if n = 4 then give s (leBytes (s.ent ((o - 0x40_0000) / 64) (o % 64 / 4)) 4)
  else match b, o with
    | .core, 0x20 => if u = c then s.soResultRead c else give s (leBytes (s.rd F.L_SOWAIT_RESULT_RESULT u) 8)
    | .core, 0x38 => if u = c then s.credResultRead c else give s (leBytes ((s.core u).credCode + 16 * (s.core u).credRec.getD 0) 8)
    | .core, 0xF00 => give s.drawn (leBytes (Config.rng s.free).toNat 8)
    | .dev, 0x6068 => let t := s.poolPop; give t (leBytes (t.rd F.ROS_POOL_POP_PAGE) 8)
    | .dev, 0x8038 =>
      give (s.upFault fun x => { x with events := x.events.drop 1 }) (leBytes (s.read8 .dev 0 0x8038) 8)
    | _, _ =>
      let d := s.readRegs b u o (n / 8)
      give ((List.range (n / 8)).foldl (fun s j => s.clearRead b u (o + 8 * j)) s) d

/-! ## A landing core's access -/

/-- The sizes of a landing core's accesses. -/
def coreSizes : List Nat := [1, 2, 4, 8, 16, 32, 64]

/-- A core's access at device address a, which it used as virt (R70, R71, R340, R346): memory, a tile window, a
register, or unmapped. -/
def State.coreReach (s : State) (c : Nat) (who : Accessor) (a virt n : Nat) (wr : Option (List Byte)) (ecc : Ecc) : State :=
  if a < 0x18_0000_0000 then
    if (s.gbad a n).isSome then s.coreFault c 0x10 0 virt
    else match wr with
      | some d => s.gWrite c a virt d ecc
      | none => s.gRead c a n virt ecc
  else if 0x2000_0000_0000 ≤ a ∧ a < 0x2000_C000_0000 then
    match wr with
    | some _ =>
      let (t, code, d) := s.outside ((a - 0x2000_0000_0000) / 0x10_0000) who (a % 0x10_0000) n wr ecc
      t.coreEnds c code virt d true
    | none => s.upCore c fun x => { x with mem := some { addr := a, size := n, virt := virt } }
  else if sramBase ≤ a ∧ a + n ≤ sramBase + s.rd F.L_CFG_LSRAM * 2 ^ 20 then s.sramAccess c a n virt wr ecc
  else match blkOf a with
    | some (b, u, o) =>
      match wr with
      | some d => s.regPut c (isSuper who) b u o virt d
      | none => s.regGet c (isSuper who) b u o n virt
    | none => s.coreFault c 0x10 0 virt

/-- A landing core's access (R339, R347, R349): aligned, translated, made. -/
def State.coreAccess (s : State) (who : Accessor) (v n : Nat) (k : AccKind) (d : List Byte) (ecc : Ecc) : State :=
  match coreOf who with
  | none => s
  | some c =>
    if !s.coreReady c then s
    else
      let s := s.asWho who
      if !coreSizes.contains n || v % n != 0 then s.coreFault c 0x19 0 v
      else match s.translate who v n k with
        | .error e => s.coreFault c e 0 v
        | .ok a => s.coreReach c who a v n (if k = .write then some (leBytes (leVal d) n) else none) ecc

/-! ## The host server -/

/-- A write of the host server at a BAR0 offset, n bytes (R484–R489): mailbox registers, the MSI-X table, the request
area; nothing while BAR0 is not reached. -/
def State.barWrite (s : State) (o n v : Nat) : State :=
  if !s.barUp || o % n != 0 then s
  else if o = 8 then (if v.testBit 0 then s.doorbell .control [] else s)
  else if 0x1000 ≤ o ∧ o < 0x5000 then s.putReq (o - 0x1000) (leBytes v n)
  else if o < 0x1000 then
    let o8 := o / 8 * 8
    let sh := 8 * (o - o8)
    if n = 8 then (s.write8 .bar 0 o v).msixFlush
    else
      let keep := (s.read8 .bar 0 o8 >>> (32 - sh)) % 2 ^ 32
      let other := if o8 < 0x800 ∧ o8 ≠ 0x30 then 0 else keep
      (s.write8 .bar 0 o8 ((v % 2 ^ 32) <<< sh ||| other <<< (32 - sh))).msixFlush
  else s

/-- How many bytes a register write carries: all 32 of a quay's template, four in the roster table, eight elsewhere. -/
def regWidth (a : Nat) : Nat :=
  let d := a - 0x3800_0000_0000
  if a < 0x3800_0000_0000 then 8
  else if 0x20_0000 ≤ d ∧ d < 0x38_0000 ∧ 0x1000 ≤ d % 0x1_0000 ∧ d % 0x1_0000 < 0x3000 ∧ d % 32 = 0 then 32
  else if 0x40_0000 ≤ d ∧ d < 0x50_0000 then 4
  else 8

/-- A write of a register (R9): by a landing core at an address, by the debug path in a tile window, by the host server
at an address whose low 16 bits are its BAR0 offset. -/
def State.registerWrite (s : State) (who : Accessor) (a v : Nat) : State :=
  match who with
  | .host => s.barWrite (a % 0x1_0000) (if a % 8 = 4 then 4 else 8) v
  | .debug =>
    if 0x2000_0000_0000 ≤ a ∧ a < 0x2000_C000_0000 then
      s.dbgMake ((a - 0x2000_0000_0000) / 0x10_0000) (a % 0x10_0000) 8 (some (leBytes v 8)) .ok
    else s
  | _ => s.coreAccess who (a % 2 ^ 48) (regWidth a) .write (leBytes v 32) .ok

/-! ## Reads that clear -/

/-- A read of a tile's register that clears (R242, R307); a fenced tile refuses it. -/
def State.tileRc (s : State) (t off : Nat) : State := if s.tstate t = 4 then s else s.clearRead .tile t off

/-! ## Commands -/

/-- LANDING_ACCESS (R347). -/
def execLandingAccess (who : Accessor) (addr : BitVec 48) (size : Nat) (acc : AccKind) (data : List (BitVec 8)) (ecc : Ecc)
    (s : State) : Host.Outcome State Fault Refusal := .next (s.coreAccess who addr.toNat size acc data ecc)

/-- QR_PIN_WRITE (R313, R336): by the landing supervisor; another landing access is refused with WINDOW_BOUND. -/
def execQrPinWrite (who : Accessor) (pin : PartId) (second : Bool) (value : BitVec 64) (s : State) :
    Host.Outcome State Fault Refusal :=
  let a := 0x3800_0000_5000 + 16 * pin.val + 8 * b2n second
  .next (match coreOf who with
    | none => s
    | some c =>
      if !s.coreReady c then s
      else
        let s := s.asWho who
        let (t, k) := if isSuper who then s.pinWrite pin.val second value.toNat else (s, 3)
        if k = 0 then t else t.coreFault c k 0 a)

/-- XT_SLACK_LONGEST_READ (R64). -/
def execXtSlackLongestRead (s : State) : Host.Outcome State Fault Refusal := .next (s.clearRead .dev 0 0x2048)

/-- T_ECC_LAST_READ (R245). -/
def execTEccLastRead (t : TileId) (s : State) : Host.Outcome State Fault Refusal := .next (s.tileRc t.val 0x86A10)

/-- MF_CARRY_MAX_READ (R307). -/
def execMfCarryMaxRead (t : TileId) (s : State) : Host.Outcome State Fault Refusal := .next (s.tileRc t.val 0x86B10)

/-- Q_WAB_MAX_READ (R337). -/
def execQWabMaxRead (q : QuayId) (s : State) : Host.Outcome State Fault Refusal := .next (s.clearRead .quay q.val 0x58)

/-- Q_ECC_LAST_READ (R337). -/
def execQEccLastRead (q : QuayId) (s : State) : Host.Outcome State Fault Refusal := .next (s.clearRead .quay q.val 0x70)

/-- L_FAULT_READ (R361): by the core's own supervisor. -/
def execLFaultRead (core : CoreId) (s : State) : Host.Outcome State Fault Refusal :=
  .next (if s.isFenced 1 core.val then s
    else (s.upCore core.val fun x => { x with rdata := leBytes (s.read8 .core core.val 8) 8 }).clearRead .core core.val 8)

/-- L_ECC_LAST_READ (R362). -/
def execLEccLastRead (s : State) : Host.Outcome State Fault Refusal := .next (s.clearRead .cluster 0 0x40)

/-- REGISTER_WRITE (R9). -/
def execRegisterWrite (who : Accessor) (addr : BitVec 56) (value : BitVec 256) (s : State) :
    Host.Outcome State Fault Refusal := .next (s.registerWrite who addr.toNat value.toNat)

end Sys2Proof.Machine
end

