-- ==== Sys2Proof/Machine/Slots.lean ====
section
/-! DEFINITION. One meaning per slot instruction (R87, R111–R114, R142–R144, R148, R159–R175, R192–R206, R381): the
instruction issues as a word of its own at T_PC, with all that issue checks, waits for and does. -/

namespace Sys2Proof.Machine

/-- ALU_ADD (R111). -/
def execAluAdd (t : TileId) (p : Pred) (d a b : BitVec 5) (s : State) :
    Host.Outcome State Fault Refusal := .next (s.slotIssue t.val p (.alu .add d.toNat a.toNat b.toNat))

/-- ALU_SUB (R111). -/
def execAluSub (t : TileId) (p : Pred) (d a b : BitVec 5) (s : State) :
    Host.Outcome State Fault Refusal := .next (s.slotIssue t.val p (.alu .sub d.toNat a.toNat b.toNat))

/-- ALU_AND (R111). -/
def execAluAnd (t : TileId) (p : Pred) (d a b : BitVec 5) (s : State) :
    Host.Outcome State Fault Refusal := .next (s.slotIssue t.val p (.alu .and d.toNat a.toNat b.toNat))

/-- ALU_OR (R111). -/
def execAluOr (t : TileId) (p : Pred) (d a b : BitVec 5) (s : State) :
    Host.Outcome State Fault Refusal := .next (s.slotIssue t.val p (.alu .or d.toNat a.toNat b.toNat))

/-- ALU_XOR (R111). -/
def execAluXor (t : TileId) (p : Pred) (d a b : BitVec 5) (s : State) :
    Host.Outcome State Fault Refusal := .next (s.slotIssue t.val p (.alu .xor d.toNat a.toNat b.toNat))

/-- ALU_SHL (R111). -/
def execAluShl (t : TileId) (p : Pred) (d a b : BitVec 5) (s : State) :
    Host.Outcome State Fault Refusal := .next (s.slotIssue t.val p (.alu .shl d.toNat a.toNat b.toNat))

/-- ALU_SHR (R111). -/
def execAluShr (t : TileId) (p : Pred) (d a b : BitVec 5) (s : State) :
    Host.Outcome State Fault Refusal := .next (s.slotIssue t.val p (.alu .shr d.toNat a.toNat b.toNat))

/-- ALU_SRA (R111). -/
def execAluSra (t : TileId) (p : Pred) (d a b : BitVec 5) (s : State) :
    Host.Outcome State Fault Refusal := .next (s.slotIssue t.val p (.alu .sra d.toNat a.toNat b.toNat))

/-- ALU_MUL (R111). -/
def execAluMul (t : TileId) (p : Pred) (d a b : BitVec 5) (s : State) :
    Host.Outcome State Fault Refusal := .next (s.slotIssue t.val p (.alu .mul d.toNat a.toNat b.toNat))

/-- ALU_MIN (R111). -/
def execAluMin (t : TileId) (p : Pred) (d a b : BitVec 5) (s : State) :
    Host.Outcome State Fault Refusal := .next (s.slotIssue t.val p (.alu .min d.toNat a.toNat b.toNat))

/-- ALU_MAX (R111). -/
def execAluMax (t : TileId) (p : Pred) (d a b : BitVec 5) (s : State) :
    Host.Outcome State Fault Refusal := .next (s.slotIssue t.val p (.alu .max d.toNat a.toNat b.toNat))

/-- ALU_MINU (R111). -/
def execAluMinu (t : TileId) (p : Pred) (d a b : BitVec 5) (s : State) :
    Host.Outcome State Fault Refusal := .next (s.slotIssue t.val p (.alu .minu d.toNat a.toNat b.toNat))

/-- ALU_MAXU (R111). -/
def execAluMaxu (t : TileId) (p : Pred) (d a b : BitVec 5) (s : State) :
    Host.Outcome State Fault Refusal := .next (s.slotIssue t.val p (.alu .maxu d.toNat a.toNat b.toNat))

/-- ADDI (R111). -/
def execAddi (t : TileId) (p : Pred) (d a : BitVec 5) (imm : BitVec 11) (s : State) :
    Host.Outcome State Fault Refusal := .next (s.slotIssue t.val p (.imm .addi d.toNat a.toNat imm.toNat))

/-- ANDI (R111). -/
def execAndi (t : TileId) (p : Pred) (d a : BitVec 5) (imm : BitVec 11) (s : State) :
    Host.Outcome State Fault Refusal := .next (s.slotIssue t.val p (.imm .andi d.toNat a.toNat imm.toNat))

/-- ORI (R111). -/
def execOri (t : TileId) (p : Pred) (d a : BitVec 5) (imm : BitVec 11) (s : State) :
    Host.Outcome State Fault Refusal := .next (s.slotIssue t.val p (.imm .ori d.toNat a.toNat imm.toNat))

/-- XORI (R111). -/
def execXori (t : TileId) (p : Pred) (d a : BitVec 5) (imm : BitVec 11) (s : State) :
    Host.Outcome State Fault Refusal := .next (s.slotIssue t.val p (.imm .xori d.toNat a.toNat imm.toNat))

/-- SHI_SHL (R111). -/
def execShiShl (t : TileId) (p : Pred) (d a sh : BitVec 5) (s : State) :
    Host.Outcome State Fault Refusal := .next (s.slotIssue t.val p (.shi .shl d.toNat a.toNat sh.toNat))

/-- SHI_SHR (R111). -/
def execShiShr (t : TileId) (p : Pred) (d a sh : BitVec 5) (s : State) :
    Host.Outcome State Fault Refusal := .next (s.slotIssue t.val p (.shi .shr d.toNat a.toNat sh.toNat))

/-- SHI_SRA (R111). -/
def execShiSra (t : TileId) (p : Pred) (d a sh : BitVec 5) (s : State) :
    Host.Outcome State Fault Refusal := .next (s.slotIssue t.val p (.shi .sra d.toNat a.toNat sh.toNat))

/-- CATI (R111). -/
def execCati (t : TileId) (p : Pred) (d a : BitVec 5) (imm : BitVec 11) (s : State) :
    Host.Outcome State Fault Refusal := .next (s.slotIssue t.val p (.imm .cati d.toNat a.toNat imm.toNat))

/-- CMP_EQ (R111). -/
def execCmpEq (t : TileId) (p : Pred) (d : BitVec 3) (a b : BitVec 5) (s : State) :
    Host.Outcome State Fault Refusal := .next (s.slotIssue t.val p (.cmp .eq d.toNat a.toNat b.toNat))

/-- CMP_NE (R111). -/
def execCmpNe (t : TileId) (p : Pred) (d : BitVec 3) (a b : BitVec 5) (s : State) :
    Host.Outcome State Fault Refusal := .next (s.slotIssue t.val p (.cmp .ne d.toNat a.toNat b.toNat))

/-- CMP_LT (R111). -/
def execCmpLt (t : TileId) (p : Pred) (d : BitVec 3) (a b : BitVec 5) (s : State) :
    Host.Outcome State Fault Refusal := .next (s.slotIssue t.val p (.cmp .lt d.toNat a.toNat b.toNat))

/-- CMP_LTU (R111). -/
def execCmpLtu (t : TileId) (p : Pred) (d : BitVec 3) (a b : BitVec 5) (s : State) :
    Host.Outcome State Fault Refusal := .next (s.slotIssue t.val p (.cmp .ltu d.toNat a.toNat b.toNat))

/-- CMP_GE (R111). -/
def execCmpGe (t : TileId) (p : Pred) (d : BitVec 3) (a b : BitVec 5) (s : State) :
    Host.Outcome State Fault Refusal := .next (s.slotIssue t.val p (.cmp .ge d.toNat a.toNat b.toNat))

/-- CMP_GEU (R111). -/
def execCmpGeu (t : TileId) (p : Pred) (d : BitVec 3) (a b : BitVec 5) (s : State) :
    Host.Outcome State Fault Refusal := .next (s.slotIssue t.val p (.cmp .geu d.toNat a.toNat b.toNat))

/-- CMPEQI (R111). -/
def execCmpeqi (t : TileId) (p : Pred) (d : BitVec 3) (a : BitVec 5) (imm : BitVec 11) (s : State) :
    Host.Outcome State Fault Refusal := .next (s.slotIssue t.val p (.cmpi .eq d.toNat a.toNat imm.toNat))

/-- CMPLTI (R111). -/
def execCmplti (t : TileId) (p : Pred) (d : BitVec 3) (a : BitVec 5) (imm : BitVec 11) (s : State) :
    Host.Outcome State Fault Refusal := .next (s.slotIssue t.val p (.cmpi .lt d.toNat a.toNat imm.toNat))

/-- CMPLTUI (R111). -/
def execCmpltui (t : TileId) (p : Pred) (d : BitVec 3) (a : BitVec 5) (imm : BitVec 11) (s : State) :
    Host.Outcome State Fault Refusal := .next (s.slotIssue t.val p (.cmpi .ltu d.toNat a.toNat imm.toNat))

/-- PLOG_AND (R111). -/
def execPlogAnd (t : TileId) (p : Pred) (d a b : BitVec 3) (s : State) :
    Host.Outcome State Fault Refusal := .next (s.slotIssue t.val p (.plog .and d.toNat a.toNat b.toNat))

/-- PLOG_OR (R111). -/
def execPlogOr (t : TileId) (p : Pred) (d a b : BitVec 3) (s : State) :
    Host.Outcome State Fault Refusal := .next (s.slotIssue t.val p (.plog .or d.toNat a.toNat b.toNat))

/-- PLOG_XOR (R111). -/
def execPlogXor (t : TileId) (p : Pred) (d a b : BitVec 3) (s : State) :
    Host.Outcome State Fault Refusal := .next (s.slotIssue t.val p (.plog .xor d.toNat a.toNat b.toNat))

/-- PLOG_ANDN (R111). -/
def execPlogAndn (t : TileId) (p : Pred) (d a b : BitVec 3) (s : State) :
    Host.Outcome State Fault Refusal := .next (s.slotIssue t.val p (.plog .andn d.toNat a.toNat b.toNat))

/-- LD (R111). -/
def execLd (t : TileId) (p : Pred) (d a : BitVec 5) (imm : BitVec 11) (s : State) :
    Host.Outcome State Fault Refusal := .next (s.slotIssue t.val p (.mem .ld d.toNat a.toNat imm.toNat))

/-- ST (R111). -/
def execSt (t : TileId) (p : Pred) (d a : BitVec 5) (imm : BitVec 11) (s : State) :
    Host.Outcome State Fault Refusal := .next (s.slotIssue t.val p (.mem .st d.toNat a.toNat imm.toNat))

/-- LDH (R111). -/
def execLdh (t : TileId) (p : Pred) (d a : BitVec 5) (imm : BitVec 11) (s : State) :
    Host.Outcome State Fault Refusal := .next (s.slotIssue t.val p (.mem .ldh d.toNat a.toNat imm.toNat))

/-- STH (R111). -/
def execSth (t : TileId) (p : Pred) (d a : BitVec 5) (imm : BitVec 11) (s : State) :
    Host.Outcome State Fault Refusal := .next (s.slotIssue t.val p (.mem .sth d.toNat a.toNat imm.toNat))

/-- BR (R87). -/
def execBr (t : TileId) (p : Pred) (off : BitVec 21) (s : State) :
    Host.Outcome State Fault Refusal := .next (s.slotIssue t.val p (.br off.toNat))

/-- BRR (R87). -/
def execBrr (t : TileId) (p : Pred) (a : BitVec 5) (s : State) :
    Host.Outcome State Fault Refusal := .next (s.slotIssue t.val p (.brr a.toNat))

/-- LOOP (R89). -/
def execLoopArm (t : TileId) (p : Pred) (level : BitVec 1) (a : BitVec 5) (len : BitVec 15) (s : State) :
    Host.Outcome State Fault Refusal := .next (s.slotIssue t.val p (.loop level.toNat a.toNat len.toNat))

/-- END (R87). -/
def execEndTile (t : TileId) (p : Pred) (s : State) :
    Host.Outcome State Fault Refusal := .next (s.slotIssue t.val p (.endp))

/-- RDSPEC (R76). -/
def execRdspec (t : TileId) (p : Pred) (d sel : BitVec 5) (s : State) :
    Host.Outcome State Fault Refusal := .next (s.slotIssue t.val p (.rdspec d.toNat sel.toNat))

/-- VBF_ADD (R112). -/
def execVbfAdd (t : TileId) (p : Pred) (d a b : BitVec 4) (s : State) :
    Host.Outcome State Fault Refusal := .next (s.slotIssue t.val p (.vbf .add d.toNat a.toNat b.toNat 0))

/-- VBF_SUB (R112). -/
def execVbfSub (t : TileId) (p : Pred) (d a b : BitVec 4) (s : State) :
    Host.Outcome State Fault Refusal := .next (s.slotIssue t.val p (.vbf .sub d.toNat a.toNat b.toNat 0))

/-- VBF_MUL (R112). -/
def execVbfMul (t : TileId) (p : Pred) (d a b : BitVec 4) (s : State) :
    Host.Outcome State Fault Refusal := .next (s.slotIssue t.val p (.vbf .mul d.toNat a.toNat b.toNat 0))

/-- VBF_FMA (R112). -/
def execVbfFma (t : TileId) (p : Pred) (d a b c : BitVec 4) (s : State) :
    Host.Outcome State Fault Refusal := .next (s.slotIssue t.val p (.vbf .fma d.toNat a.toNat b.toNat c.toNat))

/-- VBF_MAX (R112). -/
def execVbfMax (t : TileId) (p : Pred) (d a b : BitVec 4) (s : State) :
    Host.Outcome State Fault Refusal := .next (s.slotIssue t.val p (.vbf .max d.toNat a.toNat b.toNat 0))

/-- VBF_MIN (R112). -/
def execVbfMin (t : TileId) (p : Pred) (d a b : BitVec 4) (s : State) :
    Host.Outcome State Fault Refusal := .next (s.slotIssue t.val p (.vbf .min d.toNat a.toNat b.toNat 0))

/-- VF32_ADD (R112). -/
def execVf32Add (t : TileId) (p : Pred) (wide : Bool) (d a b : BitVec 4) (s : State) :
    Host.Outcome State Fault Refusal := .next (s.slotIssue t.val p (.vf32 .add wide d.toNat a.toNat b.toNat 0))

/-- VF32_SUB (R112). -/
def execVf32Sub (t : TileId) (p : Pred) (wide : Bool) (d a b : BitVec 4) (s : State) :
    Host.Outcome State Fault Refusal := .next (s.slotIssue t.val p (.vf32 .sub wide d.toNat a.toNat b.toNat 0))

/-- VF32_MUL (R112). -/
def execVf32Mul (t : TileId) (p : Pred) (wide : Bool) (d a b : BitVec 4) (s : State) :
    Host.Outcome State Fault Refusal := .next (s.slotIssue t.val p (.vf32 .mul wide d.toNat a.toNat b.toNat 0))

/-- VF32_FMA (R112). -/
def execVf32Fma (t : TileId) (p : Pred) (wide : Bool) (d a b c : BitVec 4) (s : State) :
    Host.Outcome State Fault Refusal := .next (s.slotIssue t.val p (.vf32 .fma wide d.toNat a.toNat b.toNat c.toNat))

/-- VF32_MAX (R112). -/
def execVf32Max (t : TileId) (p : Pred) (wide : Bool) (d a b : BitVec 4) (s : State) :
    Host.Outcome State Fault Refusal := .next (s.slotIssue t.val p (.vf32 .max wide d.toNat a.toNat b.toNat 0))

/-- VF32_MIN (R112). -/
def execVf32Min (t : TileId) (p : Pred) (wide : Bool) (d a b : BitVec 4) (s : State) :
    Host.Outcome State Fault Refusal := .next (s.slotIssue t.val p (.vf32 .min wide d.toNat a.toNat b.toNat 0))

/-- VCVT_F32_BF16_NEAREST (R112). -/
def execVcvtF32Bf16Nearest (t : TileId) (p : Pred) (d a : BitVec 4) (s : State) :
    Host.Outcome State Fault Refusal := .next (s.slotIssue t.val p (.vcvt 0 d.toNat a.toNat))

/-- VCVT_F32_BF16_STOCHASTIC (R142). -/
def execVcvtF32Bf16Stochastic (t : TileId) (p : Pred) (d a : BitVec 4) (s : State) :
    Host.Outcome State Fault Refusal := .next (s.slotIssue t.val p (.vcvt 1 d.toNat a.toNat))

/-- VCVT_BF16_F32 (R112). -/
def execVcvtBf16F32 (t : TileId) (p : Pred) (d a : BitVec 4) (s : State) :
    Host.Outcome State Fault Refusal := .next (s.slotIssue t.val p (.vcvt 2 d.toNat a.toNat))

/-- VFUN_EXP2 (R140). -/
def execVfunExp2 (t : TileId) (p : Pred) (d a : BitVec 4) (s : State) :
    Host.Outcome State Fault Refusal := .next (s.slotIssue t.val p (.vfun .exp2 d.toNat a.toNat))

/-- VFUN_RCP (R140). -/
def execVfunRcp (t : TileId) (p : Pred) (d a : BitVec 4) (s : State) :
    Host.Outcome State Fault Refusal := .next (s.slotIssue t.val p (.vfun .rcp d.toNat a.toNat))

/-- VFUN_RSQRT (R140). -/
def execVfunRsqrt (t : TileId) (p : Pred) (d a : BitVec 4) (s : State) :
    Host.Outcome State Fault Refusal := .next (s.slotIssue t.val p (.vfun .rsqrt d.toNat a.toNat))

/-- VRED_SUM (R112). -/
def execVredSum (t : TileId) (p : Pred) (d a : BitVec 4) (s : State) :
    Host.Outcome State Fault Refusal := .next (s.slotIssue t.val p (.vred .sum d.toNat a.toNat))

/-- VRED_MAX (R112). -/
def execVredMax (t : TileId) (p : Pred) (d a : BitVec 4) (s : State) :
    Host.Outcome State Fault Refusal := .next (s.slotIssue t.val p (.vred .max d.toNat a.toNat))

/-- VRED_MIN (R112). -/
def execVredMin (t : TileId) (p : Pred) (d a : BitVec 4) (s : State) :
    Host.Outcome State Fault Refusal := .next (s.slotIssue t.val p (.vred .min d.toNat a.toNat))

/-- VRED_ANY (R112). -/
def execVredAny (t : TileId) (p : Pred) (d : BitVec 3) (a : BitVec 4) (s : State) :
    Host.Outcome State Fault Refusal := .next (s.slotIssue t.val p (.vred .any d.toNat a.toNat))

/-- VRED_ALL (R112). -/
def execVredAll (t : TileId) (p : Pred) (d : BitVec 3) (a : BitVec 4) (s : State) :
    Host.Outcome State Fault Refusal := .next (s.slotIssue t.val p (.vred .all d.toNat a.toNat))

/-- VLD (R112). -/
def execVld (t : TileId) (p : Pred) (d a : BitVec 4) (off : BitVec 13) (s : State) :
    Host.Outcome State Fault Refusal := .next (s.slotIssue t.val p (.vld d.toNat a.toNat off.toNat))

/-- VST (R112). -/
def execVst (t : TileId) (p : Pred) (d a : BitVec 4) (off : BitVec 13) (s : State) :
    Host.Outcome State Fault Refusal := .next (s.slotIssue t.val p (.vst d.toNat a.toNat off.toNat))

/-- VBCAST (R112). -/
def execVbcast (t : TileId) (p : Pred) (d a : BitVec 4) (s : State) :
    Host.Outcome State Fault Refusal := .next (s.slotIssue t.val p (.vbcast d.toNat a.toNat))

/-- VMOV (R112). -/
def execVmov (t : TileId) (p : Pred) (d a : BitVec 4) (s : State) :
    Host.Outcome State Fault Refusal := .next (s.slotIssue t.val p (.vmov d.toNat a.toNat))

/-- VRAND (R148). -/
def execVrand (t : TileId) (p : Pred) (d : BitVec 4) (s : State) :
    Host.Outcome State Fault Refusal := .next (s.slotIssue t.val p (.vrand d.toNat))

/-- VQ8_NEAREST (R143). -/
def execVq8Nearest (t : TileId) (p : Pred) (d a b : BitVec 4) (h : BitVec 1) (s : State) :
    Host.Outcome State Fault Refusal := .next (s.slotIssue t.val p (.vq8 false d.toNat a.toNat b.toNat h.toNat))

/-- VQ8_STOCHASTIC (R142). -/
def execVq8Stochastic (t : TileId) (p : Pred) (d a b : BitVec 4) (h : BitVec 1) (s : State) :
    Host.Outcome State Fault Refusal := .next (s.slotIssue t.val p (.vq8 true d.toNat a.toNat b.toNat h.toNat))

/-- VDQ8 (R144). -/
def execVdq8 (t : TileId) (p : Pred) (d a b : BitVec 4) (h : BitVec 1) (s : State) :
    Host.Outcome State Fault Refusal := .next (s.slotIssue t.val p (.vdq8 d.toNat a.toNat b.toNat h.toNat))

/-- PACK24_STRICT (R194). -/
def execPack24Strict (t : TileId) (p : Pred) (d a b c : BitVec 4) (s : State) :
    Host.Outcome State Fault Refusal := .next (s.slotIssue t.val p (.pack24 false d.toNat a.toNat b.toNat c.toNat))

/-- PACK24_PRUNE (R195). -/
def execPack24Prune (t : TileId) (p : Pred) (d a b c : BitVec 4) (s : State) :
    Host.Outcome State Fault Refusal := .next (s.slotIssue t.val p (.pack24 true d.toNat a.toNat b.toNat c.toNat))

/-- SVHIST_COARSE (R383). -/
def execSvhistCoarse (t : TileId) (p : Pred) (a : BitVec 4) (s : State) :
    Host.Outcome State Fault Refusal := .next (s.slotIssue t.val p (.sv .hist0 a.toNat))

/-- SVHIST_FINE (R383). -/
def execSvhistFine (t : TileId) (p : Pred) (a : BitVec 4) (s : State) :
    Host.Outcome State Fault Refusal := .next (s.slotIssue t.val p (.sv .hist1 a.toNat))

/-- SVCUT_COARSE (R384). -/
def execSvcutCoarse (t : TileId) (p : Pred) (a : BitVec 4) (s : State) :
    Host.Outcome State Fault Refusal := .next (s.slotIssue t.val p (.sv .cut0 a.toNat))

/-- SVCUT_FINE (R384). -/
def execSvcutFine (t : TileId) (p : Pred) (a : BitVec 4) (s : State) :
    Host.Outcome State Fault Refusal := .next (s.slotIssue t.val p (.sv .cut1 a.toNat))

/-- SVCUT_GATHER (R386). -/
def execSvcutGather (t : TileId) (p : Pred) (a : BitVec 4) (s : State) :
    Host.Outcome State Fault Refusal := .next (s.slotIssue t.val p (.sv .cut2 a.toNat))

/-- SVDRAW (R387). -/
def execSvdraw (t : TileId) (p : Pred) (a : BitVec 4) (s : State) :
    Host.Outcome State Fault Refusal := .next (s.slotIssue t.val p (.sv .draw a.toNat))

/-- MZERO (R170). -/
def execMzero (t : TileId) (p : Pred) (acc nrows : BitVec 6) (pair : Bool) (s : State) :
    Host.Outcome State Fault Refusal := .next (s.slotIssue t.val p (.mzero acc.toNat nrows.toNat pair))

/-- MLDW (R159). -/
def execMldw (t : TileId) (p : Pred) (a : BitVec 5) (wbuf : BitVec 1) (s : State) :
    Host.Outcome State Fault Refusal := .next (s.slotIssue t.val p (.mldw 1 a.toNat wbuf.toNat))

/-- MLDW8 (R159). -/
def execMldw8 (t : TileId) (p : Pred) (a : BitVec 5) (wbuf : BitVec 1) (s : State) :
    Host.Outcome State Fault Refusal := .next (s.slotIssue t.val p (.mldw 2 a.toNat wbuf.toNat))

/-- MLDW24 (R159). -/
def execMldw24 (t : TileId) (p : Pred) (a : BitVec 5) (wbuf fmt : BitVec 1) (s : State) :
    Host.Outcome State Fault Refusal := .next (s.slotIssue t.val p (.mldw (3 + fmt.toNat) a.toNat wbuf.toNat))

/-- MRUN (R162). -/
def execMrun (t : TileId) (p : Pred) (a : BitVec 5) (acc nrows : BitVec 6) (wbuf : BitVec 1) (s : State) :
    Host.Outcome State Fault Refusal := .next (s.slotIssue t.val p (.mrun a.toNat acc.toNat nrows.toNat wbuf.toNat))

/-- MBLK (R201). -/
def execMblk (t : TileId) (p : Pred) (a : BitVec 5) (acc : BitVec 6) (nrb half wbuf : BitVec 1) (s : State) :
    Host.Outcome State Fault Refusal := .next (s.slotIssue t.val p (.mblk a.toNat acc.toNat nrb.toNat half.toNat wbuf.toNat))

/-- MSPILL (R172). -/
def execMspill (t : TileId) (p : Pred) (a : BitVec 5) (interval : BitVec 7) (s : State) :
    Host.Outcome State Fault Refusal := .next (s.slotIssue t.val p (.mspill a.toNat interval.toNat))

/-- MEPI (R174). -/
def execMepi (t : TileId) (p : Pred) (a : BitVec 5) (op : BitVec 2) (efmt : BitVec 1) (rnd : BitVec 2) (s : State) :
    Host.Outcome State Fault Refusal := .next (s.slotIssue t.val p (.mepi a.toNat op.toNat efmt.toNat rnd.toNat))

/-- MOUT (R175). -/
def execMout (t : TileId) (p : Pred) (a : BitVec 5) (acc nrows : BitVec 6) (fold keep : Bool) (s : State) :
    Host.Outcome State Fault Refusal := .next (s.slotIssue t.val p (.mout a.toNat acc.toNat nrows.toNat fold keep))

/-- MRDA (R171). -/
def execMrda (t : TileId) (p : Pred) (d : BitVec 4) (acc : BitVec 6) (s : State) :
    Host.Outcome State Fault Refusal := .next (s.slotIssue t.val p (.mrda d.toNat acc.toNat))

/-- MLOOK (R206). -/
def execMlook (t : TileId) (p : Pred) (a : BitVec 5) (pacc nrows : BitVec 6) (wbuf : BitVec 1) (s : State) :
    Host.Outcome State Fault Refusal := .next (s.slotIssue t.val p (.mlook a.toNat pacc.toNat nrows.toNat wbuf.toNat))

/-- XWAIT (R114). -/
def execXwait (t : TileId) (p : Pred) (a slip : BitVec 5) (s : State) :
    Host.Outcome State Fault Refusal := .next (s.slotIssue t.val p (.xwait a.toNat slip.toNat))

/-- XTAKE (R224). -/
def execXtake (t : TileId) (p : Pred) (a slip : BitVec 5) (s : State) :
    Host.Outcome State Fault Refusal := .next (s.slotIssue t.val p (.xtake a.toNat slip.toNat))

/-- XPUT (R223). -/
def execXput (t : TileId) (p : Pred) (a slip : BitVec 5) (s : State) :
    Host.Outcome State Fault Refusal := .next (s.slotIssue t.val p (.xput a.toNat slip.toNat))

/-- SOADD (R273). -/
def execSoadd (t : TileId) (p : Pred) (a : BitVec 5) (obj : BitVec 13) (s : State) :
    Host.Outcome State Fault Refusal := .next (s.slotIssue t.val p (.soadd a.toNat obj.toNat))

/-- SOWAIT (R273). -/
def execSowait (t : TileId) (p : Pred) (a : BitVec 5) (obj : BitVec 13) (s : State) :
    Host.Outcome State Fault Refusal := .next (s.slotIssue t.val p (.sowait a.toNat obj.toNat))

/-- SOSET (R273). -/
def execSoset (t : TileId) (p : Pred) (a : BitVec 5) (obj : BitVec 13) (s : State) :
    Host.Outcome State Fault Refusal := .next (s.slotIssue t.val p (.soset a.toNat obj.toNat))

/-- MFPOST (R294). -/
def execMfpost (t : TileId) (p : Pred) (a : BitVec 5) (s : State) :
    Host.Outcome State Fault Refusal := .next (s.slotIssue t.val p (.mf .post a.toNat))

/-- MFSAMP (R285). -/
def execMfsamp (t : TileId) (p : Pred) (a : BitVec 5) (s : State) :
    Host.Outcome State Fault Refusal := .next (s.slotIssue t.val p (.mf .samp a.toNat))

/-- MFREV (R302). -/
def execMfrev (t : TileId) (p : Pred) (a : BitVec 5) (s : State) :
    Host.Outcome State Fault Refusal := .next (s.slotIssue t.val p (.mf .rev a.toNat))

/-- QPOST_TIMED (R319): the QPOST of a descriptor that is no PUSH; the other kind is the other command's. -/
def execQpostTimed (t : TileId) (p : Pred) (a : BitVec 5) (s : State) :
    Host.Outcome State Fault Refusal :=
  .next (if !s.postsPush t.val a.toNat then s.slotIssue t.val p (.qpost a.toNat) else s)

/-- QPOST_PUSH (R326): the QPOST of a PUSH descriptor; the other kind is the other command's. -/
def execQpostPush (t : TileId) (p : Pred) (a : BitVec 5) (s : State) :
    Host.Outcome State Fault Refusal :=
  .next (if s.postsPush t.val a.toNat then s.slotIssue t.val p (.qpost a.toNat) else s)

end Sys2Proof.Machine
end

