-- ==== Sys2Proof/Machine/Dispatch.lean ====
section
/-! DEFINITION. The dispatch: one arm per command. -/

namespace Sys2Proof.Machine

/-- The effect of a command on everything but the queue. -/
def exec (i : Instr) (s : State) : Host.Outcome State Fault Refusal :=
  match i with
  | .pinEnMate => Sys2Proof.Machine.execPinEnMate s
  | .pinEnBreak => Sys2Proof.Machine.execPinEnBreak s
  | .inputUndervoltage => Sys2Proof.Machine.execInputUndervoltage s
  | .inputUvloRelease => Sys2Proof.Machine.execInputUvloRelease s
  | .inputOvervoltage => Sys2Proof.Machine.execInputOvervoltage s
  | .overvoltageRecovery => Sys2Proof.Machine.execOvervoltageRecovery s
  | .modResetAssert => Sys2Proof.Machine.execModResetAssert s
  | .modResetFilterExpire => Sys2Proof.Machine.execModResetFilterExpire s
  | .powerUpStart => Sys2Proof.Machine.execPowerUpStart s
  | .railRampDone => Sys2Proof.Machine.execRailRampDone s
  | .railRampTimeout => Sys2Proof.Machine.execRailRampTimeout s
  | .railFault rail => Sys2Proof.Machine.execRailFault rail s
  | .thermalTrip => Sys2Proof.Machine.execThermalTrip s
  | .cableInsert port mw => Sys2Proof.Machine.execCableInsert port mw s
  | .cableRemove port => Sys2Proof.Machine.execCableRemove port s
  | .barrierArrival cls unit b => Sys2Proof.Machine.execBarrierArrival cls unit b s
  | .crossingStart part c => Sys2Proof.Machine.execCrossingStart part c s
  | .tileRelease t => Sys2Proof.Machine.execTileRelease t s
  | .timetableEntryAdvance t => Sys2Proof.Machine.execTimetableEntryAdvance t s
  | .sendingRead t cycle ecc => Sys2Proof.Machine.execSendingRead t cycle ecc s
  | .flitTake t port ecc => Sys2Proof.Machine.execFlitTake t port ecc s
  | .flitEjectLand t => Sys2Proof.Machine.execFlitEjectLand t s
  | .checkpointSample qmask rmask fmask => Sys2Proof.Machine.execCheckpointSample qmask rmask fmask s
  | .holdBegin => Sys2Proof.Machine.execHoldBegin s
  | .holdPoll qmask rmask fmask => Sys2Proof.Machine.execHoldPoll qmask rmask fmask s
  | .gridResume => Sys2Proof.Machine.execGridResume s
  | .slackOverlong => Sys2Proof.Machine.execSlackOverlong s
  | .wordIssue t ecc => Sys2Proof.Machine.execWordIssue t ecc s
  | .resultRetire t => Sys2Proof.Machine.execResultRetire t s
  | .watchdogExpire t => Sys2Proof.Machine.execWatchdogExpire t s
  | .tCtrlGo t => Sys2Proof.Machine.execTCtrlGo t s
  | .tCtrlResume t => Sys2Proof.Machine.execTCtrlResume t s
  | .tCtrlStop t => Sys2Proof.Machine.execTCtrlStop t s
  | .aluAdd t p d a b => Sys2Proof.Machine.execAluAdd t p d a b s
  | .aluSub t p d a b => Sys2Proof.Machine.execAluSub t p d a b s
  | .aluAnd t p d a b => Sys2Proof.Machine.execAluAnd t p d a b s
  | .aluOr t p d a b => Sys2Proof.Machine.execAluOr t p d a b s
  | .aluXor t p d a b => Sys2Proof.Machine.execAluXor t p d a b s
  | .aluShl t p d a b => Sys2Proof.Machine.execAluShl t p d a b s
  | .aluShr t p d a b => Sys2Proof.Machine.execAluShr t p d a b s
  | .aluSra t p d a b => Sys2Proof.Machine.execAluSra t p d a b s
  | .aluMul t p d a b => Sys2Proof.Machine.execAluMul t p d a b s
  | .aluMin t p d a b => Sys2Proof.Machine.execAluMin t p d a b s
  | .aluMax t p d a b => Sys2Proof.Machine.execAluMax t p d a b s
  | .aluMinu t p d a b => Sys2Proof.Machine.execAluMinu t p d a b s
  | .aluMaxu t p d a b => Sys2Proof.Machine.execAluMaxu t p d a b s
  | .addi t p d a imm => Sys2Proof.Machine.execAddi t p d a imm s
  | .andi t p d a imm => Sys2Proof.Machine.execAndi t p d a imm s
  | .ori t p d a imm => Sys2Proof.Machine.execOri t p d a imm s
  | .xori t p d a imm => Sys2Proof.Machine.execXori t p d a imm s
  | .shiShl t p d a sh => Sys2Proof.Machine.execShiShl t p d a sh s
  | .shiShr t p d a sh => Sys2Proof.Machine.execShiShr t p d a sh s
  | .shiSra t p d a sh => Sys2Proof.Machine.execShiSra t p d a sh s
  | .cati t p d a imm => Sys2Proof.Machine.execCati t p d a imm s
  | .cmpEq t p d a b => Sys2Proof.Machine.execCmpEq t p d a b s
  | .cmpNe t p d a b => Sys2Proof.Machine.execCmpNe t p d a b s
  | .cmpLt t p d a b => Sys2Proof.Machine.execCmpLt t p d a b s
  | .cmpLtu t p d a b => Sys2Proof.Machine.execCmpLtu t p d a b s
  | .cmpGe t p d a b => Sys2Proof.Machine.execCmpGe t p d a b s
  | .cmpGeu t p d a b => Sys2Proof.Machine.execCmpGeu t p d a b s
  | .cmpeqi t p d a imm => Sys2Proof.Machine.execCmpeqi t p d a imm s
  | .cmplti t p d a imm => Sys2Proof.Machine.execCmplti t p d a imm s
  | .cmpltui t p d a imm => Sys2Proof.Machine.execCmpltui t p d a imm s
  | .plogAnd t p d a b => Sys2Proof.Machine.execPlogAnd t p d a b s
  | .plogOr t p d a b => Sys2Proof.Machine.execPlogOr t p d a b s
  | .plogXor t p d a b => Sys2Proof.Machine.execPlogXor t p d a b s
  | .plogAndn t p d a b => Sys2Proof.Machine.execPlogAndn t p d a b s
  | .ld t p d a imm => Sys2Proof.Machine.execLd t p d a imm s
  | .st t p d a imm => Sys2Proof.Machine.execSt t p d a imm s
  | .ldh t p d a imm => Sys2Proof.Machine.execLdh t p d a imm s
  | .sth t p d a imm => Sys2Proof.Machine.execSth t p d a imm s
  | .br t p off => Sys2Proof.Machine.execBr t p off s
  | .brr t p a => Sys2Proof.Machine.execBrr t p a s
  | .loopArm t p level a len => Sys2Proof.Machine.execLoopArm t p level a len s
  | .endTile t p => Sys2Proof.Machine.execEndTile t p s
  | .rdspec t p d sel => Sys2Proof.Machine.execRdspec t p d sel s
  | .vbfAdd t p d a b => Sys2Proof.Machine.execVbfAdd t p d a b s
  | .vbfSub t p d a b => Sys2Proof.Machine.execVbfSub t p d a b s
  | .vbfMul t p d a b => Sys2Proof.Machine.execVbfMul t p d a b s
  | .vbfFma t p d a b c => Sys2Proof.Machine.execVbfFma t p d a b c s
  | .vbfMax t p d a b => Sys2Proof.Machine.execVbfMax t p d a b s
  | .vbfMin t p d a b => Sys2Proof.Machine.execVbfMin t p d a b s
  | .vf32Add t p wide d a b => Sys2Proof.Machine.execVf32Add t p wide d a b s
  | .vf32Sub t p wide d a b => Sys2Proof.Machine.execVf32Sub t p wide d a b s
  | .vf32Mul t p wide d a b => Sys2Proof.Machine.execVf32Mul t p wide d a b s
  | .vf32Fma t p wide d a b c => Sys2Proof.Machine.execVf32Fma t p wide d a b c s
  | .vf32Max t p wide d a b => Sys2Proof.Machine.execVf32Max t p wide d a b s
  | .vf32Min t p wide d a b => Sys2Proof.Machine.execVf32Min t p wide d a b s
  | .vcvtF32Bf16Nearest t p d a => Sys2Proof.Machine.execVcvtF32Bf16Nearest t p d a s
  | .vcvtF32Bf16Stochastic t p d a => Sys2Proof.Machine.execVcvtF32Bf16Stochastic t p d a s
  | .vcvtBf16F32 t p d a => Sys2Proof.Machine.execVcvtBf16F32 t p d a s
  | .vfunExp2 t p d a => Sys2Proof.Machine.execVfunExp2 t p d a s
  | .vfunRcp t p d a => Sys2Proof.Machine.execVfunRcp t p d a s
  | .vfunRsqrt t p d a => Sys2Proof.Machine.execVfunRsqrt t p d a s
  | .vredSum t p d a => Sys2Proof.Machine.execVredSum t p d a s
  | .vredMax t p d a => Sys2Proof.Machine.execVredMax t p d a s
  | .vredMin t p d a => Sys2Proof.Machine.execVredMin t p d a s
  | .vredAny t p d a => Sys2Proof.Machine.execVredAny t p d a s
  | .vredAll t p d a => Sys2Proof.Machine.execVredAll t p d a s
  | .vld t p d a off => Sys2Proof.Machine.execVld t p d a off s
  | .vst t p d a off => Sys2Proof.Machine.execVst t p d a off s
  | .vbcast t p d a => Sys2Proof.Machine.execVbcast t p d a s
  | .vmov t p d a => Sys2Proof.Machine.execVmov t p d a s
  | .vrand t p d => Sys2Proof.Machine.execVrand t p d s
  | .vq8Nearest t p d a b h => Sys2Proof.Machine.execVq8Nearest t p d a b h s
  | .vq8Stochastic t p d a b h => Sys2Proof.Machine.execVq8Stochastic t p d a b h s
  | .vdq8 t p d a b h => Sys2Proof.Machine.execVdq8 t p d a b h s
  | .pack24Strict t p d a b c => Sys2Proof.Machine.execPack24Strict t p d a b c s
  | .pack24Prune t p d a b c => Sys2Proof.Machine.execPack24Prune t p d a b c s
  | .svhistCoarse t p a => Sys2Proof.Machine.execSvhistCoarse t p a s
  | .svhistFine t p a => Sys2Proof.Machine.execSvhistFine t p a s
  | .svcutCoarse t p a => Sys2Proof.Machine.execSvcutCoarse t p a s
  | .svcutFine t p a => Sys2Proof.Machine.execSvcutFine t p a s
  | .svcutGather t p a => Sys2Proof.Machine.execSvcutGather t p a s
  | .svdraw t p a => Sys2Proof.Machine.execSvdraw t p a s
  | .sieveInstrStart t ecc => Sys2Proof.Machine.execSieveInstrStart t ecc s
  | .sieveInstrFinish t => Sys2Proof.Machine.execSieveInstrFinish t s
  | .commitRefusedHalt t => Sys2Proof.Machine.execCommitRefusedHalt t s
  | .mzero t p acc nrows pair => Sys2Proof.Machine.execMzero t p acc nrows pair s
  | .mldw t p a wbuf => Sys2Proof.Machine.execMldw t p a wbuf s
  | .mldw8 t p a wbuf => Sys2Proof.Machine.execMldw8 t p a wbuf s
  | .mldw24 t p a wbuf fmt => Sys2Proof.Machine.execMldw24 t p a wbuf fmt s
  | .mrun t p a acc nrows wbuf => Sys2Proof.Machine.execMrun t p a acc nrows wbuf s
  | .mblk t p a acc nrb half wbuf => Sys2Proof.Machine.execMblk t p a acc nrb half wbuf s
  | .mspill t p a interval => Sys2Proof.Machine.execMspill t p a interval s
  | .mepi t p a op efmt rnd => Sys2Proof.Machine.execMepi t p a op efmt rnd s
  | .mout t p a acc nrows fold keep => Sys2Proof.Machine.execMout t p a acc nrows fold keep s
  | .mrda t p d acc => Sys2Proof.Machine.execMrda t p d acc s
  | .mlook t p a pacc nrows wbuf => Sys2Proof.Machine.execMlook t p a pacc nrows wbuf s
  | .tokenGrant dom => Sys2Proof.Machine.execTokenGrant dom s
  | .matrixInstrStart t lane ecc => Sys2Proof.Machine.execMatrixInstrStart t lane ecc s
  | .matrixInstrFinish t lane => Sys2Proof.Machine.execMatrixInstrFinish t lane s
  | .xwait t p a slip => Sys2Proof.Machine.execXwait t p a slip s
  | .xtake t p a slip => Sys2Proof.Machine.execXtake t p a slip s
  | .xput t p a slip => Sys2Proof.Machine.execXput t p a slip s
  | .qpostTimed t p a => Sys2Proof.Machine.execQpostTimed t p a s
  | .qpostPush t p a => Sys2Proof.Machine.execQpostPush t p a s
  | .soadd t p a obj => Sys2Proof.Machine.execSoadd t p a obj s
  | .sowait t p a obj => Sys2Proof.Machine.execSowait t p a obj s
  | .soset t p a obj => Sys2Proof.Machine.execSoset t p a obj s
  | .mfpost t p a => Sys2Proof.Machine.execMfpost t p a s
  | .mfsamp t p a => Sys2Proof.Machine.execMfsamp t p a s
  | .mfrev t p a => Sys2Proof.Machine.execMfrev t p a s
  | .soHubApply => Sys2Proof.Machine.execSoHubApply s
  | .soOpAdd core obj value => Sys2Proof.Machine.execSoOpAdd core obj value s
  | .soOpSet core obj value => Sys2Proof.Machine.execSoOpSet core obj value s
  | .soOpAnswer core => Sys2Proof.Machine.execSoOpAnswer core s
  | .xtBarArrive core b => Sys2Proof.Machine.execXtBarArrive core b s
  | .creditRequest t slip bytes cls unit => Sys2Proof.Machine.execCreditRequest t slip bytes cls unit s
  | .creditGrant t => Sys2Proof.Machine.execCreditGrant t s
  | .creditedWrite t rec cls unit off data last => Sys2Proof.Machine.execCreditedWrite t rec cls unit off data last s
  | .creditAppend t slip => Sys2Proof.Machine.execCreditAppend t slip s
  | .taskWindowAccess t who off size wr ecc => Sys2Proof.Machine.execTaskWindowAccess t who off size wr ecc s
  | .slipRegisterWrite t slip reg value => Sys2Proof.Machine.execSlipRegisterWrite t slip reg value s
  | .dbgGo => Sys2Proof.Machine.execDbgGo s
  | .debugAccessComplete ecc => Sys2Proof.Machine.execDebugAccessComplete ecc s
  | .eccWriteback t => Sys2Proof.Machine.execEccWriteback t s
  | .patrolScrubRead t bank ecc => Sys2Proof.Machine.execPatrolScrubRead t bank ecc s
  | .mfDescriptorStart t lane ecc => Sys2Proof.Machine.execMfDescriptorStart t lane ecc s
  | .mfSeedComplete t => Sys2Proof.Machine.execMfSeedComplete t s
  | .mfSamplingReadReturn t ecc => Sys2Proof.Machine.execMfSamplingReadReturn t ecc s
  | .mfRunSlotting t => Sys2Proof.Machine.execMfRunSlotting t s
  | .mfRunEnd t => Sys2Proof.Machine.execMfRunEnd t s
  | .carryReport t => Sys2Proof.Machine.execCarryReport t s
  | .carryRunStart part c => Sys2Proof.Machine.execCarryRunStart part c s
  | .mfDescriptorComplete t lane => Sys2Proof.Machine.execMfDescriptorComplete t lane s
  | .quayDescriptorAccept q => Sys2Proof.Machine.execQuayDescriptorAccept q s
  | .quayBarrierArrive q part c => Sys2Proof.Machine.execQuayBarrierArrive q part c s
  | .engineBarrierArrive k part c => Sys2Proof.Machine.execEngineBarrierArrive k part c s
  | .quayFetchStart q tpl => Sys2Proof.Machine.execQuayFetchStart q tpl s
  | .gddr7AccessComplete q ecc => Sys2Proof.Machine.execGddr7AccessComplete q ecc s
  | .refreshIntervalDue q => Sys2Proof.Machine.execRefreshIntervalDue q s
  | .refreshWindowOpen q => Sys2Proof.Machine.execRefreshWindowOpen q s
  | .quayPushStart q => Sys2Proof.Machine.execQuayPushStart q s
  | .pushChunkDone q eccs => Sys2Proof.Machine.execPushChunkDone q eccs s
  | .wabReservationGrant q => Sys2Proof.Machine.execWabReservationGrant q s
  | .wabWriteAccept q => Sys2Proof.Machine.execWabWriteAccept q s
  | .wabRetire q => Sys2Proof.Machine.execWabRetire q s
  | .quayGradientAdd q ecc => Sys2Proof.Machine.execQuayGradientAdd q ecc s
  | .edcRetry q write => Sys2Proof.Machine.execEdcRetry q write s
  | .deviceTempRead q temp => Sys2Proof.Machine.execDeviceTempRead q temp s
  | .quayLinkTrain q ok => Sys2Proof.Machine.execQuayLinkTrain q ok s
  | .qrPinWrite who pin second value => Sys2Proof.Machine.execQrPinWrite who pin second value s
  | .ringRequestArrive q req => Sys2Proof.Machine.execRingRequestArrive q req s
  | .spokeReadComplete k ecc => Sys2Proof.Machine.execSpokeReadComplete k ecc s
  | .landingAccess who addr size acc data ecc => Sys2Proof.Machine.execLandingAccess who addr size acc data ecc s
  | .landingMemReadComplete core ecc => Sys2Proof.Machine.execLandingMemReadComplete core ecc s
  | .landingFence core => Sys2Proof.Machine.execLandingFence core s
  | .lSowaitWrite core obj => Sys2Proof.Machine.execLSowaitWrite core obj s
  | .lSowaitResultRead core => Sys2Proof.Machine.execLSowaitResultRead core s
  | .landingSowaitAnswer core => Sys2Proof.Machine.execLandingSowaitAnswer core s
  | .lSowaitLimitExpire core => Sys2Proof.Machine.execLSowaitLimitExpire core s
  | .lCredReqWrite core tile slip bytes => Sys2Proof.Machine.execLCredReqWrite core tile slip bytes s
  | .lCredResultRead core => Sys2Proof.Machine.execLCredResultRead core s
  | .creditApertureStore core j data => Sys2Proof.Machine.execCreditApertureStore core j data s
  | .streamDeclare core slot => Sys2Proof.Machine.execStreamDeclare core slot s
  | .streamCancel core slot => Sys2Proof.Machine.execStreamCancel core slot s
  | .streamLineFill core slot => Sys2Proof.Machine.execStreamLineFill core slot s
  | .epochFlip core value => Sys2Proof.Machine.execEpochFlip core value s
  | .cacheOpWriteback core base lines => Sys2Proof.Machine.execCacheOpWriteback core base lines s
  | .cacheOpInvalidate core base lines => Sys2Proof.Machine.execCacheOpInvalidate core base lines s
  | .cacheOpWritebackInvalidate core base lines => Sys2Proof.Machine.execCacheOpWritebackInvalidate core base lines s
  | .cacheOpDone => Sys2Proof.Machine.execCacheOpDone s
  | .lCfgLsramWrite core lsram => Sys2Proof.Machine.execLCfgLsramWrite core lsram s
  | .lRngDataRead core => Sys2Proof.Machine.execLRngDataRead core s
  | .taskPreempt core => Sys2Proof.Machine.execTaskPreempt core s
  | .admitPrefill slot => Sys2Proof.Machine.execAdmitPrefill slot s
  | .admitDecode slot => Sys2Proof.Machine.execAdmitDecode slot s
  | .rosCancel slot => Sys2Proof.Machine.execRosCancel slot s
  | .harvest slot => Sys2Proof.Machine.execHarvest slot s
  | .rosterEntryWrite core entry word value => Sys2Proof.Machine.execRosterEntryWrite core entry word value s
  | .rosBuild => Sys2Proof.Machine.execRosBuild s
  | .rosFinalize => Sys2Proof.Machine.execRosFinalize s
  | .phase1Begin => Sys2Proof.Machine.execPhase1Begin s
  | .phase1Complete => Sys2Proof.Machine.execPhase1Complete s
  | .logSpaceAvailable => Sys2Proof.Machine.execLogSpaceAvailable s
  | .listPublish => Sys2Proof.Machine.execListPublish s
  | .commitReceive t => Sys2Proof.Machine.execCommitReceive t s
  | .commitApply => Sys2Proof.Machine.execCommitApply s
  | .rosPoolPush page => Sys2Proof.Machine.execRosPoolPush page s
  | .rosPoolPop => Sys2Proof.Machine.execRosPoolPop s
  | .cfPost k addr => Sys2Proof.Machine.execCfPost k addr s
  | .reduceScatter k => Sys2Proof.Machine.execReduceScatter k s
  | .allGather k => Sys2Proof.Machine.execAllGather k s
  | .allReduce k => Sys2Proof.Machine.execAllReduce k s
  | .permute k => Sys2Proof.Machine.execPermute k s
  | .allToAll k => Sys2Proof.Machine.execAllToAll k s
  | .segmentReceive k seg => Sys2Proof.Machine.execSegmentReceive k seg s
  | .phaseDeadlineExpire k => Sys2Proof.Machine.execPhaseDeadlineExpire k s
  | .verdictDeadlineExpire k => Sys2Proof.Machine.execVerdictDeadlineExpire k s
  | .cfAbort k => Sys2Proof.Machine.execCfAbort k s
  | .cfChanWrite k chan second value => Sys2Proof.Machine.execCfChanWrite k chan second value s
  | .linkTrainAttempt port => Sys2Proof.Machine.execLinkTrainAttempt port s
  | .linkTrained port => Sys2Proof.Machine.execLinkTrained port s
  | .helloSendTimer port => Sys2Proof.Machine.execHelloSendTimer port s
  | .helloReceive port sysid endpoint peerPort buf0 buf1 => Sys2Proof.Machine.execHelloReceive port sysid endpoint peerPort buf0 buf1 s
  | .chcreditReceive port chan count => Sys2Proof.Machine.execChcreditReceive port chan count s
  | .fetchDataReceive port reqid off data => Sys2Proof.Machine.execFetchDataReceive port reqid off data s
  | .fetchEndReceive port reqid status total => Sys2Proof.Machine.execFetchEndReceive port reqid status total s
  | .fetchRequestTimeout reqid => Sys2Proof.Machine.execFetchRequestTimeout reqid s
  | .frameReceive port frame => Sys2Proof.Machine.execFrameReceive port frame s
  | .ackReceive port word => Sys2Proof.Machine.execAckReceive port word s
  | .frameSend port => Sys2Proof.Machine.execFrameSend port s
  | .replayTimeout port => Sys2Proof.Machine.execReplayTimeout port s
  | .ackDelayTimeout port => Sys2Proof.Machine.execAckDelayTimeout port s
  | .ackKeepalive port => Sys2Proof.Machine.execAckKeepalive port s
  | .fecLockLoss port => Sys2Proof.Machine.execFecLockLoss port s
  | .fecErrorLimit port => Sys2Proof.Machine.execFecErrorLimit port s
  | .peerSignalLoss port => Sys2Proof.Machine.execPeerSignalLoss port s
  | .flCtlDown port => Sys2Proof.Machine.execFlCtlDown port s
  | .regulatorAdmit part fab bytes => Sys2Proof.Machine.execRegulatorAdmit part fab bytes s
  | .energyWindowEnd => Sys2Proof.Machine.execEnergyWindowEnd s
  | .switchBoundaryWaitExpire => Sys2Proof.Machine.execSwitchBoundaryWaitExpire s
  | .switchDrainComplete => Sys2Proof.Machine.execSwitchDrainComplete s
  | .switchDrainTimeout => Sys2Proof.Machine.execSwitchDrainTimeout s
  | .switchSaveComplete => Sys2Proof.Machine.execSwitchSaveComplete s
  | .switchRestoreComplete => Sys2Proof.Machine.execSwitchRestoreComplete s
  | .clampSample deciwatts centivolts => Sys2Proof.Machine.execClampSample deciwatts centivolts s
  | .thermalSensorRead die => Sys2Proof.Machine.execThermalSensorRead die s
  | .thermalGrantStep mem => Sys2Proof.Machine.execThermalGrantStep mem s
  | .roastSelection part boundary => Sys2Proof.Machine.execRoastSelection part boundary s
  | .idleEntry => Sys2Proof.Machine.execIdleEntry s
  | .gridSeedingComplete => Sys2Proof.Machine.execGridSeedingComplete s
  | .cpDoorbell port req => Sys2Proof.Machine.execCpDoorbell port req s
  | .commandComplete port => Sys2Proof.Machine.execCommandComplete port s
  | .relayTimeout port => Sys2Proof.Machine.execRelayTimeout port s
  | .functionReset kind => Sys2Proof.Machine.execFunctionReset kind s
  | .statusWindowRefresh => Sys2Proof.Machine.execStatusWindowRefresh s
  | .getState port => Sys2Proof.Machine.execGetState port s
  | .loadProgram part client ingest length digest name => Sys2Proof.Machine.execLoadProgram part client ingest length digest name s
  | .unloadProgram part client => Sys2Proof.Machine.execUnloadProgram part client s
  | .startGrid part => Sys2Proof.Machine.execStartGrid part s
  | .stopGrid pmask => Sys2Proof.Machine.execStopGrid pmask s
  | .haltTile tile => Sys2Proof.Machine.execHaltTile tile s
  | .fenceCmd kind unit => Sys2Proof.Machine.execFenceCmd kind unit s
  | .unfence kind unit => Sys2Proof.Machine.execUnfence kind unit s
  | .contextSwitch pmask flags clients wait model => Sys2Proof.Machine.execContextSwitch pmask flags clients wait model s
  | .setPartitions partA partB => Sys2Proof.Machine.execSetPartitions partA partB s
  | .readAccounts port cmask => Sys2Proof.Machine.execReadAccounts port cmask s
  | .drainCmd limit => Sys2Proof.Machine.execDrainCmd limit s
  | .drainLimitExpire => Sys2Proof.Machine.execDrainLimitExpire s
  | .reportFaults port start max => Sys2Proof.Machine.execReportFaults port start max s
  | .powerSetLimit limit => Sys2Proof.Machine.execPowerSetLimit limit s
  | .powerSetGrant grant => Sys2Proof.Machine.execPowerSetGrant grant s
  | .powerOff => Sys2Proof.Machine.execPowerOff s
  | .powerOn => Sys2Proof.Machine.execPowerOn s
  | .resetModule port => Sys2Proof.Machine.execResetModule port s
  | .stageImage slot flags off data => Sys2Proof.Machine.execStageImage slot flags off data s
  | .activateImage slot => Sys2Proof.Machine.execActivateImage slot s
  | .drowse => Sys2Proof.Machine.execDrowse s
  | .wake => Sys2Proof.Machine.execWake s
  | .bootRomStart ok => Sys2Proof.Machine.execBootRomStart ok s
  | .entropyHealthFail => Sys2Proof.Machine.execEntropyHealthFail s
  | .imageStreamComplete => Sys2Proof.Machine.execImageStreamComplete s
  | .supervisorReady => Sys2Proof.Machine.execSupervisorReady s
  | .supervisorReadyTimeout => Sys2Proof.Machine.execSupervisorReadyTimeout s
  | .setEndpointId eid => Sys2Proof.Machine.execSetEndpointId eid s
  | .getEndpointId => Sys2Proof.Machine.execGetEndpointId s
  | .getMctpVersionSupport => Sys2Proof.Machine.execGetMctpVersionSupport s
  | .getMessageTypeSupport => Sys2Proof.Machine.execGetMessageTypeSupport s
  | .getVersion doe req => Sys2Proof.Machine.execGetVersion doe req s
  | .getCapabilities doe req => Sys2Proof.Machine.execGetCapabilities doe req s
  | .negotiateAlgorithms doe req => Sys2Proof.Machine.execNegotiateAlgorithms doe req s
  | .getDigests doe req => Sys2Proof.Machine.execGetDigests doe req s
  | .getCertificate doe req => Sys2Proof.Machine.execGetCertificate doe req s
  | .challenge doe req => Sys2Proof.Machine.execChallenge doe req s
  | .getMeasurements doe req => Sys2Proof.Machine.execGetMeasurements doe req s
  | .ftFenceRequest kind unit => Sys2Proof.Machine.execFtFenceRequest kind unit s
  | .ftUnfenceRequest kind unit => Sys2Proof.Machine.execFtUnfenceRequest kind unit s
  | .fenceExecute => Sys2Proof.Machine.execFenceExecute s
  | .reclaimWalkEnd => Sys2Proof.Machine.execReclaimWalkEnd s
  | .unfenceExecute => Sys2Proof.Machine.execUnfenceExecute s
  | .ftEvqBRead => Sys2Proof.Machine.execFtEvqBRead s
  | .corrWindowEnd => Sys2Proof.Machine.execCorrWindowEnd s
  | .leaseAcquire core lease term => Sys2Proof.Machine.execLeaseAcquire core lease term s
  | .leaseRenew core lease term => Sys2Proof.Machine.execLeaseRenew core lease term s
  | .leaseRelease core lease => Sys2Proof.Machine.execLeaseRelease core lease s
  | .leaseExpire lease => Sys2Proof.Machine.execLeaseExpire lease s
  | .ftSoftCode code => Sys2Proof.Machine.execFtSoftCode code s
  | .xtSlackLongestRead => Sys2Proof.Machine.execXtSlackLongestRead s
  | .tEccLastRead t => Sys2Proof.Machine.execTEccLastRead t s
  | .mfCarryMaxRead t => Sys2Proof.Machine.execMfCarryMaxRead t s
  | .qWabMaxRead q => Sys2Proof.Machine.execQWabMaxRead q s
  | .qEccLastRead q => Sys2Proof.Machine.execQEccLastRead q s
  | .lFaultRead core => Sys2Proof.Machine.execLFaultRead core s
  | .lEccLastRead => Sys2Proof.Machine.execLEccLastRead s
  | .registerWrite who addr value => Sys2Proof.Machine.execRegisterWrite who addr value s
  | .modResetRelease => Sys2Proof.Machine.execModResetRelease s
  | .controlPortLinkTrained width rate flit => Sys2Proof.Machine.execControlPortLinkTrained width rate flit s
  | .configurationRequest d3hot bme msixEn => Sys2Proof.Machine.execConfigurationRequest d3hot bme msixEn s
  | .setdasa dyn => Sys2Proof.Machine.execSetdasa dyn s

end Sys2Proof.Machine
end

