-- ==== Sys2Proof/Safety.lean ====
section
/-! DEFINITION. What the claims are stated in: the canonical form of the state, well-formed slots, what a command
leaves alone, and the calm state in which a word of a tile issues. -/

namespace Sys2Proof.Machine

/-! ## Canonical form -/

/-- Memory is in its canonical form: addresses strictly rising, no byte listed that reads as an unlisted one does. -/
def Memory.wf (s : State) : Bool := awf (0 : Byte) s.mem

/-- The register file is in its canonical form: keys strictly rising, no field listed at its reset value. -/
def Regs.wf (s : State) : Bool := awf 0 s.rf

/-- Both sparse maps are in their canonical form, so that equal memories and registers are equal data. -/
def State.wf (s : State) : Bool := Memory.wf s && Regs.wf s

/-- A safe outcome: the machine goes on. -/
def goesOn (o : Host.Outcome State Fault Refusal) : Prop := ∃ t, o = .next t

/-! ## Well-formed slots -/

/-- Whether a slot's operand fields fit their encodings and hold no reserved value (R80–R82, R87, R111–R114, R143,
R144, R159–R175, R192, R201, R206, R227, R381, R552). -/
def SlotOp.wf : SlotOp → Bool
  | .alu _ d a b => r5 d && r5 a && r5 b
  | .imm _ d a i => r5 d && r5 a && decide (i < 2048)
  | .shi _ d a sh => r5 d && r5 a && r5 sh
  | .cmp _ d a b => r3 d && r5 a && r5 b
  | .cmpi _ d a i => r3 d && r5 a && decide (i < 2048)
  | .plog _ d a b => r3 d && r3 a && r3 b
  | .mem _ d a i => r5 d && r5 a && decide (i < 2048)
  | .br off => decide (off < 2 ^ 21)
  | .brr a => r5 a
  | .loop l a n => r1 l && r5 a && decide (n < 2 ^ 15)
  | .endp => true
  | .rdspec d sel => r5 d && decide (sel < 4)
  | .vbf o d a b c => r4 d && r4 a && r4 b && r4 c && (o == .fma || c == 0)
  | .vf32 o w d a b c => r4 d && r4 a && r4 b && r4 c && (o == .fma || c == 0)
      && (!w || (ev d && ev a && ev b && ev c))
  | .vcvt fn d a => r4 d && r4 a && decide (fn < 3) && (if fn = 2 then ev d else ev a)
  | .vfun _ d a => r4 d && r4 a
  | .vred .any d a => r3 d && r4 a
  | .vred .all d a => r3 d && r4 a
  | .vred _ d a => r4 d && r4 a
  | .vld d a off => r4 d && r4 a && decide (off < 2 ^ 13)
  | .vst d a off => r4 d && r4 a && decide (off < 2 ^ 13)
  | .vbcast d a => r4 d && r4 a
  | .vq8 _ d a b h => r4 d && r4 a && r4 b && r1 h && ev a
  | .vdq8 d a b h => r4 d && r4 a && r4 b && r1 h && ev d
  | .vrand d => r4 d
  | .pack24 _ d a b c => r4 d && r4 a && r4 b && r4 c && (c % 2 == 1 || decide (c < 4))
  | .sv _ a => r4 a
  | .vmov d a => r4 d && r4 a
  | .mzero acc n _ => r6 acc && r6 n
  | .mldw fmt a w => decide (1 ≤ fmt) && decide (fmt ≤ 4) && decide (a < 30) && r1 w
  | .mrun a acc n w => decide (a < 30) && r6 acc && r6 n && r1 w
  | .mblk a acc nrb half w => decide (a < 31) && (acc == 0 || acc == 32) && r1 nrb && r1 half && r1 w
  | .mspill a i => r5 a && decide (i ≤ 64)
  | .mepi a op ef r => decide (a < 31) && decide (op < 3) && r1 ef && decide (r < 3)
  | .mout a acc n _ _ => decide (a < 31) && r6 acc && r6 n
  | .mrda d acc => r4 d && ev d && r6 acc
  | .mlook a acc n w => decide (a < 31) && r6 acc && r6 n && r1 w
  | .xwait a sl => r5 a && r5 sl
  | .xtake a sl => r5 a && r5 sl
  | .xput a sl => r5 a && r5 sl
  | .qpost a => r5 a
  | .soadd a o => r5 a && decide (o < 2 ^ 13)
  | .sowait a o => r5 a && decide (o < 2 ^ 13)
  | .soset a o => r5 a && decide (o < 2 ^ 13)
  | .mf _ a => r5 a
where
  /-- Fields of 1, 3, 4, 5 and 6 bits. -/
  r1 (n : Nat) : Bool := decide (n < 2)
  r3 (n : Nat) : Bool := decide (n < 8)
  r4 (n : Nat) : Bool := decide (n < 16)
  r5 (n : Nat) : Bool := decide (n < 32)
  r6 (n : Nat) : Bool := decide (n < 64)

/-- A well-formed slot: its predicate field is no reserved one (R81), its operation is well formed. -/
def Slot.wf (sl : Slot) : Bool := decide (sl.pred < 8) && (sl.pred != 0 || !sl.neg) && sl.op.wf

/-! ## What a command leaves alone -/

/-- Every register field but those at the listed keys holds what it held. -/
def regsBut (ks : List Nat) (s n : State) : Prop := ∀ k, k ∉ ks → aget 0 n.rf k = aget 0 s.rf k

/-- Every byte of memory but the len bytes from an address reads as before. -/
def memBut (a len : Nat) (s n : State) : Prop := ∀ x, ¬ (a ≤ x ∧ x < a + len) → n.byte x = s.byte x

/-- Everything that a loss of power loses stands as it does at reset: registers, memories, tiles, hub, quays, landing
cluster, roster, confluence engines, ports, fault path, power logic. -/
def lost (n : State) : Prop :=
  n.rf = [] ∧ n.mem = [] ∧ n.tiles = [] ∧ n.hub = {} ∧ n.quays = [] ∧ n.cores = [] ∧ n.cache = [] ∧ n.roster = {} ∧
    n.engs = [] ∧ n.ports = [] ∧ n.power = {}

/-- What the flash keeps through a loss of power (R31, R511–R514): slots, counters, control block. -/
def flashKept (s n : State) : Prop :=
  n.boot.flash = s.boot.flash ∧ n.boot.counters = s.boot.counters ∧ n.boot.slotSt = s.boot.slotSt ∧
    n.boot.next = s.boot.next ∧ n.boot.tries = s.boot.tries ∧ n.boot.ownerKey = s.boot.ownerKey

/-- Rails 1 to 5 down, the module off with its memories and units lost, ALERT_N as the unread events have it. -/
def poweredDown (n : State) : Prop :=
  n.pins.rails = 0 ∧ n.pins.pwrGood = false ∧ n.pins.ramping = false ∧ n.power.state = .off ∧ n.ctl.base = 0 ∧
    n.mem = [] ∧ n.tiles = [] ∧ n.quays = [] ∧ n.cores = [] ∧ n.ports = [] ∧ n.pins.alert = n.unread

/-- A record of the fault log that was not there before. -/
def logged1 (s n : State) (cls kind code data : Nat) : Prop :=
  ∃ r ∈ n.fault.log, r.seq = s.fault.nextSeq ∧ r.cls = cls ∧ r.kind = kind ∧ r.code = code ∧ r.data = data

/-- The register fields that an event may change (R487, R488, R541). -/
def eventKeys : List Nat :=
  [F.FT_EVQ_LOST_COUNT.key 0 0, F.FT_EVQ_STATUS_OVERFLOW.key 0 0, F.CP_EVENTS_FAULT.key 0 0, F.MSIX_PEND.key 0 0]

/-! ## The issue of a slot -/

/-- A tile that issues a slot without a wait or a halt of its own: RUNNING, out of crossing and barrier, its clock
running, no address breakpoint and no single step, no loop body ending at this word, no result pending for a register
that the slot reads or writes (R83, R84, R89, R93). -/
def State.calm (s : State) (t : Nat) (sl : Slot) : Prop :=
  s.tstate t = 1 ∧ s.inCrossing t = false ∧ (s.tile t).atBar = false ∧ s.clockRuns = true ∧
    s.rd F.T_BPADDR_EN t 0 = 0 ∧ s.rd F.T_BPADDR_EN t 1 = 0 ∧ s.rd F.T_CTRL_STEP t = 0 ∧
    s.endsBody t (s.rd F.T_PC_ADDR t) = false ∧ ∀ d ∈ sl.reads ++ sl.writes, s.isPending t d = false

/-- The slot that a command of an instruction issues. -/
def wordSlot (p : Pred) (o : SlotOp) : Slot := ⟨p.reg.toNat, p.neg, o⟩

/-- A result issued now, due lat tc later; g0 and p0 take none (R75, R83, R84). -/
def State.resultAt (s : State) (lat : Nat) (d : Dst) (v : Nat) : List Result :=
  if d = .g 0 ∨ d = .p 0 then [] else [{ due := s.tc + lat, dst := d, val := v }]

/-- What issuing one slot leaves when it only posts results: T_PC six bytes on, the results behind those that waited,
no wait, and everything else of the machine as it was. -/
def afterWord (s n : State) (t : Nat) (rs : List Result) : Prop :=
  n.rd F.T_PC_ADDR t = (s.rd F.T_PC_ADDR t + 6) % 2 ^ 19 ∧
    n.tile t = { s.tile t with wait := 0, skipBp := false, results := (s.tile t).results ++ rs } ∧
    (∀ u, u ≠ t → n.tile u = s.tile u) ∧ regsBut [F.T_PC_ADDR.key t 0] s n ∧ n = { s with rf := n.rf, tiles := n.tiles }

/-- A word of one slot issues now and its slot executes: it is well formed, the tile calm, its predicate holds. -/
def State.issues (s : State) (t : Nat) (p : Pred) (o : SlotOp) : Prop :=
  (wordSlot p o).wf = true ∧ s.calm t (wordSlot p o) ∧ s.predOn t (wordSlot p o) = true

/-- What an issued word leaves of its tile and of the registers: T_PC six bytes on, the tile's own state u, no other
tile's state changed, no register field changed but T_PC and those at the listed keys. -/
def wordDone (s n : State) (t : Nat) (u : TileX) (ks : List Nat) : Prop :=
  n.rd F.T_PC_ADDR t = (s.rd F.T_PC_ADDR t + 6) % 2 ^ 19 ∧ n.tile t = { u with wait := 0, skipBp := false } ∧
    (∀ v, v ≠ t → n.tile v = s.tile v) ∧ regsBut (F.T_PC_ADDR.key t 0 :: ks) s n

/-- A latency of R86 that the steppings do not share. -/
def State.latency (s : State) (a1 b0 : Nat) : Nat := if s.stepping = .B0 then b0 else a1

/-! ## Halts -/

/-- The register fields that a halt of a tile may change (R49, R93, R97, R184, R538, R541). -/
def haltKeys (t : Nat) : List Nat :=
  [F.T_STATUS_STATE.key t 0, F.T_HALT_REASON.key t 0, F.T_HALT_SLOT.key t 0, F.T_HALT_VALID.key t 0,
   F.T_HALT_ADDR.key t 0, F.T_HALT_DETAIL.key t 0, F.T_HALT_AUX_AUX.key t 0, F.T_HALT_CYCLE_TC.key t 0,
   F.FT_HALTED_MAP.key 0 (t / 64), F.T_IDLE_TC.key t 0, F.T_BAR_PENDING_TC.key t 0, F.T_MSTATUS_TOKEN.key t 0,
   F.PW_TOKEN_HELD_HELD.key 0 (domainOf t), F.FT_EVQ_LOST_COUNT.key 0 0, F.FT_EVQ_STATUS_OVERFLOW.key 0 0]

/-- The tile has halted: STATE is HALTED, the record holds the cause, FT_HALTED its bit, no wait of the core stands, and
nothing else has changed but the report, what the abandoned wait held elsewhere and the fields at the keys ks. -/
def haltedWith (s n : State) (t reason slot addr detail aux : Nat) (ks : List Nat := []) : Prop :=
  n.tstate t = 2 ∧ n.rd F.T_HALT_REASON t = reason ∧ n.rd F.T_HALT_SLOT t = slot ∧ n.rd F.T_HALT_VALID t = 1 ∧
    n.rd F.T_HALT_ADDR t = addr ∧ n.rd F.T_HALT_DETAIL t = detail ∧ n.rd F.T_HALT_AUX_AUX t = aux ∧
    n.rd F.T_HALT_CYCLE_TC t = s.tc % 2 ^ 64 ∧ (n.rd F.FT_HALTED_MAP 0 (t / 64)).testBit (t % 64) = true ∧
    (n.tile t).wait = 0 ∧ (n.tile t).soWait = none ∧ ((n.tile t).atBar = true → (s.tile t).atBar = true) ∧ (∀ v, v ≠ t → n.tile v = s.tile v) ∧
    regsBut (ks ++ haltKeys t) s n ∧
    n = { s with rf := n.rf, tiles := n.tiles, hub := n.hub, quays := n.quays, fault := n.fault }

/-! ## Faults of a landing core -/

/-- A landing core outside its fault handler has met a fault (R349, R350): L_FAULT and L_FAULT_ADDR hold it, the core is
in supervisor mode at its handler with nothing stalled, no other core has changed and no register field but these. -/
def coreFaulted (s n : State) (c code detail addr : Nat) : Prop :=
  n.rd F.L_FAULT_CODE c = code ∧ n.rd F.L_FAULT_DETAIL c = detail ∧ n.rd F.L_FAULT_VALID c = 1 ∧
    n.rd F.L_FAULT_MORE c = s.rd F.L_FAULT_VALID c ∧ n.rd F.L_FAULT_ADDR_ADDR c = addr ∧
    n.rd F.L_FAULT_SUPER c = s.rd F.L_STATUS_SUPER c ∧
    n.rd F.L_FAULT_TASK c = (if s.rd F.L_STATUS_SUPER c = 1 then 0 else s.rd F.L_STATUS_TASK c) ∧
    n.rd F.L_STATUS_SUPER c = 1 ∧
    n.core c = { s.core c with handler := true, mem := none, soOp := false, credWait := false } ∧
    (∀ u, u ≠ c → n.core u = s.core u) ∧
    regsBut [F.L_FAULT_CODE.key c 0, F.L_FAULT_TASK.key c 0, F.L_FAULT_SUPER.key c 0, F.L_FAULT_MORE.key c 0,
      F.L_FAULT_DETAIL.key c 0, F.L_FAULT_VALID.key c 0, F.L_FAULT_ADDR_ADDR.key c 0, F.L_STATUS_SUPER.key c 0,
      F.L_STATUS_RUN.key c 0] s n ∧
    n = { s with rf := n.rf, cores := n.cores }

/-! ## Commands of the ports -/

/-- Every register field outside BAR0 but those at the listed keys holds what it held. -/
def devBut (ks : List Nat) (s n : State) : Prop := ∀ k, k / 64 < Blk.bar.base 0 → k ∉ ks → aget 0 n.rf k = aget 0 s.rf k

/-- Whose a command is (R494): the supervisor's or pilot's own, no port holding any; or that of the one port that holds
a command, which is this one with these arguments and has not begun. -/
def State.turnIs (s : State) (op : Nat) (args : List Byte) : Option CmdPort → Prop
  | none => s.ctl.order = []
  | some p => s.ctl.order = [p] ∧ ∃ tag, s.heldOn p = some { op := op, tag := tag, args := args }

/-- What the ports hold after a command was carried out: its result, DETAIL and body where a port had asked it, else
what they held. -/
def answered (s n : State) (q : Option CmdPort) (r d : Nat) (body : List Byte) : Prop :=
  ∀ p, n.heldOn p = if q = some p then (s.heldOn p).map fun h => { h with result := some r, detail := d, body := body }
    else s.heldOn p

end Sys2Proof.Machine
end

