-- ==== Sys2Proof/Certificates/Slice0/Obligations.lean ====
section
/-! DEFINITION. The statements for the provers, in the order of the spec's chapters. -/

open Sys2Proof Sys2Proof.Machine

/-- For every command c, queue rest and state s whose queue is c followed by rest: one step answers what exec answers for
c on s with the queue rest. -/
def Obligations.StepRunsTheFrontCommand : Prop :=
  ∀ (s : State) (c : Instr) (rest : List Instr), s.pending = c :: rest → step s = exec c { s with pending := rest }

/-- PIN_EN_BREAK, INPUT_UNDERVOLTAGE and INPUT_OVERVOLTAGE answer a next state in which the switch is open, STBY and every
rail are down, PWR_GOOD is low, the latches of the thermal trip and of a rail fault are clear, and registers, memories
and the state of every unit are lost; the flash and the waiting commands remain. MOD_RESET_ASSERT starts the filter
and MOD_RESET_RELEASE cancels it, or ends a pulse that reset the module, which clears THERM_TRIP_N, changing only the
pins. When the filter expires with MOD_RESET_N low, PWR_GOOD is low, every rail is down, the pilot is held in reset,
STBY stays, the latch of a rail fault is clear and THERM_TRIP_N as it was, and the state of the module is lost.
POWER_UP_START with MOD_RESET_N high and the switch closed releases the pilot and starts the ramp, changing only the
pins; while THERM_TRIP_N is low no ramp starts, and the module is in OFF. Commands: pinEnBreak, inputUndervoltage,
inputOvervoltage, modResetAssert, modResetFilterExpire, powerUpStart, modResetRelease. -/
def Obligations.PowerLossAndTheResetPinClearTheModule : Prop :=
  ∀ s : State,
    (∀ e ∈ [(Instr.pinEnBreak, { s.pins with pinEn := false }),
        (Instr.inputUndervoltage, { s.pins with underV := true }), (Instr.inputOvervoltage, { s.pins with overV := true })],
      ∃ n, exec e.1 s = .next n ∧
        n.pins = { e.2 with swClosed := false, stby := false, rails := 0, ramping := false, pwrGood := false,
                            thermTrip := false, railFault := false, alert := false, ibi := 0, inReset := false,
                            filtering := false, bus := none } ∧
        lost n ∧ n.fault = {} ∧ n.ctl = { base := 0 } ∧ flashKept s n ∧ n.pending = s.pending) ∧
    (s.pins.resetN = true →
      exec .modResetAssert s = .next { s with pins := { s.pins with resetN := false, filtering := true } }) ∧
    (∀ trip, trip = (s.pins.thermTrip && !(s.pins.inReset && !s.pins.resetN && !s.pins.filtering)) →
      exec .modResetRelease s =
        .next { s with pins := { s.pins with resetN := true, filtering := false, thermTrip := trip } }) ∧
    (s.pins.filtering = true → s.pins.resetN = false → s.pins.swClosed = true →
      ∃ n, exec .modResetFilterExpire s = .next n ∧
        n.pins = { s.pins with rails := 0, ramping := false, pwrGood := false, inReset := true, filtering := false,
                               railFault := false, alert := false, ibi := 0 } ∧
        lost n ∧ n.fault = {} ∧ n.ctl = {} ∧ flashKept s n ∧ n.pending = s.pending) ∧
    (s.pins.filtering = false → exec .modResetFilterExpire s = .next s) ∧
    (s.pins.swClosed = true → s.pins.resetN = true → s.pins.filtering = false → s.ctl.base = 1 → s.pins.rails = 0 →
      s.pins.ramping = false →
      (s.pins.thermTrip = false → exec .powerUpStart s = .next { s with pins := { s.pins with inReset := false, ramping := true } }) ∧
      (s.pins.thermTrip = true → ∃ n, exec .powerUpStart s = .next n ∧ n.pins.inReset = false ∧ n.pins.ramping = false ∧
        n.pins.rails = 0 ∧ n.pins.thermTrip = true ∧ n.ctl.base = 0 ∧ n.rd F.CP_STATE_STATE = 0))

/-- With the switch open, PIN_EN_MATE (input neither below the lockout nor above the shutdown), INPUT_UVLO_RELEASE and
OVERVOLTAGE_RECOVERY (PIN_EN mated and the other limit met) answer a next state in which the switch is closed, STBY is
up, the pilot is in power-on reset with no rail enabled, and the module state is BOOTING; with the switch closed they
change nothing but the input they name. While the rails ramp, RAIL_RAMP_DONE counts one more rail up and changes
nothing else; with rails 1 to 4 up it ends the ramp, raises PWR_GOOD and leaves the die powered with its grid clock
stopped, changing neither memory nor any unit. Commands: pinEnMate, inputUvloRelease, overvoltageRecovery,
railRampDone. -/
def Obligations.TheModulePowersUp : Prop :=
  ∀ s : State,
    (∀ e ∈ [(Instr.pinEnMate, { s.pins with pinEn := true }),
        (Instr.inputUvloRelease, { s.pins with underV := false }),
        (Instr.overvoltageRecovery, { s.pins with overV := false })],
      (s.pins.swClosed = false → e.2.pinEn = true → e.2.underV = false → e.2.overV = false →
        ∃ n, exec e.1 s = .next n ∧ n.pins = { e.2 with swClosed := true, stby := true, inReset := true } ∧
          lost n ∧ n.ctl = { base := 1 } ∧ flashKept s n ∧ n.pending = s.pending) ∧
      (s.pins.swClosed = true → exec e.1 s = .next { s with pins := e.2 })) ∧
    (s.pins.ramping = true →
      (s.pins.rails < 4 → exec .railRampDone s = .next { s with pins := { s.pins with rails := s.pins.rails + 1 } }) ∧
      (4 ≤ s.pins.rails → ∃ n, exec .railRampDone s = .next n ∧
        n.pins = { s.pins with rails := 5, ramping := false, pwrGood := true } ∧
        n.power = { s.power with state := .idle } ∧
        n = { s with pins := n.pins, power := n.power, rf := n.rf, ctl := n.ctl }))

/-- While the rails ramp, RAIL_RAMP_TIMEOUT; with STBY up, RAIL_FAULT of an enabled rail and THERMAL_TRIP: the next state
has every rail down and PWR_GOOD low, STBY as it was, the module in power state OFF with its registers and memories
lost, and one new record in the fault log (the rail in DATA for a rail); THERM_TRIP_N is low after the trip, the rail
fault latched after the others, and ALERT_N asserted exactly while a management event is unread. Commands:
railRampTimeout, railFault, thermalTrip. -/
def Obligations.RailAndThermalFailuresPowerTheDieDown : Prop :=
  ∀ s : State, ∀ rail : Fin 6,
    (s.pins.ramping = true → s.pins.rails < 5 → ∃ n, exec .railRampTimeout s = .next n ∧ poweredDown n ∧
      n.pins.railFault = true ∧ n.pins.stby = s.pins.stby ∧ logged1 s n 9 7 0x0090 (s.pins.rails + 1)) ∧
    (s.pins.stby = true → s.pins.inReset = false → rail.val ≤ s.pins.rails → ∃ n, exec (.railFault rail) s = .next n ∧ poweredDown n ∧
      n.pins.railFault = true ∧ n.pins.stby = true ∧ logged1 s n 9 7 0x0090 rail.val) ∧
    (s.pins.stby = true → s.pins.inReset = false → ∃ n, exec .thermalTrip s = .next n ∧ poweredDown n ∧ n.pins.thermTrip = true ∧
      n.pins.stby = true ∧ ∃ d, logged1 s n 9 7 0x0091 d) ∧
    (s.pins.stby = true → s.pins.inReset = true →
      exec .thermalTrip s = .next { s with pins := { s.pins with thermTrip := true } })

/-- For every class of slot and every 32-bit word: the decoder accepts the word as a slot exactly when the slot is well
formed, belongs to the class and encodes to the word. So decoding and encoding agree for every operation with every
operand at every value its encoding admits, no reserved value is accepted, and no two slots share a word. -/
def Obligations.SlotEncodingRoundTrip : Prop :=
  ∀ (cls raw : Nat) (sl : Slot), cls < 4 → raw < 2 ^ 32 →
    (decodeSlot cls raw = .ok sl ↔ (sl.wf = true ∧ sl.op.cls = cls ∧ sl.enc = raw))

/-- Words written bit by bit from the tables of R80, R82, R87, R111, R112, R162 and R227 decode to the slots they stand
for, one or more of each class; opcode 0x00 and a non-zero reserved field are refused with the DETAIL of R102. -/
def Obligations.SlotWordsWrittenFromTheTables : Prop :=
  -- ADD g3 := g1 + g2 under p2: OP 0x01, PRED 2, D 3, A 1, B 2, FN 0
  decodeSlot 0 0b0000001_010_0_00011_00001_00010_000000 = .ok ⟨2, false, .alu .add 3 1 2⟩ ∧
  -- ADDI g5 := g6 − 1 unless p1: OP 0x02, PRED 1, PNEG, D 5, A 6, IMM11 0x7FF
  decodeSlot 0 0b0000010_001_1_00101_00110_11111111111 = .ok ⟨1, true, .imm .addi 5 6 0x7FF⟩ ∧
  -- BR back by 4 bytes: OP 0x70, OFF −2
  decodeSlot 0 0b1110000_000_0_111111111111111111110 = .ok ⟨0, false, .br 0x1FFFFE⟩ ∧
  -- LOOP level 1, count g4, END 9: OP 0x72
  decodeSlot 0 0b1110010_000_0_1_00100_000000000001001 = .ok ⟨0, false, .loop 1 4 9⟩ ∧
  -- VBF FMA v1 := v2 × v3 + v4: OP 0x01, FN 3
  decodeSlot 1 0b0000001_000_0_0001_0010_0011_0100_00011 = .ok ⟨0, false, .vbf .fma 1 2 3 4⟩ ∧
  -- VLD v7 from g9 + 64 × 5: OP 0x06
  decodeSlot 1 0b0000110_000_0_0111_1001_0000000000101 = .ok ⟨0, false, .vld 7 9 5⟩ ∧
  -- MRUN of 16 rows into ACC 8 by W1 from g10: OP 0x05, A 10, ACC 8, NROWS 15, WBUF 1
  decodeSlot 2 0b0000101_000_0_01010_001000_001111_1_000 = .ok ⟨0, false, .mrun 10 8 15 1⟩ ∧
  -- XTAKE g3 bytes of slip 21: OP 0x02
  decodeSlot 3 0b0000010_000_0_00011_10101_00000000000 = .ok ⟨0, false, .xtake 3 21⟩ ∧
  decodeSlot 0 0b0000000_000_0_00011_00001_00010_000000 = .error 1 ∧
  decodeSlot 0 0b0001001_000_0_01000_00001_00010_000000 = .error 2 ∧
  decodeSlot 1 0b0001011_000_0_0001_0010_0011_0100_00000 = .error 2

/-- A calm tile that issues an ALU operation, an immediate form, a comparison or a PLOG with its predicate true answers a
next state in which the result waits to be written to its register: for ALU the operation on 32-bit words with shift
amounts gB[4:0], after 1 tc (MUL: 3 tc on A1, 2 on B0); for the immediate forms gA with the sign- or zero-extended
IMM11 or the shift amount, for comparisons and PLOG the bit, after 1 tc; for RDSPEC, after 2 tc, the tile id, STEPID,
or a half of the tc count. g0 and p0 take none; T_PC has moved to the next word and everything else is as it was.
Commands: aluAdd, aluSub, aluAnd, aluOr, aluXor, aluShl, aluShr, aluSra, aluMul, aluMin, aluMax, aluMinu, aluMaxu,
addi, andi, ori, xori, shiShl, shiShr, shiSra, cati, cmpEq, cmpNe, cmpLt, cmpLtu, cmpGe, cmpGeu, cmpeqi, cmplti,
cmpltui, plogAnd, plogOr, plogXor, plogAndn, rdspec. -/
def Obligations.ScalarOperationsPostTheirResult : Prop :=
  ∀ (s : State) (t : TileId) (p : Pred) (d a b sh : BitVec 5) (pd pa pb : BitVec 3) (imm : BitVec 11),
    let x := BitVec.ofNat 32 (s.g t a.toNat)
    let y := BitVec.ofNat 32 (s.g t b.toNat)
    let si := imm.signExtend 32
    let zi := imm.zeroExtend 32
    let u := s.p t pa.toNat == 1
    let v := s.p t pb.toNat == 1
    (∀ e ∈ [(Instr.aluAdd t p d a b, AluOp.add, x + y), (.aluSub t p d a b, .sub, x - y),
        (.aluAnd t p d a b, .and, x &&& y), (.aluOr t p d a b, .or, x ||| y), (.aluXor t p d a b, .xor, x ^^^ y),
        (.aluShl t p d a b, .shl, x <<< (y.toNat % 32)), (.aluShr t p d a b, .shr, x >>> (y.toNat % 32)),
        (.aluSra t p d a b, .sra, x.sshiftRight (y.toNat % 32)), (.aluMul t p d a b, .mul, x * y),
        (.aluMin t p d a b, .min, if x.sle y then x else y), (.aluMax t p d a b, .max, if x.sle y then y else x),
        (.aluMinu t p d a b, .minu, if x.ule y then x else y), (.aluMaxu t p d a b, .maxu, if x.ule y then y else x)],
      let sl := wordSlot p (.alu e.2.1 d.toNat a.toNat b.toNat)
      sl.wf = true → s.calm t sl → s.predOn t sl = true →
      ∃ n, exec e.1 s = .next n ∧
        afterWord s n t (s.resultAt (if e.2.1 = .mul then (if s.stepping = .B0 then 2 else 3) else 1) (.g d.toNat) e.2.2.toNat)) ∧
    (∀ e ∈ [(Instr.addi t p d a imm, SlotOp.imm .addi d.toNat a.toNat imm.toNat, x + si),
        (.andi t p d a imm, .imm .andi d.toNat a.toNat imm.toNat, x &&& si),
        (.ori t p d a imm, .imm .ori d.toNat a.toNat imm.toNat, x ||| zi),
        (.xori t p d a imm, .imm .xori d.toNat a.toNat imm.toNat, x ^^^ si),
        (.cati t p d a imm, .imm .cati d.toNat a.toNat imm.toNat, (x <<< 11) ||| zi),
        (.shiShl t p d a sh, .shi .shl d.toNat a.toNat sh.toNat, x <<< sh.toNat),
        (.shiShr t p d a sh, .shi .shr d.toNat a.toNat sh.toNat, x >>> sh.toNat),
        (.shiSra t p d a sh, .shi .sra d.toNat a.toNat sh.toNat, x.sshiftRight sh.toNat)],
      s.issues t p e.2.1 →
      ∃ n, exec e.1 s = .next n ∧ afterWord s n t (s.resultAt 1 (.g d.toNat) e.2.2.toNat)) ∧
    (∀ e ∈ [(Instr.cmpEq t p pd a b, SlotOp.cmp .eq pd.toNat a.toNat b.toNat, x == y),
        (.cmpNe t p pd a b, .cmp .ne pd.toNat a.toNat b.toNat, x != y),
        (.cmpLt t p pd a b, .cmp .lt pd.toNat a.toNat b.toNat, x.slt y),
        (.cmpLtu t p pd a b, .cmp .ltu pd.toNat a.toNat b.toNat, x.ult y),
        (.cmpGe t p pd a b, .cmp .ge pd.toNat a.toNat b.toNat, y.sle x),
        (.cmpGeu t p pd a b, .cmp .geu pd.toNat a.toNat b.toNat, y.ule x),
        (.cmpeqi t p pd a imm, .cmpi .eq pd.toNat a.toNat imm.toNat, x == si),
        (.cmplti t p pd a imm, .cmpi .lt pd.toNat a.toNat imm.toNat, x.slt si),
        (.cmpltui t p pd a imm, .cmpi .ltu pd.toNat a.toNat imm.toNat, x.ult si),
        (.plogAnd t p pd pa pb, .plog .and pd.toNat pa.toNat pb.toNat, u && v),
        (.plogOr t p pd pa pb, .plog .or pd.toNat pa.toNat pb.toNat, u || v),
        (.plogXor t p pd pa pb, .plog .xor pd.toNat pa.toNat pb.toNat, u ^^ v),
        (.plogAndn t p pd pa pb, .plog .andn pd.toNat pa.toNat pb.toNat, u && !v)],
      s.issues t p e.2.1 →
      ∃ n, exec e.1 s = .next n ∧ afterWord s n t (s.resultAt 1 (.p pd.toNat) e.2.2.toNat)) ∧
    (∀ e ∈ [(0, t.val), (1, s.stepping.id), (2, s.tc % 2 ^ 32), (3, s.tc / 2 ^ 32 % 2 ^ 32)],
      s.issues t p (.rdspec d.toNat e.1) →
      ∃ n, exec (.rdspec t p d (BitVec.ofNat 5 e.1)) s = .next n ∧ afterWord s n t (s.resultAt 2 (.g d.toNat) e.2))

/-- On a calm tile, an arithmetic, immediate, comparison, predicate, load, store, vector add or matrix-load instruction
whose predicate condition is false answers a next state that differs only in T_PC, which has moved to the next word:
nothing is written, no result waits, no case is raised. Commands: aluAdd, addi, cmpEq, plogAnd, ld, st, vbfAdd, mldw. -/
def Obligations.FalseSlotsHaveNoEffect : Prop :=
  ∀ (s : State) (t : TileId) (p : Pred) (d a b : BitVec 5) (pd pa pb : BitVec 3) (vd va vb : BitVec 4)
      (imm : BitVec 11) (w : BitVec 1),
    ∀ e ∈ [(Instr.aluAdd t p d a b, SlotOp.alu .add d.toNat a.toNat b.toNat),
        (.addi t p d a imm, .imm .addi d.toNat a.toNat imm.toNat),
        (.cmpEq t p pd a b, .cmp .eq pd.toNat a.toNat b.toNat),
        (.plogAnd t p pd pa pb, .plog .and pd.toNat pa.toNat pb.toNat),
        (.ld t p d a imm, .mem .ld d.toNat a.toNat imm.toNat), (.st t p d a imm, .mem .st d.toNat a.toNat imm.toNat),
        (.vbfAdd t p vd va vb, .vbf .add vd.toNat va.toNat vb.toNat 0),
        (.mldw t p a w, .mldw 1 a.toNat w.toNat)],
      (wordSlot p e.2).wf = true → s.calm t (wordSlot p e.2) → s.predOn t (wordSlot p e.2) = false →
      ∃ n, exec e.1 s = .next n ∧ afterWord s n t []

/-- A tile ready to issue LD, LDH or VLD whose address (gA plus the sign-extended offset times the access size, in 32
bits) is aligned and below 0x6_0000, and that waits for no unfinished matrix or sieve instruction, answers a next
state in which the little-endian bytes there, zero-extended, wait to be written 2 tc (VLD: 3 tc) later plus one for
each four banks of 24 KiB, T_PC has moved to the next word, and everything else is as it was. Commands: ld, ldh, vld. -/
def Obligations.LoadsPostTheBytesTheyRead : Prop :=
  ∀ (s : State) (t : TileId) (p : Pred) (d a : BitVec 5) (vd va : BitVec 4) (imm : BitVec 11) (off : BitVec 13),
    let x := BitVec.ofNat 32 (s.g t a.toNat)
    let y := BitVec.ofNat 32 (s.g t va.toNat)
    ∀ (c : Instr) (o : SlotOp) (r : Dst) (adr : BitVec 32) (size lat : Nat),
      (c, o, r, adr, size, lat) ∈ [
        (Instr.ld t p d a imm, SlotOp.mem .ld d.toNat a.toNat imm.toNat, Dst.g d.toNat, x + 4 * imm.signExtend 32, 4, 2),
        (.ldh t p d a imm, .mem .ldh d.toNat a.toNat imm.toNat, .g d.toNat, x + 2 * imm.signExtend 32, 2, 2),
        (.vld t p vd va off, .vld vd.toNat va.toNat off.toNat, .v vd.toNat, y + 64 * off.signExtend 32, 64, 3)] →
      s.issues t p o → adr.toNat % size = 0 → adr.toNat < 0x60000 → s.slotWait t o = none →
      ∃ n, exec c s = .next n ∧
        afterWord s n t (s.resultAt (lat + adr.toNat / 0x6000 / 4) r (leVal (s.bytes (spad t adr.toNat) size)))

/-- A tile ready to issue ST, STH or VST whose address is aligned, below 0x6_0000 and in no execute slip, and that waits
for no unfinished matrix or sieve instruction, answers a next state in which the low bytes of gD (all of vD) stand
little-endian at the address, every other byte of memory reads as before, T_PC has moved to the next word, and
everything else is as it was. Commands: st, sth, vst. -/
def Obligations.StoresWriteTheirBytesOnly : Prop :=
  ∀ (s : State) (t : TileId) (p : Pred) (d a : BitVec 5) (vd va : BitVec 4) (imm : BitVec 11) (off : BitVec 13),
    let x := BitVec.ofNat 32 (s.g t a.toNat)
    let y := BitVec.ofNat 32 (s.g t va.toNat)
    ∀ (c : Instr) (o : SlotOp) (val : Nat) (adr : BitVec 32) (size : Nat), (c, o, val, adr, size) ∈ [
        (Instr.st t p d a imm, SlotOp.mem .st d.toNat a.toNat imm.toNat, s.g t d.toNat, x + 4 * imm.signExtend 32, 4),
        (.sth t p d a imm, .mem .sth d.toNat a.toNat imm.toNat, s.g t d.toNat, x + 2 * imm.signExtend 32, 2),
        (.vst t p vd va off, .vst vd.toNat va.toNat off.toNat, s.v t vd.toNat, y + 64 * off.signExtend 32, 64)] →
      s.issues t p o → adr.toNat % size = 0 → adr.toNat < 0x60000 → s.inExec t adr.toNat size = false →
      s.slotWait t o = none →
      ∃ n, exec c s = .next n ∧ wordDone s n t (s.tile t) [] ∧
        (∀ i < size, n.byte (spad t adr.toNat + i) = BitVec.ofNat 8 (val / 256 ^ i)) ∧
        memBut (spad t adr.toNat) size s n ∧ n = { s with rf := n.rf, tiles := n.tiles, mem := n.mem }

/-- A tile ready to issue a branch to an even target below 2^19: T_PC takes the target; a loop level whose body does not
hold the target ends, and level 1 with level 0; the other loop registers stay. LOOP with a count other than 0 and a
body of one or more halfwords, of an inactive level (level 1 only inside level 0), sets that level's COUNT, ACTIVE,
START (the next word) and END, and T_PC moves to the next word; with a count of 0 T_PC goes to the word after the body
and no level changes. END of a tile of no partition: the tile is DONE, T_PC has moved to the next word, both loop
levels are cleared. Nothing else changes but these registers. Commands: br, brr, loopArm, endTile. -/
def Obligations.BranchesLoopsAndEndMoveThePc : Prop :=
  ∀ (s : State) (t : TileId) (p : Pred) (a : BitVec 5) (off : BitVec 21) (l : BitVec 1) (len : BitVec 15),
    let pc := s.rd F.T_PC_ADDR t
    (∀ (c : Instr) (o : SlotOp) (target : Nat), (c, o, target) ∈ [
        (Instr.br t p off, SlotOp.br off.toNat, (BitVec.ofNat 19 pc + 2 * off.signExtend 19).toNat),
        (.brr t p a, .brr a.toNat, s.g t a.toNat)] →
      s.issues t p o → target % 2 = 0 → target < 2 ^ 19 →
      let out := fun k => s.rd F.T_LOOP_ACTIVE t k = 1 ∧
        ¬ (s.rd F.T_LOOP_RANGE_START t k ≤ target ∧ target ≤ s.rd F.T_LOOP_RANGE_END t k)
      ∃ n, exec c s = .next n ∧ n.rd F.T_PC_ADDR t = target ∧
        (∀ f ∈ [F.T_LOOP_ACTIVE, F.T_LOOP_COUNT],
          n.rd f t 0 = (if out 0 then 0 else s.rd f t 0) ∧ n.rd f t 1 = (if out 0 ∨ out 1 then 0 else s.rd f t 1)) ∧
        n.tile t = { s.tile t with wait := 0, skipBp := false } ∧ (∀ v, v ≠ t.val → n.tile v = s.tile v) ∧
        regsBut [F.T_PC_ADDR.key t 0, F.T_LOOP_ACTIVE.key t 0, F.T_LOOP_COUNT.key t 0, F.T_LOOP_ACTIVE.key t 1,
          F.T_LOOP_COUNT.key t 1] s n ∧ n = { s with rf := n.rf, tiles := n.tiles }) ∧
    (s.issues t p (.loop l.toNat a.toNat len.toNat) → len ≠ 0 → s.rd F.T_LOOP_ACTIVE t l.toNat = 0 →
      (l = 1 → s.rd F.T_LOOP_ACTIVE t 0 = 1) →
      (s.g t a.toNat ≠ 0 → ∃ n, exec (.loopArm t p l a len) s = .next n ∧ n.rd F.T_LOOP_COUNT t l.toNat = s.g t a.toNat ∧
        n.rd F.T_LOOP_ACTIVE t l.toNat = 1 ∧ n.rd F.T_LOOP_RANGE_START t l.toNat = (pc + 6) % 2 ^ 19 ∧
        n.rd F.T_LOOP_RANGE_END t l.toNat = (pc + 2 * len.toNat) % 2 ^ 19 ∧
        wordDone s n t (s.tile t) [F.T_LOOP_COUNT.key t l.toNat, F.T_LOOP_ACTIVE.key t l.toNat,
          F.T_LOOP_RANGE_START.key t l.toNat, F.T_LOOP_RANGE_END.key t l.toNat] ∧
        n = { s with rf := n.rf, tiles := n.tiles }) ∧
      (s.g t a.toNat = 0 → ∃ n, exec (.loopArm t p l a len) s = .next n ∧
        n.rd F.T_PC_ADDR t = (pc + 2 * len.toNat + s.wordLen t (pc + 2 * len.toNat)) % 2 ^ 19 ∧
        n.tile t = { s.tile t with wait := 0, skipBp := false } ∧ (∀ v, v ≠ t.val → n.tile v = s.tile v) ∧
        regsBut [F.T_PC_ADDR.key t 0] s n ∧ n = { s with rf := n.rf, tiles := n.tiles })) ∧
    (s.issues t p .endp → s.tilePart t = none →
    ∃ n, exec (.endTile t p) s = .next n ∧ n.tstate t = 3 ∧
      (∀ l < 2, ∀ f ∈ [F.T_LOOP_ACTIVE, F.T_LOOP_COUNT, F.T_LOOP_RANGE_START, F.T_LOOP_RANGE_END], n.rd f t l = 0) ∧
      wordDone s n t (s.tile t) (F.T_STATUS_STATE.key t 0 :: (List.range 2).flatMap fun l =>
        [F.T_LOOP_ACTIVE.key t l, F.T_LOOP_COUNT.key t l, F.T_LOOP_RANGE_START.key t l, F.T_LOOP_RANGE_END.key t l]) ∧
      n = { s with rf := n.rf, tiles := n.tiles })

/-- A tile ready to issue: VBCAST posts a vector whose 16 lanes all hold gA, and VMOV vA itself, to vD after 3 tc; VRED
ANY and ALL post whether any, or every, FP32 lane of vA differs from zero to pD after 6 tc (B0: 5). T_PC has moved to
the next word and everything else is as it was. Commands: vredAny, vredAll, vbcast, vmov. -/
def Obligations.MovesBroadcastsAndLaneTests : Prop :=
  ∀ (s : State) (t : TileId) (p : Pred) (pd : BitVec 3) (vd va : BitVec 4),
    (s.issues t p (.vbcast vd.toNat va.toNat) → ∃ n x, exec (.vbcast t p vd va) s = .next n ∧
      x < 2 ^ (32 * 16) ∧ (∀ i < 16, lane x 32 i = s.g t va.toNat) ∧ afterWord s n t (s.resultAt 3 (.v vd.toNat) x)) ∧
    (s.issues t p (.vmov vd.toNat va.toNat) → ∃ n, exec (.vmov t p vd va) s = .next n ∧
      afterWord s n t (s.resultAt 3 (.v vd.toNat) (s.v t va.toNat))) ∧
    (s.issues t p (.vred .any pd.toNat va.toNat) → ∃ n b, exec (.vredAny t p pd va) s = .next n ∧
      (b = 1 ↔ ∃ i < 16, lane (s.v t va.toNat) 32 i % 2 ^ 31 ≠ 0) ∧ b < 2 ∧
      afterWord s n t (s.resultAt (s.latency 6 5) (.p pd.toNat) b)) ∧
    (s.issues t p (.vred .all pd.toNat va.toNat) → ∃ n b, exec (.vredAll t p pd va) s = .next n ∧
      (b = 1 ↔ ∀ i < 16, lane (s.v t va.toNat) 32 i % 2 ^ 31 ≠ 0) ∧ b < 2 ∧
      afterWord s n t (s.resultAt (s.latency 6 5) (.p pd.toNat) b))

/-- A tile ready to issue a BF16 or FP32 vector operation, a conversion that does not draw, or a vector function, none of
whose lanes meets a case: each lane of the result is the exact result of that lane's operands rounded once to the
format (a BF16 pattern is the upper half of its FP32 one); a wide VF32 works on 32 lanes of register pairs; a
conversion to FP32 writes a pair. The result waits for the latency of R86, T_PC has moved to the next word and
everything else is as it was. Commands: vbfAdd, vbfSub, vbfMul, vbfFma, vbfMax, vbfMin, vf32Add, vf32Sub, vf32Mul,
vf32Fma, vf32Max, vf32Min, vcvtF32Bf16Nearest, vcvtBf16F32, vfunExp2, vfunRcp, vfunRsqrt. -/
def Obligations.VectorArithmeticLaneByLane : Prop :=
  ∀ (s : State) (t : TileId) (p : Pred) (d a b c : BitVec 4) (x : Nat → Nat),
    let va := s.v t a.toNat
    let vb := s.v t b.toNat
    (∀ (i : Instr) (f : FOp) (k : Nat), (i, f, k) ∈ [(Instr.vbfAdd t p d a b, FOp.add, 0), (.vbfSub t p d a b, .sub, 0),
        (.vbfMul t p d a b, .mul, 0), (.vbfFma t p d a b c, .fma, c.toNat), (.vbfMax t p d a b, .max, 0),
        (.vbfMin t p d a b, .min, 0)] →
      s.issues t p (.vbf f d.toNat a.toNat b.toNat k) →
      (∀ j < 32, f.lane 8 (bf16 (lane va 16 j)) (bf16 (lane vb 16 j)) (bf16 (lane (s.v t k) 16 j)) = .ok (x j)) →
      ∃ n r, exec i s = .next n ∧ r < 2 ^ (16 * 32) ∧ (∀ j < 32, lane r 16 j = x j / 2 ^ 16) ∧
        afterWord s n t (s.resultAt 3 (.v d.toNat) r)) ∧
    (∀ (w : Bool) (i : Instr) (f : FOp) (k : Nat), (i, f, k) ∈ [(Instr.vf32Add t p w d a b, FOp.add, 0),
        (.vf32Sub t p w d a b, .sub, 0), (.vf32Mul t p w d a b, .mul, 0), (.vf32Fma t p w d a b c, .fma, c.toNat),
        (.vf32Max t p w d a b, .max, 0), (.vf32Min t p w d a b, .min, 0)] →
      s.issues t p (.vf32 f w d.toNat a.toNat b.toNat k) →
      let arg := fun (r j : Nat) => fp32 (if j < 16 then lane (s.v t r) 32 j else lane (s.v t (r + 1)) 32 (j - 16))
      (∀ j < (if w then 32 else 16), f.lane 24 (arg a.toNat j) (arg b.toNat j) (arg k j) = .ok (x j)) →
      ∃ n r r', exec i s = .next n ∧ r < 2 ^ 512 ∧ (∀ j < 16, lane r 32 j = x j) ∧
        (w = true → r' < 2 ^ 512 ∧ ∀ j < 16, lane r' 32 j = x (16 + j)) ∧
        afterWord s n t (s.resultAt (if f = .fma then s.latency 5 4 else s.latency 4 3) (.v d.toNat) r ++
          if w then s.resultAt (if f = .fma then s.latency 5 4 else s.latency 4 3) (.v (d.toNat + 1)) r' else [])) ∧
    (s.issues t p (.vcvt 0 d.toNat a.toNat) →
      (∀ j < 32, cvtNear (lane (s.v2 t a.toNat) 32 j) = .ok (x j)) →
      ∃ n r, exec (.vcvtF32Bf16Nearest t p d a) s = .next n ∧ r < 2 ^ 512 ∧ (∀ j < 32, lane r 16 j = x j) ∧
        afterWord s n t (s.resultAt (s.latency 3 2) (.v d.toNat) r)) ∧
    (s.issues t p (.vcvt 2 d.toNat a.toNat) → (∀ j < 32, cvtUp (lane va 16 j) = .ok (x j)) →
      ∃ n r r', exec (.vcvtBf16F32 t p d a) s = .next n ∧ r < 2 ^ 512 ∧ r' < 2 ^ 512 ∧
        (∀ j < 16, lane r 32 j = x j ∧ lane r' 32 j = x (16 + j)) ∧
        afterWord s n t (s.resultAt (s.latency 3 2) (.v d.toNat) r ++ s.resultAt (s.latency 3 2) (.v (d.toNat + 1)) r')) ∧
    (∀ (i : Instr) (o : SlotOp) (f : Fp → Except Nat Nat), (i, o, f) ∈ [
        (Instr.vfunExp2 t p d a, SlotOp.vfun .exp2 d.toNat a.toNat, vExp2), (.vfunRcp t p d a, .vfun .rcp d.toNat a.toNat, vRcp),
        (.vfunRsqrt t p d a, .vfun .rsqrt d.toNat a.toNat, vRsqrt)] →
      s.issues t p o → (∀ j < 16, f (fp32 (lane va 32 j)) = .ok (x j)) →
      ∃ n r, exec i s = .next n ∧ r < 2 ^ 512 ∧ (∀ j < 16, lane r 32 j = x j) ∧
        afterWord s n t (s.resultAt (s.latency 8 6) (.v d.toNat) r))

/-- A tile ready to issue, no lane meeting a case: VRED SUM posts the FP32 tree sum of R112, MAX and MIN the pattern of
R146's greatest and least lane, to gD; VQ8 nearest posts vD with the 32 mantissas of the FP32 pair vA under the scale
of block h in vB at block h, the other half of vD kept; VDQ8 posts the pair of FP32 lanes of block h. T_PC has moved
to the next word and everything else is as it was. Commands: vredSum, vredMax, vredMin, vq8Nearest, vdq8. -/
def Obligations.ReductionsAndBlockScaledConversions : Prop :=
  ∀ (s : State) (t : TileId) (p : Pred) (d a b : BitVec 4) (h : BitVec 1) (x : Nat → Nat) (y : Nat),
    let va := s.v t a.toNat
    let e := bits (s.v t b.toNat) (32 * h.toNat) 8
    (∀ (i : Instr) (o : SlotOp) (res : Except (Nat × Nat) Nat), (i, o, res) ∈ [
        (Instr.vredSum t p d a, SlotOp.vred .sum d.toNat a.toNat, redSum va),
        (.vredMax t p d a, .vred .max d.toNat a.toNat, redMinMax true va),
        (.vredMin t p d a, .vred .min d.toNat a.toNat, redMinMax false va)] →
      s.issues t p o → res = .ok y →
      ∃ n, exec i s = .next n ∧ afterWord s n t (s.resultAt (s.latency 6 5) (.g d.toNat) y)) ∧
    (s.issues t p (.vq8 false d.toNat a.toNat b.toNat h.toNat) →
      (∀ j < 32, q8Lane (lane (s.v2 t a.toNat) 32 j) e none = .ok (x j)) →
      ∃ n r, exec (.vq8Nearest t p d a b h) s = .next n ∧ r < 2 ^ 512 ∧
        (∀ j < 32, lane r 8 (32 * h.toNat + j) = x j ∧
          lane r 8 (32 * (1 - h.toNat) + j) = lane (s.v t d.toNat) 8 (32 * (1 - h.toNat) + j)) ∧
        afterWord s n t (s.resultAt (s.latency 3 2) (.v d.toNat) r)) ∧
    (s.issues t p (.vdq8 d.toNat a.toNat b.toNat h.toNat) →
      (∀ j < 32, dq8Lane (lane va 8 (32 * h.toNat + j)) e = .ok (x j)) →
      ∃ n r r', exec (.vdq8 t p d a b h) s = .next n ∧ r < 2 ^ 512 ∧ r' < 2 ^ 512 ∧
        (∀ j < 16, lane r 32 j = x j ∧ lane r' 32 j = x (16 + j)) ∧
        afterWord s n t (s.resultAt (s.latency 3 2) (.v d.toNat) r ++ s.resultAt (s.latency 3 2) (.v (d.toNat + 1)) r'))

/-- A tile ready to issue RDSPEC posts to gD, after 2 tc, the tile id for selector 0, STEPID (0x00A1 on A1, 0x00B0 on B0)
for 1, and bits 31 to 0 and 63 to 32 of the tc count for 2 and 3; T_PC has moved to the next word and everything else
is as it was. No word with a selector from 4 to 31 decodes to a slot, and a calm tile halts with ILLEGAL_OP at the
word on RDSPEC with one of them, issuing nothing. Commands: rdspec. -/
def Obligations.RdspecCopiesOneSpecialValue : Prop :=
  ∀ (s : State) (t : TileId) (p : Pred) (d sel : BitVec 5),
    let o := SlotOp.rdspec d.toNat sel.toNat
    let pc := s.rd F.T_PC_ADDR t
    (s.issues t p o → ∃ n, exec (.rdspec t p d sel) s = .next n ∧
      afterWord s n t (s.resultAt 2 (.g d.toNat) (if sel = 0 then t.val
        else if sel = 1 then (match s.stepping with | .A1 => 0x00A1 | .B0 => 0x00B0)
        else if sel = 2 then s.tc % 2 ^ 32 else s.tc / 2 ^ 32 % 2 ^ 32))) ∧
    (4 ≤ sel.toNat → ∃ c, decodeSlot 0 (wordSlot p o).enc = .error c ∧
      (s.calm t (wordSlot p o) → s.rd F.T_HALT_VALID t = 0 → ∃ n, exec (.rdspec t p d sel) s = .next n ∧
        haltedWith s n t 0x01 0 pc c (wordSlot p o).enc))

/-- A tile ready to issue VRAND posts a 512-bit value, a stochastic VCVT the BF16 truncation of each lane or its next
greater magnitude (the truncation itself where nothing is cut off), no lane meeting a case, and a stochastic VQ8 the
mantissas of some 16-bit draws; T_RNG_DRAWN_V has counted 512 bits (VQ8: the sum of its lanes' draws), T_PC has moved
to the next word, and nothing else changes but the model's counter of free values. The bits drawn are free: the
statement holds whatever they are. Commands: vcvtF32Bf16Stochastic, vrand, vq8Stochastic. -/
def Obligations.RandomBitsAreDrawnAndCounted : Prop :=
  ∀ (s : State) (t : TileId) (p : Pred) (d a b : BitVec 4) (h : BitVec 1),
    let src := s.v2 t a.toNat
    let e := bits (s.v t b.toNat) (32 * h.toNat) 8
    let drawn := fun (n : State) (k : Nat) (lat r : Nat) =>
      wordDone s n t { s.tile t with results := (s.tile t).results ++ s.resultAt lat (.v d.toNat) r }
        [F.T_RNG_DRAWN_V_BITS.key t 0] ∧
      n.rd F.T_RNG_DRAWN_V_BITS t = (s.rd F.T_RNG_DRAWN_V_BITS t + k) % 2 ^ 48 ∧
      n = { s with rf := n.rf, tiles := n.tiles, free := n.free }
    (s.issues t p (.vrand d.toNat) →
      ∃ n r, exec (.vrand t p d) s = .next n ∧ r < 2 ^ 512 ∧ drawn n 512 3 r) ∧
    (s.issues t p (.vcvt 1 d.toNat a.toNat) → (∀ j < 32, fp32 (lane src 32 j) ≠ .nan) →
      ∃ n r, exec (.vcvtF32Bf16Stochastic t p d a) s = .next n ∧ r < 2 ^ 512 ∧ drawn n 512 (s.latency 3 2) r ∧
        ∀ j < 32, match fp32 (lane src 32 j) with
          | .fin _ _ _ => lane r 16 j = lane src 32 j / 2 ^ 16 ∨
              (lane r 16 j = lane src 32 j / 2 ^ 16 + 1 ∧ lane src 32 j % 2 ^ 16 ≠ 0)
          | .zero neg => lane r 16 j = if neg then 2 ^ 15 else 0
          | _ => lane r 16 j = lane src 32 j / 2 ^ 16) ∧
    (s.issues t p (.vq8 true d.toNat a.toNat b.toNat h.toNat) →
      (∀ j < 32, fp32 (lane src 32 j) ≠ .nan ∧ ∀ g, fp32 (lane src 32 j) ≠ .inf g) → e ≠ 255 →
      ∃ n r, exec (.vq8Stochastic t p d a b h) s = .next n ∧ r < 2 ^ 512 ∧
        wordDone s n t { s.tile t with results := (s.tile t).results ++ s.resultAt (s.latency 3 2) (.v d.toNat) r }
          [F.T_RNG_DRAWN_V_BITS.key t 0] ∧
        n.rd F.T_RNG_DRAWN_V_BITS t = (s.rd F.T_RNG_DRAWN_V_BITS t +
          ((List.range 32).map fun j => q8Bits (lane src 32 j) e).sum) % 2 ^ 48 ∧
        n = { s with rf := n.rf, tiles := n.tiles, free := n.free } ∧
        ∀ j < 32, (∃ u < 2 ^ q8Bits (lane src 32 j) e, q8Lane (lane src 32 j) e (some u) = .ok (lane r 8 (32 * h.toNat + j))) ∧
          lane r 8 (32 * (1 - h.toNat) + j) = lane (s.v t d.toNat) 8 (32 * (1 - h.toNat) + j))

/-- A tile ready to issue PACK24 in prune mode, no lane being a NaN, answers a next state in which it goes on and its
metadata names, for each of the eight groups, two indices in ascending order such that every index left out has a
smaller magnitude than either, or an equal one and a higher index; T_SPARSE_PRUNED has counted the non-zeros left out.
Where no group has more than two non-zeros, strict mode issues the same results. Commands: pack24Strict, pack24Prune. -/
def Obligations.PruneModeKeepsTheTwoGreatest : Prop :=
  ∀ (s : State) (t : TileId) (p : Pred) (d a b c : BitVec 4),
    let k := pack24Of (s.v t a.toNat) c.toNat
    let mag := fun g i => k.2.2.1 (4 * g + i)
    pack24Nan (s.v t a.toNat) c.toNat = none → s.issues t p (.pack24 true d.toNat a.toNat b.toNat c.toNat) →
    ∃ n out md, exec (.pack24Prune t p d a b c) s = .next n ∧ n.tstate t = 1 ∧
      (let rs := s.resultAt (s.latency 3 2) (.v d.toNat) out ++ s.resultAt (s.latency 3 2) (.g b.toNat) md
       n.tile t = { s.tile t with wait := 0, skipBp := false, results := (s.tile t).results ++ rs }) ∧
      (∀ g < 8, let i := md / 16 ^ g % 4
        let j := md / 16 ^ g / 4 % 4
        i < j ∧ ∀ l < 4, l ≠ i → l ≠ j → ∀ m ∈ [i, j], mag g l < mag g m ∨ (mag g l = mag g m ∧ m < l)) ∧
      n.rd F.T_SPARSE_PRUNED_VALUES t = (s.rd F.T_SPARSE_PRUNED_VALUES t + ((List.range 8).map fun g =>
        ((List.range 4).filter fun l => decide (mag g l ≠ 0 ∧ l ≠ md / 16 ^ g % 4 ∧ l ≠ md / 16 ^ g / 4 % 4)).length).sum) % 2 ^ 48 ∧
      ((∀ g < 8, ((List.range 4).filter fun l => decide (mag g l ≠ 0)).length ≤ 2) →
        ∃ m, exec (.pack24Strict t p d a b c) s = .next m ∧ m.tile t = n.tile t)

/-- A tile ready to issue PACK24, no lane being a NaN and, in strict mode, no group having more than two non-zeros: the
packed bits replace their half or quarter of vD, the metadata goes to gB, both after 3 tc (B0: 2); in prune mode
T_SPARSE_PRUNED counts the non-zeros left out; T_PC has moved to the next word and everything else is as it was.
Commands: pack24Strict, pack24Prune. -/
def Obligations.Pack24PostsValuesAndMetadata : Prop :=
  ∀ (s : State) (t : TileId) (p : Pred) (d a b c : BitVec 4),
    let k := pack24Of (s.v t a.toNat) c.toNat
    let q := pack24 k.1 k.2.1 k.2.2.1 8
    let lo := k.2.2.2
    let old := s.v t d.toNat
    let out := old % 2 ^ lo + q.1 * 2 ^ lo + old / 2 ^ (lo + 16 * k.1) * 2 ^ (lo + 16 * k.1)
    let rs := s.resultAt (s.latency 3 2) (.v d.toNat) out ++ s.resultAt (s.latency 3 2) (.g b.toNat) q.2.1
    pack24Nan (s.v t a.toNat) c.toNat = none →
      (s.issues t p (.pack24 false d.toNat a.toNat b.toNat c.toNat) → q.2.2.2 = none →
        ∃ n, exec (.pack24Strict t p d a b c) s = .next n ∧ afterWord s n t rs) ∧
      (s.issues t p (.pack24 true d.toNat a.toNat b.toNat c.toNat) →
        ∃ n, exec (.pack24Prune t p d a b c) s = .next n ∧
          wordDone s n t { s.tile t with results := (s.tile t).results ++ rs } [F.T_SPARSE_PRUNED_VALUES.key t 0] ∧
          n.rd F.T_SPARSE_PRUNED_VALUES t = (s.rd F.T_SPARSE_PRUNED_VALUES t + q.2.2.1) % 2 ^ 48 ∧
          n = { s with rf := n.rf, tiles := n.tiles })

/-- A tile ready to issue a sieve instruction with fewer than two queued, or a matrix instruction that no case suppresses
and that need not wait (room in the queue of four; for MRUN and MBLK a token held or free): the instruction stands
last in its queue with its word's address, its operands read now and the next place in the tile's issue order. MRUN
and MBLK take a token of the domain unless the tile holds one. MRDA instead posts the row's 32 columns (zeros where
its audit mark is set) to the pair vD after 4 tc (B0: 3). T_PC has moved to the next word and everything else is as it
was. Commands: svhistCoarse, svhistFine, svcutCoarse, svcutFine, svcutGather, svdraw, mzero, mldw, mldw8, mldw24,
mrun, mblk, mspill, mepi, mout, mrda, mlook. -/
def Obligations.SieveAndMatrixInstructionsQueue : Prop :=
  ∀ (s : State) (t : TileId) (p : Pred) (va d : BitVec 4) (a : BitVec 5) (acc rows : BitVec 6) (iv : BitVec 7)
      (op rnd : BitVec 2) (w u v : BitVec 1) (pr fold keep : Bool),
    let pc := s.rd F.T_PC_ADDR t
    let x := s.tile t
    let g := fun k => s.g t ((a.toNat + k) % 32)
    (∀ (i : Instr) (k : SvOp) (no : Nat), (i, k, no) ∈ [(Instr.svhistCoarse t p va, SvOp.hist0, 0),
        (.svhistFine t p va, .hist1, 1), (.svcutCoarse t p va, .cut0, 2), (.svcutFine t p va, .cut1, 3),
        (.svcutGather t p va, .cut2, 4)] →
      s.issues t p (.sv k va.toNat) → x.sq.length < 2 →
      ∃ n, exec i s = .next n ∧
        wordDone s n t { x with issued := x.issued + 1, sq := x.sq ++ [⟨no, pc, s.v t va.toNat, 0, x.issued⟩] } [] ∧
        n = { s with rf := n.rf, tiles := n.tiles }) ∧
    (s.issues t p (.sv .draw va.toNat) → x.sq.length < 2 →
      let given := (lane (s.v t va.toNat) 32 6).testBit 16
      ∃ n r, exec (.svdraw t p va) s = .next n ∧ r < 2 ^ 32 ∧
        wordDone s n t { x with issued := x.issued + 1, sq := x.sq ++ [⟨5, pc, s.v t va.toNat, if given then 0 else r, x.issued⟩] }
          [F.T_RNG_DRAWN_V_BITS.key t 0] ∧
        n.rd F.T_RNG_DRAWN_V_BITS t = (s.rd F.T_RNG_DRAWN_V_BITS t + if given then 0 else 32) % 2 ^ 48 ∧
        n = { s with rf := n.rf, tiles := n.tiles, free := n.free }) ∧
    (∀ (i : Instr) (o : SlotOp) (m : MOp), (i, o, m) ∈ [
        (Instr.mldw t p a w, SlotOp.mldw 1 a.toNat w.toNat, MOp.ldw 1 w.toNat),
        (.mldw8 t p a w, .mldw 2 a.toNat w.toNat, .ldw 2 w.toNat),
        (.mldw24 t p a w u, .mldw (3 + u.toNat) a.toNat w.toNat, .ldw (3 + u.toNat) w.toNat),
        (.mspill t p a iv, .mspill a.toNat iv.toNat, .spill iv.toNat),
        (.mepi t p a op u rnd, .mepi a.toNat op.toNat u.toNat rnd.toNat, .epi op.toNat u.toNat rnd.toNat),
        (.mout t p a acc rows fold keep, .mout a.toNat acc.toNat rows.toNat fold keep, .out acc.toNat (rows.toNat + 1) fold keep),
        (.mlook t p a acc rows w, .mlook a.toNat acc.toNat rows.toNat w.toNat, .look acc.toNat (rows.toNat + 1) w.toNat)] →
      s.issues t p o → s.matIssueCase t (wordSlot p o) = none → x.mq.length < 4 →
      ∃ n, exec i s = .next n ∧
        wordDone s n t { x with issued := x.issued + 1, mq := x.mq ++ [⟨m, pc, g 0, g 1, g 2, x.issued⟩] } [] ∧
        n = { s with rf := n.rf, tiles := n.tiles }) ∧
    (s.issues t p (.mzero acc.toNat rows.toNat pr) → s.matIssueCase t (wordSlot p (.mzero acc.toNat rows.toNat pr)) = none →
      x.mq.length < 4 →
      ∃ n m, exec (.mzero t p acc rows pr) s = .next n ∧ m.op = MOp.zero acc.toNat (rows.toNat + 1) pr ∧ m.addr = pc ∧
        m.seq = x.issued ∧ wordDone s n t { x with issued := x.issued + 1, mq := x.mq ++ [m] } [] ∧
        n = { s with rf := n.rf, tiles := n.tiles }) ∧
    (∀ (i : Instr) (o : SlotOp) (m : MOp), (i, o, m) ∈ [
        (Instr.mrun t p a acc rows w, SlotOp.mrun a.toNat acc.toNat rows.toNat w.toNat, MOp.run acc.toNat (rows.toNat + 1) w.toNat),
        (.mblk t p a acc u v w, .mblk a.toNat acc.toNat u.toNat v.toNat w.toNat, .blk acc.toNat (u.toNat + 1) v.toNat w.toNat)] →
      s.issues t p o → s.matReserved t (wordSlot p o) = none → s.matIssueCase t (wordSlot p o) = none →
      x.mq.length < 4 → (s.rd F.T_MSTATUS_TOKEN t = 1 ∨ s.tokenFree t = true) →
      ∃ n, exec i s = .next n ∧ n.rd F.T_MSTATUS_TOKEN t = 1 ∧
        n.rd F.PW_TOKEN_HELD_HELD 0 (domainOf t) = (s.rd F.PW_TOKEN_HELD_HELD 0 (domainOf t) +
          if s.rd F.T_MSTATUS_TOKEN t = 1 then 0 else 1) % 2 ^ 9 ∧
        wordDone s n t { x with issued := x.issued + 1, mq := x.mq ++ [⟨m, pc, g 0, g 1, g 2, x.issued⟩],
                                granted := x.granted && s.rd F.T_MSTATUS_TOKEN t == 1 }
          [F.T_MSTATUS_TOKEN.key t 0, F.PW_TOKEN_HELD_HELD.key 0 (domainOf t)] ∧
        n = { s with rf := n.rf, tiles := n.tiles }) ∧
    (s.issues t p (.mrda d.toNat acc.toNat) → x.mq.length < 4 → x.mstream = none → x.mq.all (fun m => m.op.isLoad) = true →
      ∃ n r r', exec (.mrda t p d acc) s = .next n ∧ r < 2 ^ 512 ∧ r' < 2 ^ 512 ∧
        (∀ j < 16, (lane r 32 j, lane r' 32 j) = if (s.rd F.T_MAUDIT_AUDIT t).testBit acc.toNat then (0, 0)
          else (s.acc t acc.toNat j, s.acc t acc.toNat (16 + j))) ∧
        afterWord s n t (s.resultAt (s.latency 4 3) (.v d.toNat) r ++ s.resultAt (s.latency 4 3) (.v (d.toNat + 1)) r'))

/-- A tile ready to issue, on a slip that is on: XWAIT for at most the slip's size and the bytes it holds only lets its
word issue; XTAKE of at most the bytes held (none where these exceed the size) advances the slip's TAIL by gA; XPUT
into a class-0 slip of at most the free bytes advances its HEAD by gA; T_PC has moved to the next word and nothing
else changes. Commands: xwait, xtake, xput. -/
def Obligations.SlipOperationsMoveTheirCounts : Prop :=
  ∀ (s : State) (t : TileId) (p : Pred) (a sl : BitVec 5),
    let k := s.g t a.toNat
    s.slipSize t sl.toNat ≠ 0 →
      (s.issues t p (.xwait a.toNat sl.toNat) → k ≤ s.slipSize t sl.toNat → k ≤ s.slipHeld t sl.toNat →
        ∃ n, exec (.xwait t p a sl) s = .next n ∧ afterWord s n t []) ∧
      (s.issues t p (.xtake a.toNat sl.toNat) → k ≤ s.slipAvail t sl.toNat →
        ∃ n, exec (.xtake t p a sl) s = .next n ∧
          n.rd F.SLIP_TAIL_COUNT t sl.toNat = (s.rd F.SLIP_TAIL_COUNT t sl.toNat + k) % 2 ^ 32 ∧
          wordDone s n t (s.tile t) [F.SLIP_TAIL_COUNT.key t sl.toNat] ∧ n = { s with rf := n.rf, tiles := n.tiles }) ∧
      (s.issues t p (.xput a.toNat sl.toNat) → s.slipClass t sl.toNat = 0 → (k : Int) ≤ s.slipFree t sl.toNat →
        ∃ n, exec (.xput t p a sl) s = .next n ∧
          n.rd F.SLIP_HEAD_COUNT t sl.toNat = (s.rd F.SLIP_HEAD_COUNT t sl.toNat + k) % 2 ^ 32 ∧
          wordDone s n t (s.tile t) [F.SLIP_HEAD_COUNT.key t sl.toNat] ∧ n = { s with rf := n.rf, tiles := n.tiles })

/-- A tile ready to issue: SOADD and SOSET send the object and gA towards the hub behind what is on its way; a SOWAIT that
the hub has answered as met issues and forgets the answer; MFSAMP with room in the sampler's queue, MFPOST and MFREV
with room in the manifest queue, their descriptor aligned and in scratchpad, queue it with its word's address; a QPOST
of a PUSH descriptor stands last in the home quay's push queue, and a timed QPOST that its quay has accepted, its
descriptor having failed nothing, issues. T_PC has moved to the next word and nothing else changes. A timed QPOST not
yet sent reaches its template's quay and the word waits as CREDIT_WAIT. Commands: qpostTimed, qpostPush, soadd,
sowait, soset, mfpost, mfsamp, mfrev. -/
def Obligations.HubQuayAndManifestSlotsReachTheirUnits : Prop :=
  ∀ (s : State) (t : TileId) (p : Pred) (a : BitVec 5) (obj : BitVec 13),
    let pc := s.rd F.T_PC_ADDR t
    let x := s.tile t
    let off := s.g t a.toNat
    let body := s.bytes (spad t off) 64
    (∀ (i : Instr) (o : SlotOp) (k : Nat), (i, o, k) ∈ [(Instr.soadd t p a obj, SlotOp.soadd a.toNat obj.toNat, 1),
        (.soset t p a obj, .soset a.toNat obj.toNat, 2)] →
      s.issues t p o → ∃ n, exec i s = .next n ∧ wordDone s n t x [] ∧
        n = { s with rf := n.rf, tiles := n.tiles,
                     hub := { s.hub with inbox := s.hub.inbox ++ [⟨0, t, k, obj.toNat, off, s.tilePartN t, false, pc, false⟩] } }) ∧
    (s.issues t p (.sowait a.toNat obj.toNat) → x.soWait = some (obj.toNat, 1) →
      ∃ n, exec (.sowait t p a obj) s = .next n ∧ wordDone s n t { x with soWait := none } [] ∧
        n = { s with rf := n.rf, tiles := n.tiles }) ∧
    (off % 64 = 0 → off < 0x60000 →
      (s.issues t p (.mf .samp a.toNat) → x.sampQ.length < 4 → ∃ n, exec (.mfsamp t p a) s = .next n ∧
        wordDone s n t { x with sampQ := x.sampQ ++ [{ kind := 0, addr := pc, off := off }] } [] ∧
        n = { s with rf := n.rf, tiles := n.tiles }) ∧
      (∀ (i : Instr) (o : MfOp) (k : Nat), (i, o, k) ∈ [(Instr.mfpost t p a, MfOp.post, 1), (.mfrev t p a, .rev, 2)] →
        s.issues t p (.mf o a.toNat) → x.manQ.length < 4 → ∃ n, exec i s = .next n ∧
          wordDone s n t { x with manQ := x.manQ ++ [{ kind := k, addr := pc, off := off }] } [] ∧
          n = { s with rf := n.rf, tiles := n.tiles }) ∧
      (s.issues t p (.qpost a.toNat) →
        (isPush body = true → (s.quay (homeQuay t)).pushQ.length + (s.quay (homeQuay t)).pushes.length < 64 →
          ∃ n, exec (.qpostPush t p a) s = .next n ∧ wordDone s n t x [] ∧
            n.quay (homeQuay t) = { s.quay (homeQuay t) with pushQ := (s.quay (homeQuay t)).pushQ ++ [⟨t, pc, body⟩] } ∧
            (∀ q, q ≠ homeQuay t → n.quay q = s.quay q) ∧
            n = { s with rf := n.rf, tiles := n.tiles, quays := n.quays }) ∧
        (∀ q, isPush body = false → s.tplQuay t (byteAt body 1) = some q →
          (x.qpost = some true → x.qfail = none →
            ∃ n, exec (.qpostTimed t p a) s = .next n ∧ wordDone s n t { x with qpost := none } [] ∧
            n = { s with rf := n.rf, tiles := n.tiles }) ∧
          (x.qpost = none → ∃ n, exec (.qpostTimed t p a) s = .next n ∧
            n.tile t = { x with qpost := some false, wait := 7 } ∧ (∀ v, v ≠ t.val → n.tile v = s.tile v) ∧
            n.quay q = { s.quay q with posts := (s.quay q).posts ++ [⟨t, pc, body⟩] } ∧
            (∀ r, r ≠ q → n.quay r = s.quay r) ∧ n = { s with tiles := n.tiles, quays := n.quays }))))

/-- A tile ready to issue whose word at T_PC lies in execute slips and holds one slot of any class: WORD_ISSUE does
exactly what that slot's own command does. Where the word holds an S and a V slot that compute, each writing registers
the other does not: the results of both, each computed from the state at issue, wait to retire, T_PC moves on by ten
bytes, and nothing else changes. Commands: wordIssue. -/
def Obligations.WordsIssueWhole : Prop :=
  ∀ (s : State) (t : TileId) (p q : Pred) (o o2 : SlotOp) (rs rs2 : List (Dst × Nat)),
    let pc := s.rd F.T_PC_ADDR t
    let rnd := (Config.rng s.free).toNat % 2 ^ 512
    pc % 2 = 0 →
    (s.issues t p o → s.allExec t pc 6 = true → s.bytes (spad t pc) 2 = leBytes (2 ^ o.cls) 2 →
      s.bytes (spad t (pc + 2)) 4 = leBytes (wordSlot p o).enc 4 →
      exec (.wordIssue t .ok) s = .next (s.slotIssue t p o)) ∧
    (s.issues t p o → s.issues t q o2 → s.allExec t pc 10 = true → s.bytes (spad t pc) 2 = leBytes 3 2 →
      s.bytes (spad t (pc + 2)) 4 = leBytes (wordSlot p o).enc 4 →
      s.bytes (spad t (pc + 6)) 4 = leBytes (wordSlot q o2).enc 4 →
      o.cls = 0 → o2.cls = 1 → o.isCtl = false → (∀ d ∈ (wordSlot p o).writes, d ∉ (wordSlot q o2).writes) →
      s.slotWait t o = none → s.slotWait t o2 = none → s.storeOf t o = none → s.storeOf t o2 = none →
      s.drawsV t o2 = 0 → (∀ pr d a b c, o2 ≠ .pack24 pr d a b c) → (∀ k a, o2 ≠ .sv k a) →
      s.eff t rnd o = .ok rs → s.eff t rnd o2 = .ok rs2 →
      ∃ n, exec (.wordIssue t .ok) s = .next n ∧ n.rd F.T_PC_ADDR t = (pc + 10) % 2 ^ 19 ∧
        n.tile t = { s.tile t with wait := 0, skipBp := false, results := (s.tile t).results ++
          (rs.flatMap fun r => s.resultAt (o.lat s.isB0 (s.loadOff t o)) r.1 r.2) ++
          (rs2.flatMap fun r => s.resultAt (o2.lat s.isB0 (s.loadOff t o2)) r.1 r.2) } ∧
        (∀ v, v ≠ t.val → n.tile v = s.tile v) ∧ regsBut [F.T_PC_ADDR.key t 0] s n ∧
        n = { s with rf := n.rf, tiles := n.tiles })

/-- A tile with results pending: RESULT_RETIRE answers a next state in which one of those due first has been written to
its register (a write to g0 or p0 is discarded) and is pending no more; no other register, no other result and nothing
else has changed. With none pending, and while a slack holds the tile in a crossing, the state is as it was. Commands:
resultRetire. -/
def Obligations.TheEarliestResultRetires : Prop :=
  ∀ (s : State) (t : TileId),
    ((s.tile t).results = [] ∨ s.stands t = true → exec (.resultRetire t) s = .next s) ∧
    ((s.tile t).results ≠ [] → s.stands t = false → ∃ n r, exec (.resultRetire t) s = .next n ∧
      r ∈ (s.tile t).results ∧ (∀ q ∈ (s.tile t).results, r.due ≤ q.due) ∧
      n.tile t = { s.tile t with results := (s.tile t).results.erase r } ∧ (∀ v, v ≠ t.val → n.tile v = s.tile v) ∧
      n = { s with rf := n.rf, tiles := n.tiles } ∧
      match r.dst with
      | .g k => n.g t k = (if k = 0 then 0 else r.val % 2 ^ 32) ∧ regsBut (if k = 0 then [] else [F.G.key t k]) s n
      | .v k => n.v t k = r.val % 2 ^ 512 ∧ regsBut [F.V.key t k] s n
      | .p k => n.p t k = (if k = 0 then 1 else r.val % 2) ∧ regsBut (if k = 0 then [] else [(F.P k).key t 0]) s n)

/-- A RUNNING tile whose halt record is empty: T_CTRL_STOP halts it with BREAKPOINT, DETAIL 0x0004 and SLOT 7;
WATCHDOG_EXPIRE, the count having reached a limit other than 0 outside a crossing, halts it with WATCHDOG and SLOT 7,
the limit in T_HALT_AUX; both records hold T_PC. A STOP of a tile that is not RUNNING and did not halt in this tc, and
WATCHDOG_EXPIRE with the limit 0, not reached, or in a crossing, change nothing. Commands: watchdogExpire, tCtrlStop. -/
def Obligations.WatchdogAndStopHaltTheTile : Prop :=
  ∀ (s : State) (t : TileId),
    let pc := s.rd F.T_PC_ADDR t
    let l := s.rd F.T_WDOG_LIMIT_LIMIT t
    (s.tstate t = 1 → s.rd F.T_HALT_VALID t = 0 →
      (∃ n, exec (.tCtrlStop t) s = .next n ∧ haltedWith s n t 0x10 7 pc 0x0004 0) ∧
      (s.inCrossing t = false → l ≠ 0 → l ≤ s.rd F.T_WDOG_COUNT_TC t →
        ∃ n, exec (.watchdogExpire t) s = .next n ∧ haltedWith s n t 0x11 7 pc 0 l)) ∧
    (s.tstate t ≠ 1 → (s.tstate t = 2 → s.rd F.T_HALT_CYCLE_TC t ≠ s.tc % 2 ^ 64) →
      exec (.tCtrlStop t) s = .next s) ∧
    (s.tstate t ≠ 1 ∨ s.inCrossing t = true ∨ l = 0 ∨ s.rd F.T_WDOG_COUNT_TC t < l →
      exec (.watchdogExpire t) s = .next s)

/-- GO of a STOPPED, DONE or HALTED tile, with the grid clock running, outside a crossing and with T_CODE_STAMP equal to
STEPID: the tile is RUNNING at T_ENTRY, its halt record, both loop levels and its watchdog count are 0, its waits are
forgotten. In a crossing the GO is held; in IDLE it is held and starts the grid clock; of a RUNNING or FENCED tile it
changes nothing. RESUME of a tile HALTED by a breakpoint, under the same conditions: RUNNING at T_HALT.ADDR with the
loops kept, its next word issuing past its breakpoint. Nothing else changes. Commands: tCtrlGo, tCtrlResume. -/
def Obligations.GoAndResumeStartTheTile : Prop :=
  ∀ (s : State) (t : TileId),
    let loops := (List.range 2).flatMap fun l =>
      [F.T_LOOP_ACTIVE, F.T_LOOP_COUNT, F.T_LOOP_RANGE_START, F.T_LOOP_RANGE_END].map fun f => (f, l)
    (s.tstate t = 0 ∨ s.tstate t = 2 ∨ s.tstate t = 3 →
      (s.power.state = .active → s.inCrossing t = false → s.rd F.T_CODE_STAMP_STAMP t = s.stepping.id →
        ∃ n, exec (.tCtrlGo t) s = .next n ∧ n.tstate t = 1 ∧ n.rd F.T_PC_ADDR t = s.rd F.T_ENTRY_ADDR t ∧
          (∀ f ∈ haltFields, n.rd f t = 0) ∧ (∀ e ∈ loops, n.rd e.1 t e.2 = 0) ∧ n.rd F.T_WDOG_COUNT_TC t = 0 ∧
          n.tile t = { s.tile t with held := 0, wait := 0, skipBp := false, stopReq := false, manHalt := false,
                                     soWait := none, qpost := none, atBar := false } ∧
          (∀ v, v ≠ t.val → n.tile v = s.tile v) ∧
          regsBut ([F.T_STATUS_STATE.key t 0, F.T_PC_ADDR.key t 0, F.T_WDOG_COUNT_TC.key t 0] ++
            haltFields.map (fun f => f.key t 0) ++ loops.map fun e => e.1.key t e.2) s n ∧
          n = { s with rf := n.rf, tiles := n.tiles }) ∧
      (s.power.state = .active → s.inCrossing t = true →
        exec (.tCtrlGo t) s = .next (s.upTile t fun x => { x with held := 1 })) ∧
      (s.power.state = .idle → s.inCrossing t = false →
        exec (.tCtrlGo t) s = .next { s with tiles := aput {} s.tiles t { s.tile t with held := 1 },
                                             power := { s.power with state := .starting } })) ∧
    (s.tstate t = 1 ∨ s.tstate t = 4 → exec (.tCtrlGo t) s = .next s) ∧
    (s.tstate t = 2 → s.rd F.T_HALT_REASON t = 0x10 → s.power.state = .active → s.inCrossing t = false →
      ∃ n, exec (.tCtrlResume t) s = .next n ∧ n.tstate t = 1 ∧ n.rd F.T_PC_ADDR t = s.rd F.T_HALT_ADDR t ∧
        (∀ f ∈ haltFields, n.rd f t = 0) ∧ n.rd F.T_WDOG_COUNT_TC t = 0 ∧
        n.tile t = { s.tile t with held := 0, wait := if (s.tile t).atBar then 14 else 0, skipBp := true, stopReq := false } ∧
        (∀ v, v ≠ t.val → n.tile v = s.tile v) ∧
        regsBut ([F.T_STATUS_STATE.key t 0, F.T_PC_ADDR.key t 0, F.T_WDOG_COUNT_TC.key t 0] ++
          haltFields.map fun f => f.key t 0) s n ∧ n = { s with rf := n.rf, tiles := n.tiles }) ∧
    (s.tstate t ≠ 2 ∨ s.rd F.T_HALT_REASON t ≠ 0x10 → exec (.tCtrlResume t) s = .next s)

/-- On a tile ready to issue whose halt record is empty: a BF16 addition whose lowest lane with a case is i raises
OPERAND_CASE with that lane's DETAIL and lane; a load beyond scratchpad (0x0101) or misaligned (0x0102); a store into
an execute slip raises CODE_WRITE with the offset; XTAKE of more than the slip holds raises SLIP_UNDERRUN with the
slip. The record holds the word's address and the slot; no result is issued, no byte of memory changes. Commands: ld,
st, vbfAdd, xtake. -/
def Obligations.CasesHaltTheTile : Prop :=
  ∀ (s : State) (t : TileId) (p : Pred) (d a : BitVec 5) (vd va vb : BitVec 4) (imm : BitVec 11) (sl : BitVec 5) (i c : Nat),
    let pc := s.rd F.T_PC_ADDR t
    let adr := (BitVec.ofNat 32 (s.g t a.toNat) + 4 * imm.signExtend 32).toNat
    let sum := fun j => FOp.lane .add 8 (bf16 (lane (s.v t va.toNat) 16 j)) (bf16 (lane (s.v t vb.toNat) 16 j)) (.zero false)
    let after := fun (n : State) => n.rd F.T_PC_ADDR t = (pc + 6) % 2 ^ 19
    let moved := [F.T_PC_ADDR.key t 0]
    s.rd F.T_HALT_VALID t = 0 →
    (s.issues t p (.vbf .add vd.toNat va.toNat vb.toNat 0) → i < 32 → (∀ j < i, ∃ x, sum j = .ok x) → sum i = .error c →
      ∃ n, exec (.vbfAdd t p vd va vb) s = .next n ∧ after n ∧ haltedWith s n t 0x02 1 pc c i moved) ∧
    (s.issues t p (.mem .ld d.toNat a.toNat imm.toNat) → (0x60000 ≤ adr ∨ adr % 4 ≠ 0) →
      ∃ n, exec (.ld t p d a imm) s = .next n ∧ after n ∧
        haltedWith s n t 0x02 0 pc (if 0x60000 ≤ adr then 0x0101 else 0x0102) 0 moved) ∧
    (s.issues t p (.mem .st d.toNat a.toNat imm.toNat) → adr < 0x60000 → adr % 4 = 0 → s.inExec t adr 4 = true →
      s.slotWait t (.mem .st d.toNat a.toNat imm.toNat) = none →
      ∃ n, exec (.st t p d a imm) s = .next n ∧ after n ∧ haltedWith s n t 0x07 0 pc 0 adr moved) ∧
    (s.issues t p (.xtake a.toNat sl.toNat) → s.slipSize t sl.toNat ≠ 0 → s.slipAvail t sl.toNat < s.g t a.toNat →
      ∃ n, exec (.xtake t p a sl) s = .next n ∧ after n ∧ haltedWith s n t 0x04 3 pc 0 sl.toNat moved)

/-- GO of a STOPPED, DONE or HALTED tile, with the grid clock running and outside a crossing: with T_CODE_STAMP equal to
STEPID (0x00A1 on A1, 0x00B0 on B0) the tile is RUNNING at T_ENTRY; else it halts with TRANSLATE_MISMATCH, T_HALT.SLOT
4, the stamp in T_HALT_AUX[15:0] and STEPID in [31:16], at T_ENTRY with no word issued: nothing has changed but the
halt, the loops, T_PC and the watchdog count. Commands: tCtrlGo. -/
def Obligations.GoChecksTheCodeStamp : Prop :=
  ∀ (s : State) (t : TileId),
    let stamp := s.rd F.T_CODE_STAMP_STAMP t
    let stepid := match s.stepping with | .A1 => 0x00A1 | .B0 => 0x00B0
    s.tstate t = 0 ∨ s.tstate t = 2 ∨ s.tstate t = 3 → s.power.state = .active → s.inCrossing t = false →
      (stamp = stepid → ∃ n, exec (.tCtrlGo t) s = .next n ∧ n.tstate t = 1 ∧
        n.rd F.T_PC_ADDR t = s.rd F.T_ENTRY_ADDR t) ∧
      (stamp ≠ stepid → ∃ n, exec (.tCtrlGo t) s = .next n ∧ n.rd F.T_PC_ADDR t = s.rd F.T_ENTRY_ADDR t ∧
        n.rd F.T_HALT_AUX_AUX t % 2 ^ 16 = stamp ∧ n.rd F.T_HALT_AUX_AUX t / 2 ^ 16 = stepid ∧
        (n.tile t).results = (s.tile t).results ∧
        haltedWith s n t 0x12 4 (s.rd F.T_ENTRY_ADDR t) 0 (stamp + 2 ^ 16 * stepid)
          ([F.T_PC_ADDR.key t 0, F.T_WDOG_COUNT_TC.key t 0, F.T_HALT_MORE.key t 0] ++ (List.range 2).flatMap fun l =>
            [F.T_LOOP_ACTIVE, F.T_LOOP_COUNT, F.T_LOOP_RANGE_START, F.T_LOOP_RANGE_END].map fun f => f.key t l))

/-- With the grid clock running, an arrival at allocated barrier b by BARRIER_ARRIVAL (any class), by XT_BAR_ARRIVE of a
landing core that is ready and of the barrier's partition or of none, by a quay that holds what the crossing takes
from it, or by an engine that has reserved its grid-in space and holds its takes: ARRIVED rises by one, or, where that
makes EXPECT (that of the carry run in progress), returns to 0 while XT_BAR_DONE counts one and the crossing awaits
its start under that class. A quay or engine is noted as arrived, and an engine's reservation stands. Nothing else
changes. At a barrier with ALLOC 0 BARRIER_ARRIVAL changes nothing. Commands: barrierArrival, xtBarArrive,
quayBarrierArrive, engineBarrierArrive. -/
def Obligations.ArrivalsCountAtTheirBarrier : Prop :=
  ∀ (s : State) (b : BitVec 8) (cls : BitVec 4) (unit : BitVec 12) (core : CoreId) (q : QuayId) (k : PortId) (part : PartId)
      (c : BitVec 8),
    let key := 256 * part.val + c.toNat
    let e := s.rd F.XT_BAR_ARRIVED 0 b.toNat + 1
    let counted := fun (n : State) (cl : Nat) =>
      (e ≠ s.barExpect b.toNat → n.rd F.XT_BAR_ARRIVED 0 b.toNat = e % 2 ^ F.XT_BAR_ARRIVED.width ∧ n.hub = s.hub ∧
        regsBut [F.XT_BAR_ARRIVED.key 0 b.toNat] s n) ∧
      (e = s.barExpect b.toNat → n.rd F.XT_BAR_ARRIVED 0 b.toNat = 0 ∧
        n.rd F.XT_BAR_DONE_COUNT = (s.rd F.XT_BAR_DONE_COUNT + 1) % 2 ^ F.XT_BAR_DONE_COUNT.width ∧
        n.hub = { s.hub with starting := s.hub.starting ++
          [⟨s.rd F.XT_BAR_PART 0 b.toNat, s.rd F.XT_BAR_CROSSING 0 b.toNat, cl, 0⟩] } ∧
        regsBut [F.XT_BAR_ARRIVED.key 0 b.toNat, F.XT_BAR_DONE_COUNT.key 0 0] s n)
    s.power.state = .active →
    (s.rd F.XT_BAR_ALLOC 0 b.toNat = 0 → exec (.barrierArrival cls unit b) s = .next s) ∧
    (s.rd F.XT_BAR_ALLOC 0 b.toNat = 1 →
      (∃ n, exec (.barrierArrival cls unit b) s = .next n ∧ counted n cls.toNat ∧ n = { s with rf := n.rf, hub := n.hub }) ∧
      (s.coreReady core = true → (s.corePart core = 4 ∨ s.corePart core = s.rd F.XT_BAR_PART 0 b.toNat) →
        ∃ n, exec (.xtBarArrive core b) s = .next n ∧ counted n 1 ∧ n = { s with rf := n.rf, hub := n.hub }) ∧
      (s.barOf part c.toNat = some b.toNat →
        ((s.crossMasks part c.toNat).1.testBit q = true →
          (∀ e ∈ s.crossTpls part c.toNat, e.1 = q.val → s.tplStatic q e.2 = false →
            ∃ u ∈ (s.quay q).uses, u.tpl = e.2 ∧ u.run = false) →
          s.mfTiles part c.toNat = [] → key ∉ (s.quay q).arrived → s.quayFenced q = false →
          ∃ n, exec (.quayBarrierArrive q part c) s = .next n ∧ counted n 2 ∧
            n.quay q = { s.quay q with arrived := (s.quay q).arrived ++ [key] } ∧ (∀ r, r ≠ q.val → n.quay r = s.quay r) ∧
            n = { s with rf := n.rf, hub := n.hub, quays := n.quays }) ∧
        (∀ need, need = ((List.range 16).map fun i => (s.chanUse k i part c.toNat).1).sum →
          ((s.eng k).gridIn.map fun x => x.2.length).sum + ((s.eng k).resv.map fun x => x.2).sum + need ≤ 2 ^ 20 →
          (∀ i < 16, (((s.eng k).owed.filter fun x => x.1 % 16 == i).map fun x => x.2).sum + (s.chanUse k i part c.toNat).2
            ≤ (chanBytes (s.eng k).deliver i).length) →
          key ∉ (s.eng k).arrived →
          ∃ n, exec (.engineBarrierArrive k part c) s = .next n ∧ counted n 4 ∧
            n.eng k = { s.eng k with arrived := (s.eng k).arrived ++ [key], resv := aadd (s.eng k).resv key need,
                                     owed := (n.eng k).owed } ∧
            (∀ i < 16, aget 0 (n.eng k).owed (16 * key + i) =
              aget 0 (s.eng k).owed (16 * key + i) + (s.chanUse k i part c.toNat).2) ∧
            (∀ i, i / 16 ≠ key → aget 0 (n.eng k).owed i = aget 0 (s.eng k).owed i) ∧
            (∀ r, r ≠ k.val → n.eng r = s.eng r) ∧ n = { s with rf := n.rf, hub := n.hub, engs := n.engs })))

/-- CROSSING_START of a crossing whose barrier has completed, with the grid clock running, at a checkpoint at which no
slack is in force or begins, no router of it running another crossing and no manifest use in its way: every router
that holds it runs it from cycle 0; a tile that takes part in it (none does in a carry run) and is released later is
in crossing, its pending barrier wait has gone to the idle counter of the last arrival's class, and XT_CUR names the
directory's next crossing; the hub holds it as running; memory is as it was. Of a crossing whose barrier has not
completed, and at any other spine cycle, it changes nothing. TILE_RELEASE of a tile in crossing at or past its release
cycle with nothing held, outside a slack, clears CROSSING alone; a tile in no crossing, before its cycle, or in a
slack stays as it was. Commands: crossingStart, tileRelease. -/
def Obligations.CrossingsStartAndTilesLeaveThem : Prop :=
  ∀ (s : State) (part : PartId) (c : BitVec 8) (t : TileId),
    (s.hub.starting.find? (fun x => x.part == part.val && x.num == c.toNat) = none →
      exec (.crossingStart part c) s = .next s) ∧
    (∀ x, s.hub.starting.find? (fun x => x.part == part.val && x.num == c.toNat) = some x →
      s.power.state = .active → s.checkpoint = true → s.frozen = false →
      (∀ u ∈ s.crossRouters part c.toNat, s.rd F.XT_RSTATUS_RUN u = 0) → s.useBlocks part c.toNat = false →
      ∃ n, exec (.crossingStart part c) s = .next n ∧ n.hub.running = s.hub.running ++ [{ x with began := s.spine }] ∧
        n.mem = s.mem ∧
        ∀ u ∈ s.crossRouters part c.toNat,
          n.rd F.XT_RSTATUS_RUN u = 1 ∧ n.rd F.XT_RSTATUS_CROSSING u = c.toNat ∧ n.rd F.XT_RSTATUS_CYCLE u = 0 ∧
          (s.rd F.DIR_LOCAL u c.toNat = 1 → s.rd F.DIR_RELEASE u c.toNat ≠ 0 →
            (∀ v ∈ s.hub.uses, ¬ (v.part = part.val ∧ v.num = c.toNat)) →
            n.inCrossing u = true ∧ n.rd F.T_BAR_PENDING_TC u = 0 ∧
            n.rd F.T_IDLE_TC u (barCause x.cls - 1) =
              (s.rd F.T_IDLE_TC u (barCause x.cls - 1) + s.rd F.T_BAR_PENDING_TC u) % 2 ^ 48 ∧
            n.rd F.XT_CUR_CROSSING u = s.rd F.DIR_NEXT u c.toNat ∧ n.rd F.XT_CUR_VALID u = s.rd F.DIR_NEXTV u c.toNat)) ∧
    (s.power.state ≠ .active ∨ s.checkpoint = false ∨ s.frozen = true → exec (.crossingStart part c) s = .next s) ∧
    (s.inCrossing t = true → s.frozen = false → s.releaseDue t = true → (s.tile t).held = 0 →
      ∃ n, exec (.tileRelease t) s = .next n ∧ n.inCrossing t = false ∧ regsBut [F.T_STATUS_CROSSING.key t 0] s n ∧
        n = { s with rf := n.rf }) ∧
    (s.inCrossing t = false ∨ s.frozen = true ∨ s.releaseDue t = false → exec (.tileRelease t) s = .next s)

/-- On a router running a crossing, not in a slack, tile not closed, the crossing no manifest crossing: the sending read I
tc before a take from L, from a slip that is on and holds the bytes, brings the 64 bytes at the running position
behind the tail to the L input I tc later and counts them sent; FLIT_TAKE of a flit present at a mesh or express input
that one mesh output selects brings it to the neighbour's input a cycle later (counted unless withheld), and one that
L alone selects, of this crossing and good, is on its way into the slip, to land E - 1 tc later; FLIT_EJECT_LAND
writes the oldest such flit's 64 bytes, once due, at HEAD of its slip, which has room and no code, advances HEAD by 64
and writes no other byte; TIMETABLE_ENTRY_ADVANCE begins the next entry where the present one has lasted its time, or
after the last one stops the router. In a slack, and an entry not over, nothing changes. Commands:
timetableEntryAdvance, sendingRead, flitTake, flitEjectLand. -/
def Obligations.FlitsMoveThroughTheFabric : Prop :=
  ∀ (s : State) (t : TileId) (cycle : BitVec 18) (port : BitVec 4) (f : Flit) (o : Nat) (e : Ecc),
    let x := s.tile t
    let c := s.rd F.XT_RSTATUS_CROSSING t
    let rest := fun (n : State) (l : List Nat) => ∀ v, v ∉ l → n.tile v = s.tile v
    let ins := mapFirst (fun (a : Arrival) => a.port == port.toNat && a.cycle == s.spine && !a.checked)
      (fun a => { a with checked := true }) (x.inputs.filter fun a => decide (s.spine ≤ a.cycle + s.latency 1 0))
    let taken := { x with took := aput 0 x.took port.toNat (s.spine + 1), inputs := ins }
    (s.frozen = true → ∀ i ∈ [Instr.sendingRead t cycle e, .flitTake t port ⟨e, e⟩, .flitEjectLand ⟨t, e⟩, .timetableEntryAdvance t],
      exec i s = .next s) ∧
    (s.frozen = false → s.rd F.XT_RSTATUS_RUN t = 1 → s.tstate t ≠ 4 → s.mfEntry t c = none →
    (∀ e b, s.entryAt t cycle.toNat 4096 (s.rd F.DIR_FIRST t c) 0 = some (e, b) → (∃ r, 1 ≤ r ∧ r ≤ 9 ∧ s.sel t e r = 9) →
      s.paceOn t e b cycle.toNat = true → x.lastRead = none →
      cycle.toNat = s.rd F.XT_RSTATUS_CYCLE t + s.latency 3 2 → s.rd F.TT_RAW t e = 0 →
      let sl := s.rd F.TT_ISLIP t e
      let tail := aget 0 x.tails sl
      let n0 := aget 0 x.sent sl
      s.slipSize t sl ≠ 0 → s.slipHeld t sl ≤ s.slipSize t sl → n0 + 64 ≤ (s.slipHead t sl + 2 ^ 32 - tail) % 2 ^ 32 →
      ∃ n, exec (.sendingRead t cycle .ok) s = .next n ∧ rest n [t] ∧ n = { s with tiles := n.tiles } ∧
        n.tile t = { x with lastRead := some cycle.toNat, sent := aput 0 x.sent sl (n0 + 64), inputs := x.inputs ++
          [⟨9, s.spine + s.latency 3 2, false, ⟨s.rd F.XT_RCFG_PART t, c, false, false,
            s.ldn (spad t (s.slipOff t sl ((tail + n0) % 2 ^ 32))) 64, none⟩⟩] }) ∧
    (s.paceOn t x.rtEntry x.rtStart (s.rd F.XT_RSTATUS_CYCLE t) = true → s.entryOver t = false → 1 ≤ port.toNat →
      port.toNat ≤ 8 → hop t port.toNat ≠ none → aget 0 x.took port.toNat ≠ s.spine + 1 → s.present t port.toNat o = some f →
      (∀ r, 1 ≤ r → r ≤ 9 → (s.sel t x.rtEntry r = port.toNat ↔ r = o)) → 1 ≤ o → o ≤ 9 →
      (∀ u p, o ≤ 4 → hop t o = some (u, p) →
        ∃ n, exec (.flitTake t port ⟨.ok, e⟩) s = .next n ∧ rest n [t, u] ∧ n.tile t = taken ∧
          n.tile u = { s.tile u with inputs := (s.tile u).inputs ++ [⟨p, s.spine + 1, false, f⟩] } ∧
          n.rd F.XT_PASS_FLITS_FLITS t =
            (s.rd F.XT_PASS_FLITS_FLITS t + if f.held then 0 else 1) % 2 ^ F.XT_PASS_FLITS_FLITS.width ∧
          regsBut [F.XT_PASS_FLITS_FLITS.key t 0] s n ∧ n = { s with rf := n.rf, tiles := n.tiles }) ∧
      (o = 9 → f.held = false → f.part = s.rd F.XT_RCFG_PART t → f.cross = c → f.bad = none →
        s.rd F.TT_RAW t x.rtEntry = 0 →
        (s.slipClass t (s.rd F.TT_ESLIP t x.rtEntry) = 1 ∨ s.slipClass t (s.rd F.TT_ESLIP t x.rtEntry) = 3) →
        ∃ n, exec (.flitTake t port ⟨.ok, e⟩) s = .next n ∧ rest n [t] ∧
          n.tile t = { taken with ejects := x.ejects ++ [⟨f, s.rd F.TT_ESLIP t x.rtEntry, none, none, c,
            s.rd F.XT_RSTATUS_CYCLE t, s.spine + s.latency 2 1 - 1⟩] } ∧ n = { s with tiles := n.tiles })) ∧
    (∀ j r, x.ejects = j :: r → j.raw = none → j.man = none → j.due ≤ s.spine → s.slipClass t j.slip = 1 →
      (s.tstate t = 1 → ∀ q ∈ s.slipSpan t j.slip (s.slipHead t j.slip) 64, s.inExec t q.1 q.2 = false) →
      64 ≤ s.slipFree t j.slip → s.slipSize t j.slip % 64 = 0 → s.slipHead t j.slip % 64 = 0 →
      let a := spad t (s.rd F.SLIP_BASE_BASE t j.slip + s.slipHead t j.slip % s.slipSize t j.slip)
      ∃ n, exec (.flitEjectLand ⟨t, e⟩) s = .next n ∧ (∀ i < 64, n.byte (a + i) = BitVec.ofNat 8 (j.flit.data / 256 ^ i)) ∧
        memBut a 64 s n ∧ n.slipHead t j.slip = (s.slipHead t j.slip + 64) % 2 ^ 32 ∧
        n.rd F.XT_EJ_FLITS_FLITS t = (s.rd F.XT_EJ_FLITS_FLITS t + 1) % 2 ^ F.XT_EJ_FLITS_FLITS.width ∧
        n.tile t = { x with ejects := r } ∧ rest n [t] ∧
        regsBut [F.SLIP_HEAD_COUNT.key t j.slip, F.XT_EJ_FLITS_FLITS.key t 0] s n ∧
        n = { s with rf := n.rf, tiles := n.tiles, mem := n.mem }) ∧
    (s.entryOver t = false → exec (.timetableEntryAdvance t) s = .next s) ∧
    (s.entryOver t = true → ∃ n, exec (.timetableEntryAdvance t) s = .next n ∧
      (s.rd F.TT_LAST t x.rtEntry = 0 → n.tile t = { x with rtEntry := (x.rtEntry + 1) % 4096,
                                                            rtStart := x.rtStart + s.rd F.TT_DUR t x.rtEntry + 1 } ∧
        rest n [t] ∧ n = { s with tiles := n.tiles }) ∧
      (s.rd F.TT_LAST t x.rtEntry = 1 → n.rd F.XT_RSTATUS_RUN t = 0 ∧ regsBut [F.XT_RSTATUS_RUN.key t 0] s n ∧
        n = { s with rf := n.rf, hub := n.hub, engs := n.engs, quays := n.quays })))

/-- XT_HOLD_STATUS shows the causes asserted now: THERMAL by the clamp or a throttle, the others only while a crossing
runs. With the grid clock running and no slack: the first sample 16 tc before a checkpoint counts every asserted cause
and every quay that is short, names the sources and remembers the causes, a sample at another cycle changes nothing;
HOLD_BEGIN at the checkpoint after a sample with a cause puts the crossings in slack under the cause of highest
priority, and otherwise changes nothing. In a slack whose release is not complete: a poll adds one tc to
XT_SLACK_TOTAL and to the counter of the highest asserted cause, or, with none asserted, of the cause that cleared
last while the release is counted; each RUNNING tile in crossing counts that tc under its idle cause. After 16 tc of
release GRID_RESUME ends the slack and keeps its length as the longest if it is. SLACK_OVERLONG logs a slack beyond
XT_SLACK_LIMIT once. Commands: checkpointSample, holdBegin, holdPoll, gridResume, slackOverlong. -/
def Obligations.HoldsAreSampledPolledAndReleased : Prop :=
  ∀ (s : State) (t : TileId),
    let thermal := s.power.clamp || s.power.dieThr || s.power.memThr
    let c := s.causes
    let top := fun (k : Nat) => if k ≥ 8 then 4 else if k ≥ 4 then 3 else if k ≥ 2 then 2 else if k = 1 then 1 else 0
    (∀ e ∈ [(F.XT_HOLD_STATUS_QUAY, 0), (F.XT_HOLD_STATUS_LINK, 1), (F.XT_HOLD_STATUS_REFRESH, 2), (F.XT_HOLD_STATUS_THERMAL, 3)],
      s.rdField e.1 0 0 = c / 2 ^ e.2 % 2) ∧
    (c / 8 = if thermal then 1 else 0) ∧ (s.hub.running = [] → c % 8 = 0) ∧
    (s.power.state = .active → s.rd F.XT_HOLD_STATUS_HOLDING = 0 →
      (s.spine % 64 = 48 → s.hub.sampleAt ≠ some s.spine →
        ∃ n, exec (.checkpointSample () () ()) s = .next n ∧ n.hub = { s.hub with sampled := c, sampleAt := some s.spine } ∧
        (∀ i < 4, n.rd (causeEvents i) = (s.rd (causeEvents i) + c / 2 ^ i % 2) % 2 ^ 16) ∧
        (∀ k < 24, n.rd F.Q_STAGE_SHORT_COUNT k =
          (s.rd F.Q_STAGE_SHORT_COUNT k + if s.quayMask.testBit k then 1 else 0) % 2 ^ F.Q_STAGE_SHORT_COUNT.width) ∧
        (c ≠ 0 → n.rd F.XT_SLACK_SOURCE_QMASK = s.quayMask ||| s.refreshMask ∧ n.rd F.XT_SLACK_SOURCE_FMASK = s.linkMask ∧
          n.rd F.XT_SLACK_SOURCE_CLAMP = s.power.clamp.toNat ∧
          n.rd F.XT_SLACK_SOURCE_THROTTLE = (s.power.dieThr || s.power.memThr).toNat) ∧
        n = { s with rf := n.rf, hub := n.hub }) ∧
      (s.spine % 64 ≠ 48 → exec (.checkpointSample () () ()) s = .next s) ∧
      (s.holdDue = false → exec .holdBegin s = .next s) ∧
      (s.holdDue = true → s.hub.sampled < 16 → ∃ n, exec .holdBegin s = .next n ∧ n.rd F.XT_HOLD_STATUS_HOLDING = 1 ∧
        n.rd F.XT_HOLD_STATUS_ATTR = top s.hub.sampled ∧
        n.hub = { s.hub with sampled := 0, slackTc := 0, relTc := 0, lastPoll := s.hub.sampled, overlong := false } ∧
        regsBut [F.XT_HOLD_STATUS_HOLDING.key 0 0, F.XT_HOLD_STATUS_ATTR.key 0 0] s n ∧
        n = { s with rf := n.rf, hub := n.hub })) ∧
    (s.rd F.XT_HOLD_STATUS_HOLDING = 1 →
      (s.hub.relTc < 16 → 1 ≤ s.hub.lastPoll → s.hub.lastPoll < 16 →
        let going := s.hub.relTc = 0 ∧ c ≠ 0
        let a := top (if going then c else s.hub.lastPoll)
        ∃ n, exec (.holdPoll () () ()) s = .next n ∧ n.rd F.XT_HOLD_STATUS_ATTR = a ∧
          n.rd F.XT_SLACK_TOTAL_TC = (s.rd F.XT_SLACK_TOTAL_TC + 1) % 2 ^ 64 ∧
          n.rd (causeTc a) = (s.rd (causeTc a) + 1) % 2 ^ 64 ∧
          n.hub = { s.hub with slackTc := s.hub.slackTc + 1, relTc := if going then 0 else s.hub.relTc + 1,
                               lastPoll := if going then c else s.hub.lastPoll } ∧
          (s.inCrossing t = true → s.tstate t = 1 →
            n.rd F.T_IDLE_TC t (slackIdle a - 1) = (s.rd F.T_IDLE_TC t (slackIdle a - 1) + 1) % 2 ^ 48) ∧
          n = { s with rf := n.rf, hub := n.hub }) ∧
      (s.hub.relTc = 16 → ∃ n, exec .gridResume s = .next n ∧ n.rd F.XT_HOLD_STATUS_HOLDING = 0 ∧
        n.rd F.XT_HOLD_STATUS_ATTR = 0 ∧
        n.rd F.XT_SLACK_LONGEST_TC = max (s.rd F.XT_SLACK_LONGEST_TC) (min s.hub.slackTc (2 ^ 32 - 1)) ∧
        n.hub = { s.hub with slackTc := 0, relTc := 0, lastPoll := 0, overlong := false } ∧
        n = { s with rf := n.rf, hub := n.hub }) ∧
      (s.hub.relTc ≠ 16 → exec .gridResume s = .next s) ∧
      (s.rd F.XT_SLACK_LIMIT_LIMIT ≠ 0 → s.rd F.XT_SLACK_LIMIT_LIMIT < s.hub.slackTc →
        (s.hub.overlong = true → exec .slackOverlong s = .next s) ∧
        (s.hub.overlong = false → ∃ n, exec .slackOverlong s = .next n ∧ logged1 s n 5 6 0x50 (s.hub.slackTc % 2 ^ 64) ∧
          n.hub = { s.hub with overlong := true } ∧ regsBut eventKeys s n ∧
          n = { s with rf := n.rf, hub := n.hub, fault := n.fault, ctl := n.ctl, pins := n.pins })))

/-- The lane's next instruction, its lane free and the code reporting nothing, starts: it holds the lane, its checks are
made, and the first of its rows is done. So an MZERO without pairs leaves +0, count 0 and no mark in its rows alone,
and MSPILL its base and interval. At its end the rows that are left are done, the lane is free, and the token returns
once no heavy instruction is left. The sieve's next instruction starts when the sieve is free and nothing earlier
still writes what it reads; at its end its record stands at OUT and no other byte has changed. A token of a domain
that is free beside those already granted is granted to its lowest tile that waits without a grant. While a slack
holds the tile in a crossing, nothing starts or ends. A refused commit halts its tile with OPERAND_CASE 0x0113.
Commands: sieveInstrStart, sieveInstrFinish, commitRefusedHalt, tokenGrant, matrixInstrStart, matrixInstrFinish. -/
def Obligations.MatrixAndSieveUnitsRunTheirQueues : Prop :=
  ∀ (s : State) (t : TileId) (lane : Lane) (m : MInstr) (v : SvInstr) (dom : Fin 12) (e : Ecc),
    let x := s.tile t
    let load := lane == .load
    let others := fun (n : State) => ∀ u, u ≠ t.val → n.tile u = s.tile u
    let begun := if load then { x with mq := x.mq.erase m, mload := some m }
      else { x with mq := x.mq.erase m, mstream := some m, mpos := 0, mseg := [] }
    (s.stands t = true → ∀ i ∈ [Instr.matrixInstrStart t lane e, .matrixInstrFinish t ⟨lane, e⟩, .sieveInstrFinish t],
      exec i s = .next s) ∧
    (s.stands t = false → x.laneBusy load = false → nextMat load x x.mq [] = some m →
      (∀ s1, (s.upTile t fun _ => begun).mBegin t m = .ok s1 → exec (.matrixInstrStart t lane .ok) s =
        .next (if load then s1 else s1.matRows t m .ok 1)) ∧
      (∀ acc rows, m.op = .zero acc rows false → acc + rows ≤ 64 →
        let inRows := fun r => acc ≤ r ∧ r < acc + rows
        ∃ n, exec (.matrixInstrStart t lane .ok) s = .next n ∧ n.tile t = begun ∧ others n ∧
          (∀ r < 64, n.rd F.CNT t r = (if inRows r then 0 else s.rd F.CNT t r) ∧
            (∀ c < 32, n.acc t r c = if inRows r then 0 else s.acc t r c) ∧
            ∀ f ∈ [F.T_MSKIP_MASK, F.T_MAUDIT_AUDIT], (n.rd f t).testBit r = (!decide (inRows r) && (s.rd f t).testBit r)) ∧
          regsBut (F.T_MSKIP_MASK.key t 0 :: F.T_MAUDIT_AUDIT.key t 0 :: (List.range 64).flatMap fun r =>
            F.CNT.key t r :: (List.range 32).map fun c => F.ACC.key t (32 * r + c)) s n ∧
          n = { s with rf := n.rf, tiles := n.tiles }) ∧
      (∀ iv, m.op = .spill iv → iv < 128 → bits m.r0 0 19 % 256 = 0 →
        ∃ n, exec (.matrixInstrStart t lane .ok) s = .next n ∧ n.rd F.T_MSPILL_CFG_BASE t = bits m.r0 0 19 ∧
          n.rd F.T_MSPILL_CFG_INTERVAL t = iv ∧ n.tile t = begun ∧ others n ∧
          regsBut [F.T_MSPILL_CFG_BASE.key t 0, F.T_MSPILL_CFG_INTERVAL.key t 0] s n ∧
          n = { s with rf := n.rf, tiles := n.tiles })) ∧
    (s.stands t = false →
      (∀ k, x.mstream = some k → exec (.matrixInstrFinish t ⟨.stream, e⟩) s =
        .next (((s.matRows t k e (k.op.places x.mseg - x.mpos)).upTile t fun y =>
          { y with mstream := none, mpos := 0, mseg := [] }).tokenCheck t)) ∧
      ((load = true ∧ x.mload ≠ none) ∨ (load = false ∧ ∃ k, x.mstream = some k ∧ k.op.places x.mseg ≤ x.mpos) →
        let y := if load then { x with mload := none } else { x with mstream := none, mpos := 0, mseg := [] }
        let heavy := (y.mload.toList ++ y.mstream.toList ++ y.mq).any fun m => m.op.heavy
        ∃ n, exec (.matrixInstrFinish t ⟨lane, e⟩) s = .next n ∧ n.tile t = y ∧ others n ∧
          n.rd F.T_MSTATUS_TOKEN t = (if heavy then s.rd F.T_MSTATUS_TOKEN t else 0) ∧
          n.rd F.PW_TOKEN_HELD_HELD 0 (domainOf t) = s.rd F.PW_TOKEN_HELD_HELD 0 (domainOf t) -
            (if heavy then 0 else s.rd F.T_MSTATUS_TOKEN t) ∧
          regsBut [F.T_MSTATUS_TOKEN.key t 0, F.PW_TOKEN_HELD_HELD.key 0 (domainOf t)] s n ∧
          n = { s with rf := n.rf, tiles := n.tiles }) ∧
      (x.laneBusy load = false → exec (.matrixInstrFinish t ⟨lane, e⟩) s = .next s) ∧
      (x.srun = none → (∃ r, x.sq = v :: r ∧ s.svBlocked t v = false ∧ (∃ o, s.svRun t v = .ok o)) →
        ∃ n, exec (.sieveInstrStart t .ok) s = .next n ∧ n.tile t = { x with srun := some v, sq := x.sq.tail } ∧ others n ∧
          n = { s with tiles := n.tiles }) ∧
      (∀ o, x.srun = some v → s.svRun t v = .ok o →
        ∃ n, exec (.sieveInstrFinish t) s = .next n ∧ n.tile t = { x with srun := none } ∧ others n ∧
          (∀ i < o.body.length, n.byte (spad t v.out + i) = o.body.getD i 0) ∧ memBut (spad t v.out) o.body.length s n ∧
          n.rd F.SV_HISTS_COUNT t = (s.rd F.SV_HISTS_COUNT t + if v.op ≤ 1 then 1 else 0) % 2 ^ 48 ∧
          n.rd F.SV_DRAWS_COUNT t = (s.rd F.SV_DRAWS_COUNT t + if v.op = 5 then 1 else 0) % 2 ^ 48 ∧
          n.roster = { s.roster with inflight := s.roster.inflight ++ o.commit.toList } ∧
          regsBut [F.SV_HISTS_COUNT.key t 0, F.SV_DRAWS_COUNT.key t 0, F.SV_NEGINF_COUNT.key t 0, F.SV_TRUNC_COUNT.key t 0,
            F.SV_TIE_COUNT.key t 0, F.SV_POSTED_COUNT.key t 0] s n ∧
          n = { s with rf := n.rf, tiles := n.tiles, mem := n.mem, roster := n.roster, free := n.free })) ∧
    (awf {} s.tiles = true → domainOf t = dom.val → x.wait = 6 → x.granted = false →
      (∀ u < t.val, domainOf u = dom.val → (s.tile u).wait = 6 → (s.tile u).granted = true) →
      let held := ((s.tokenWaiters dom).filter fun e => e.2.granted).length
      (s.poolOver dom held = false → exec (.tokenGrant dom) s = .next s) ∧
      (s.poolOver dom held = true →
        ∃ n, exec (.tokenGrant dom) s = .next n ∧ n.tile t = { x with granted := true } ∧ others n ∧
          n = { s with tiles := n.tiles })) ∧
    (∀ e, s.roster.refused.find? (fun e => e.1 == t.val) = some e → s.tstate t ≠ 4 → s.rd F.T_HALT_VALID t = 0 →
      ∃ n, exec (.commitRefusedHalt t) s = .next n ∧
        haltedWith { s with roster := { s.roster with refused := s.roster.refused.erase e } } n t 0x02 1 (e.2.1 % 2 ^ 19)
          0x0113 (e.2.2 % 2 ^ 64))

/-- SO_OP_ADD and SO_OP_SET of a ready landing core leave for the hub and stall the core; the answer of an accepted
operation ends the stall. In a hub cycle with no marks and nobody waiting: one add to an unbroken object allocated to
the source's partition raises COUNT by its value (below 2^32); one set by the owner makes COUNT 0 and TARGET its
value; an add and a set of one object in one cycle leave the add's value as COUNT, whichever came first; a tile's wait
whose target is reached is answered as met. Nothing else changes. Commands: soHubApply, soOpAdd, soOpSet, soOpAnswer. -/
def Obligations.HubOperationsReachAndChangeObjects : Prop :=
  ∀ (s : State) (core : CoreId) (obj : BitVec 13) (value : BitVec 32) (a : HubAns) (x y : HubOp) (part : Nat),
    let o := obj.toNat
    let count := s.rd F.SO_STATE_COUNT 0 o
    let only := fun (n : State) (c g : Nat) => n.rd F.SO_STATE_COUNT 0 o = c ∧ n.rd F.SO_STATE_TARGET 0 o = g ∧
      n.hub = { s.hub with inbox := [] } ∧ regsBut [F.SO_STATE_COUNT.key 0 o, F.SO_STATE_TARGET.key 0 o] s n ∧
      n = { s with rf := n.rf, hub := n.hub }
    (s.power.state = .active → s.coreReady core = true → ∀ i k, (i, k) ∈ [(Instr.soOpAdd core obj value, 1),
        (.soOpSet core obj value, 2)] →
      ∃ n, exec i s = .next n ∧ n.core core = { s.core core with soOp := true } ∧ (∀ u, u ≠ core.val → n.core u = s.core u) ∧
        n.hub = { s.hub with inbox := s.hub.inbox ++
          [⟨1, core, k, o, value.toNat, s.corePart core, s.rd F.L_STATUS_SUPER core == 1, 0, false⟩] } ∧
        n = { s with hub := n.hub, cores := n.cores }) ∧
    (s.hub.answers.find? (fun a => a.cls == 1 && a.unit == core.val && a.op != 3) = some a → s.isFenced 1 core = false →
      a.code = 0 →
      ∃ n, exec (.soOpAnswer core) s = .next n ∧ n.core core = { s.core core with soOp := false } ∧
        (∀ u, u ≠ core.val → n.core u = s.core u) ∧ n.hub = { s.hub with answers := s.hub.answers.erase a } ∧
        n = { s with hub := n.hub, cores := n.cores }) ∧
    (s.hub.waits = [] → s.hub.marks = [] → s.rd F.SO_CTL_ALLOC 0 o = 1 → s.rd F.SO_CTL_PART 0 o = part →
      s.rd F.SO_CTL_BROKEN 0 o = 0 →
      x = ⟨0, x.unit, 1, o, value.toNat, part, false, x.addr, false⟩ →
      y = ⟨0, y.unit, 2, o, y.val, part, false, y.addr, false⟩ →
      (s.hub.inbox = [x] → count + value.toNat < 2 ^ 32 → ∃ n, exec .soHubApply s = .next n ∧
        only n (count + value.toNat) (s.rd F.SO_STATE_TARGET 0 o)) ∧
      (s.rd F.SO_CTL_OWNER 0 o = y.unit → y.val < 2 ^ 32 →
        (s.hub.inbox = [y] → ∃ n, exec .soHubApply s = .next n ∧ only n 0 y.val) ∧
        (s.hub.inbox = [x, y] ∨ s.hub.inbox = [y, x] → x.unit ≠ y.unit →
          ∃ n, exec .soHubApply s = .next n ∧ only n value.toNat y.val)) ∧
      (s.hub.inbox = [{ x with op := 3 }] → s.rd F.SO_STATE_TARGET 0 o ≤ count → (s.tile x.unit).soWait = some (o, 0) →
        ∃ n, exec .soHubApply s = .next n ∧ n.tile x.unit = { s.tile x.unit with soWait := some (o, 1) } ∧
          (∀ v, v ≠ x.unit → n.tile v = s.tile v) ∧ n = { s with hub := { s.hub with inbox := [] }, tiles := n.tiles }))

/-- An acceptable request of a quay or an engine waits behind those before it; one for a slip that is off, for code, or of
another class is answered NO_CREDIT code 5, a bad size code 6. With one request waiting that fits and a record free,
the lowest free record opens with the slip, the class, the unit and START = HEAD + RSV, and RSV rises. A write of 32
or 64 aligned bytes inside its open credit lands at START plus its offset, each new unit counts in WRITTEN, LAST
closes the credit; no other byte changes. A closed credit at the front of its slip is appended: HEAD rises by its
bytes, RSV falls, the record is free. Commands: creditRequest, creditGrant, creditedWrite, creditAppend. -/
def Obligations.CreditsAreAskedGrantedWrittenAndAppended : Prop :=
  ∀ (s : State) (t : TileId) (slip : SlipId) (bytes : BitVec 20) (cls : BitVec 3) (unit : BitVec 5) (r : BitVec 4)
      (off : BitVec 20) (data : List (BitVec 8)) (last : Bool) (q : CredReq) (c : Nat),
    let x := s.tile t
    let others := fun (n : State) => ∀ u, u ≠ t.val → n.tile u = s.tile u
    let req : CredReq := ⟨slip, bytes.toNat, cls.toNat, unit.toNat⟩
    let size := s.slipSize t slip
    ((cls = 2 ∧ unit.toNat < 24) ∨ (cls = 5 ∧ unit.toNat < 12) → s.tstate t ≠ 4 →
      (size ≠ 0 → s.rd F.SLIP_ATTR_EXEC t slip = 0 → s.slipClass t slip = cls.toNat → bytes ≠ 0 → bytes.toNat % 64 = 0 →
        bytes.toNat ≤ size →
        ∃ n, exec (.creditRequest t slip bytes cls unit) s = .next n ∧ n.tile t = { x with creds := x.creds ++ [req] } ∧
          others n ∧ n = { s with tiles := n.tiles }) ∧
      (size = 0 ∨ s.rd F.SLIP_ATTR_EXEC t slip = 1 ∨ s.slipClass t slip ≠ cls.toNat →
        ∃ n, exec (.creditRequest t slip bytes cls unit) s = .next n ∧
          (n.tile t).refusal = some (cls.toNat * 4096 + unit.toNat, 5) ∧ (n.tile t).creds = x.creds ∧ n.mem = s.mem)) ∧
    (x.creds = [q] → (q.bytes : Int) ≤ s.slipFree t q.slip → s.freeRec t = some c → q.slip < 32 → q.cls = 2 → q.unit < 24 →
      q.bytes < 2 ^ 20 →
      ∃ n, exec (.creditGrant t) s = .next n ∧ n.rd F.T_CRED_A_STATE t c = 1 ∧ n.rd F.T_CRED_A_SLIP t c = q.slip ∧
        n.rd F.T_CRED_A_CLASS t c = q.cls ∧ n.rd F.T_CRED_A_UNIT t c = q.unit ∧ n.rd F.T_CRED_B_BYTES t c = q.bytes ∧
        n.rd F.T_CRED_B_WRITTEN t c = 0 ∧
        n.rd F.T_CRED_A_START t c = (s.slipHead t q.slip + s.rd F.SLIP_RSV_BYTES t q.slip) % 2 ^ 32 ∧
        n.rd F.SLIP_RSV_BYTES t q.slip = (s.rd F.SLIP_RSV_BYTES t q.slip + q.bytes) % 2 ^ F.SLIP_RSV_BYTES.width ∧
        n.rd F.SLIP_RSV_CREDITS t q.slip = (s.rd F.SLIP_RSV_CREDITS t q.slip + 1) % 2 ^ F.SLIP_RSV_CREDITS.width ∧
        (n.tile t).creds = [] ∧ (n.tile t).credOrd = x.credOrd ++ [c] ∧ others n ∧
        regsBut ([F.T_CRED_A_STATE, F.T_CRED_A_SLIP, F.T_CRED_A_CLASS, F.T_CRED_A_UNIT, F.T_CRED_A_START, F.T_CRED_B_BYTES,
          F.T_CRED_B_WRITTEN].map (fun f => f.key t c) ++ [F.SLIP_RSV_BYTES.key t q.slip, F.SLIP_RSV_CREDITS.key t q.slip]) s n ∧
        n = { s with rf := n.rf, tiles := n.tiles, quays := n.quays }) ∧
    (let sl := s.rd F.T_CRED_A_SLIP t r.toNat
      let start := s.rd F.T_CRED_A_START t r.toNat + off.toNat
      let a := spad t (s.rd F.SLIP_BASE_BASE t sl + start % s.slipSize t sl)
      let units := (List.range (data.length / 32)).map fun i => r.toNat * 65536 + off.toNat / 32 + i
      let fresh := units.filter fun k => !x.credDone.contains k
      let wrote := fun (n : State) => (∀ i < data.length, n.byte (a + i) = data.getD i 0) ∧ memBut a data.length s n ∧
        n.rd F.T_CRED_B_WRITTEN t r.toNat = (s.rd F.T_CRED_B_WRITTEN t r.toNat + 32 * fresh.length) % 2 ^ 20 ∧
        n.rd F.T_CRED_A_STATE t r.toNat = (if last then 2 else 1) ∧ n.tile t = { x with credDone := x.credDone ++ fresh } ∧
        others n ∧ regsBut [F.T_CRED_B_WRITTEN.key t r.toNat, F.T_CRED_A_STATE.key t r.toNat] s n
      s.tstate t ≠ 4 →
        (s.tstate t = 1 → s.inExec t (s.rd F.SLIP_BASE_BASE t sl + start % s.slipSize t sl) data.length = false) →
        s.credState t r.toNat = 1 → (data.length = 32 ∨ data.length = 64) →
        off.toNat % data.length = 0 → off.toNat + data.length ≤ s.rd F.T_CRED_B_BYTES t r.toNat →
        start < 2 ^ 32 → s.slipSize t sl % 64 = 0 → s.slipSize t sl ≠ 0 → s.rd F.T_CRED_A_START t r.toNat % 64 = 0 →
        (s.rd F.T_CRED_A_CLASS t r.toNat = cls.toNat → s.rd F.T_CRED_A_UNIT t r.toNat = unit.toNat → cls ≠ 4 →
          ∃ n, exec (.creditedWrite t r cls unit off data last) s = .next n ∧ wrote n ∧
            n = { s with rf := n.rf, tiles := n.tiles, mem := n.mem })) ∧
    (s.firstCred t slip = some c → s.credState t c = 2 →
      let b := s.rd F.T_CRED_B_BYTES t c
      ∃ n, exec (.creditAppend t slip) s = .next n ∧ n.slipHead t slip = (s.slipHead t slip + b) % 2 ^ 32 ∧
        n.rd F.SLIP_RSV_BYTES t slip = s.rd F.SLIP_RSV_BYTES t slip - b ∧
        n.rd F.SLIP_RSV_CREDITS t slip = s.rd F.SLIP_RSV_CREDITS t slip - 1 ∧ n.rd F.T_CRED_A_STATE t c = 0 ∧
        (n.tile t).credOrd = x.credOrd.filter (fun k => k != c) ∧ others n ∧
        regsBut [F.SLIP_HEAD_COUNT.key t slip, F.SLIP_RSV_BYTES.key t slip, F.SLIP_RSV_CREDITS.key t slip,
          F.T_CRED_A_STATE.key t c] s n ∧ n = { s with rf := n.rf, tiles := n.tiles }) ∧
    (s.firstCred t slip = none → exec (.creditAppend t slip) s = .next s)

/-- An access of a ready landing core to scratchpad of a tile that is not fenced, 8, 32 or 64 bytes and aligned, in
supervisor mode or by a task through one enabled window that allows it: a read returns the bytes to the core and
changes none; a write, the tile not RUNNING, leaves its bytes there and changes no other. A task without such a window
faults with WINDOW_BOUND and changes no byte; the host makes no such access, nor does the debug path while it is
disabled. DBG_GO with the debug path enabled begins the access, without it sets RESULT to WINDOW_BOUND; the access
ends with DONE, through a window of TASK 127, moving 8 bytes between DBG_DATA and scratchpad. A slip register is
written only in STOPPED or HALTED; a new SIZE also clears HEAD and TAIL. Commands: taskWindowAccess,
slipRegisterWrite, dbgGo, debugAccessComplete. -/
def Obligations.WindowAndDebugAccessesReachTheTile : Prop :=
  ∀ (s : State) (t : TileId) (core : CoreId) (task : BitVec 6) (off : BitVec 20) (size : Nat) (d : List (BitVec 8))
      (slip : SlipId) (value : BitVec 64),
    let a := spad t off.toNat
    let inPad := (size = 8 ∨ size = 32 ∨ size = 64) ∧ off.toNat % size = 0 ∧ off.toNat < 0x60000
    let others := fun (n : State) => ∀ u, u ≠ core.val → n.core u = s.core u
    let mode := [F.L_STATUS_SUPER.key core 0, F.L_STATUS_TASK.key core 0, F.L_STATUS_RUN.key core 0]
    (s.coreReady core = true → s.tstate t ≠ 4 → inPad → ∀ who ∈ [Accessor.super core, .task core task],
      let sup := if who = .super core then 1 else 0
      ((who = .super core ∨ s.winOk t task.toNat off.toNat size false = true) →
        ∃ n, exec (.taskWindowAccess t who off size none .ok) s = .next n ∧ n.rd F.L_STATUS_SUPER core = sup ∧
          n.core core = { s.core core with handler := false, rdata := s.bytes a size } ∧ others n ∧ regsBut mode s n ∧
          n = { s with rf := n.rf, cores := n.cores }) ∧
      (d.length = size → s.tstate t ≠ 1 → (who = .super core ∨ s.winOk t task.toNat off.toNat size true = true) →
        ∃ n, exec (.taskWindowAccess t who off size (some d) .ok) s = .next n ∧
          (∀ i < size, n.byte (a + i) = d.getD i 0) ∧ memBut a size s n ∧ regsBut mode s n ∧
          n.core core = { s.core core with handler := false } ∧ others n ∧
          n = { s with rf := n.rf, cores := n.cores, mem := n.mem }) ∧
      (who = .task core task → s.winOk t task.toNat off.toNat size d.isEmpty.not = false → s.rd F.L_FAULT_VALID core = 0 →
        ∃ n, exec (.taskWindowAccess t who off size (if d.isEmpty then none else some d) .ok) s = .next n ∧
          n.rd F.L_FAULT_VALID core = 1 ∧ n.rd F.L_FAULT_CODE core = 3 ∧ n.rd F.L_FAULT_ADDR_ADDR core = winAddr t off.toNat ∧
          n.rd F.L_FAULT_SUPER core = 0 ∧ n.rd F.L_STATUS_SUPER core = 1 ∧ n.mem = s.mem ∧ n.tiles = s.tiles)) ∧
    (exec (.taskWindowAccess t .host off size (some d) .ok) s = .next s ∧
      (s.boot.debug = false → ∃ n, exec (.taskWindowAccess t .debug off size (some d) .ok) s = .next n ∧
        regsBut [F.DBG_ADDR_ADDR.key 0 0, F.DBG_CTL_WRITE.key 0 0, F.DBG_DATA_DATA.key 0 0, F.DBG_CTL_RESULT.key 0 0] s n ∧
        n = { s with rf := n.rf })) ∧
    (s.rd F.DBG_CTL_DONE = 1 →
      ∃ n, exec .dbgGo s = .next n ∧ n.rd F.DBG_CTL_DONE = (if s.boot.debug then 0 else 1) ∧
        n.rd F.DBG_CTL_RESULT = (if s.boot.debug then s.rd F.DBG_CTL_RESULT else 3) ∧
        regsBut [F.DBG_CTL_DONE.key 0 0, F.DBG_CTL_RESULT.key 0 0] s n ∧ n = { s with rf := n.rf }) ∧
    (s.rd F.DBG_CTL_DONE = 0 → s.rd F.DBG_ADDR_ADDR = a → off.toNat < 0x60000 → off.toNat % 8 = 0 → s.tstate t ≠ 4 →
      (s.rd F.DBG_CTL_WRITE = 0 → s.winOk t 127 off.toNat 8 false = true →
        ∃ n, exec (.debugAccessComplete .ok) s = .next n ∧ n.rd F.DBG_CTL_DONE = 1 ∧ n.rd F.DBG_CTL_RESULT = 0 ∧
          n.rd F.DBG_DATA_DATA = s.ldn a 8 ∧
          regsBut [F.DBG_CTL_DONE.key 0 0, F.DBG_CTL_RESULT.key 0 0, F.DBG_DATA_DATA.key 0 0] s n ∧ n = { s with rf := n.rf }) ∧
      (s.rd F.DBG_CTL_WRITE = 1 → s.winOk t 127 off.toNat 8 true = true → s.tstate t ≠ 1 →
        ∃ n, exec (.debugAccessComplete .ok) s = .next n ∧ n.rd F.DBG_CTL_DONE = 1 ∧ n.rd F.DBG_CTL_RESULT = 0 ∧
          (∀ i < 8, n.byte (a + i) = BitVec.ofNat 8 (s.rd F.DBG_DATA_DATA / 256 ^ i)) ∧ memBut a 8 s n ∧
          regsBut [F.DBG_CTL_DONE.key 0 0, F.DBG_CTL_RESULT.key 0 0] s n ∧ n = { s with rf := n.rf, mem := n.mem })) ∧
    (s.tstate t = 0 ∨ s.tstate t = 2 → s.rd F.SLIP_RSV_CREDITS t slip = 0 → (s.tile t).creds = [] →
      s.slipSize t slip ≠ value.toNat % 2 ^ 19 / 64 * 64 →
      ∃ n, exec (.slipRegisterWrite t slip 1 value) s = .next n ∧ n.slipSize t slip = value.toNat % 2 ^ 19 / 64 * 64 ∧
        n.slipHead t slip = 0 ∧ n.slipTail t slip = 0 ∧
        regsBut [F.SLIP_SIZE_SIZE.key t slip, F.SLIP_HEAD_COUNT.key t slip, F.SLIP_TAIL_COUNT.key t slip] s n ∧
        n = { s with rf := n.rf }) ∧
    (s.tstate t = 1 ∨ s.tstate t = 3 → ∀ reg : BitVec 3,
      ∃ n, exec (.slipRegisterWrite t slip reg value) s = .next n ∧ (n.tile t).refusal = some (0x6000, 1) ∧
        n = { s with tiles := n.tiles })

/-- With the grid clock running and the tile not fenced, a scrub read of a bank moves its pointer one 32-byte word on,
wrapping after 768; with a corrected word it also counts in T_ECC_CORR and the correction window, T_ECC_LAST takes the
word's offset, syndrome and reader 5, and a write-back of the corrected word waits; with one it cannot correct it
counts in T_ECC_UNCORR, fills T_ECC_LAST and logs the offset. ECC_WRITEBACK, read without an error, makes the oldest
one. No byte of memory changes. With the clock stopped or the tile fenced the scrub does nothing. Commands:
eccWriteback, patrolScrubRead. -/
def Obligations.EccReportsAreRecordedAndScrubsAdvance : Prop :=
  ∀ (s : State) (t : TileId) (bank : BitVec 4) (w b : Nat) (ecc : Ecc),
    let x := s.tile t
    let p := aget 0 x.scrub bank.toNat
    let off := 0x6000 * bank.toNat + 32 * p + 8 * (w % 4)
    let others := fun (n : State) => ∀ u, u ≠ t.val → n.tile u = s.tile u
    let last := [F.T_ECC_LAST_OFFSET, F.T_ECC_LAST_SYNDROME, F.T_ECC_LAST_READER, F.T_ECC_LAST_UNCORR,
      F.T_ECC_LAST_VALID].map fun f => f.key t 0
    (x.eccWb = [] → exec (.eccWriteback ⟨t, ecc⟩) s = .next s) ∧
    (∀ e r, x.eccWb = e :: r → ∃ n, exec (.eccWriteback ⟨t, .ok⟩) s = .next n ∧ n.tile t = { x with eccWb := r } ∧ others n ∧
      (∀ a, n.byte a = s.byte a) ∧ n = { s with tiles := n.tiles, mem := n.mem }) ∧
    (s.power.state ≠ .active ∨ s.tstate t = 4 → exec (.patrolScrubRead t bank ecc) s = .next s) ∧
    (s.power.state = .active → s.tstate t ≠ 4 → p < 768 →
      (∃ n, exec (.patrolScrubRead t bank .ok) s = .next n ∧
        n.tile t = { x with scrub := aput 0 x.scrub bank.toNat ((p + 1) % 768) } ∧ others n ∧ n = { s with tiles := n.tiles }) ∧
      (∃ n, exec (.patrolScrubRead t bank (.uncorrectable w b)) s = .next n ∧
        n.tile t = { x with scrub := aput 0 x.scrub bank.toNat ((p + 1) % 768) } ∧ others n ∧
        n.rd F.T_ECC_UNCORR_WORDS t = (s.rd F.T_ECC_UNCORR_WORDS t + 1) % 2 ^ F.T_ECC_UNCORR_WORDS.width ∧
        n.rd F.T_ECC_LAST_OFFSET t = off ∧ n.rd F.T_ECC_LAST_SYNDROME t = s.syndrome false 256 72 (.uncorrectable w b) ∧
        n.rd F.T_ECC_LAST_READER t = 5 ∧ n.rd F.T_ECC_LAST_UNCORR t = 1 ∧ n.rd F.T_ECC_LAST_VALID t = 1 ∧
        logged1 s n 1 0 1 off ∧ regsBut (F.T_ECC_UNCORR_WORDS.key t 0 :: last ++ eventKeys) s n ∧ n.mem = s.mem) ∧
      (∃ n, exec (.patrolScrubRead t bank (.corrected w b)) s = .next n ∧
        n.tile t = { x with scrub := aput 0 x.scrub bank.toNat ((p + 1) % 768),
                            eccWb := x.eccWb ++ [(off, s.ldn (spad t off) 8)] } ∧ others n ∧
        n.rd F.T_ECC_CORR_WORDS t = (s.rd F.T_ECC_CORR_WORDS t + 1) % 2 ^ F.T_ECC_CORR_WORDS.width ∧
        n.rd F.T_ECC_LAST_OFFSET t = off ∧ n.rd F.T_ECC_LAST_SYNDROME t = s.syndrome false 256 72 (.corrected w b) ∧
        n.rd F.T_ECC_LAST_READER t = 5 ∧ n.rd F.T_ECC_LAST_UNCORR t = 0 ∧ n.rd F.T_ECC_LAST_VALID t = 1 ∧
        n.fault = { s.fault with corr := aadd s.fault.corr t 1 } ∧
        regsBut (F.T_ECC_CORR_WORDS.key t 0 :: last) s n ∧ n = { s with rf := n.rf, tiles := n.tiles, fault := n.fault }))

/-- A read of XT_SLACK_LONGEST, T_ECC_LAST and MF_CARRY_MAX (of a tile that is not fenced), Q_WAB_MAX, Q_ECC_LAST,
L_ECC_LAST clears its RC fields and changes nothing else; a read of L_FAULT returns its fields and clears VALID. A
read of FT_EVQ_B removes the head event. L_RNG_DATA returns the next free 64 bits. A write by a ready core in
supervisor mode stores an RW field as wide as it is (XT_SLACK_LIMIT) and changes no RO field (XT_SLACK_TOTAL); with no
message pending the host clears the W1C bits of CP_EVENTS that it writes as 1. Commands: lRngDataRead, ftEvqBRead,
xtSlackLongestRead, tEccLastRead, mfCarryMaxRead, qWabMaxRead, qEccLastRead, lFaultRead, lEccLastRead, registerWrite. -/
def Obligations.ReadsClearAndWritesStore : Prop :=
  ∀ (s : State) (t : TileId) (q : QuayId) (core : CoreId) (value : BitVec 256),
    let mode := [F.L_STATUS_SUPER.key core 0, F.L_STATUS_TASK.key core 0, F.L_STATUS_RUN.key core 0]
    let others := fun (n : State) => ∀ u, u ≠ core.val → n.core u = s.core u
    (∀ c f u, (c, f, u) ∈ [(Instr.xtSlackLongestRead, F.XT_SLACK_LONGEST_TC, 0),
        (.qEccLastRead q, F.Q_ECC_LAST_VALID, q.val), (.lEccLastRead, F.L_ECC_LAST_VALID, 0)] ∨
        s.tstate t ≠ 4 ∧ (c, f, u) ∈ [(Instr.tEccLastRead t, F.T_ECC_LAST_VALID, t.val),
          (.mfCarryMaxRead t, F.MF_CARRY_MAX_COUNT, t.val)] →
      ∃ n, exec c s = .next n ∧ n.rd f u = 0 ∧ regsBut [f.key u 0] s n ∧ n = { s with rf := n.rf }) ∧
    (∃ n, exec (.qWabMaxRead q) s = .next n ∧ n.rd F.Q_WAB_MAX_BLOCKS q = 0 ∧ n.rd F.Q_WAB_MAX_FULL q = 0 ∧
      regsBut [F.Q_WAB_MAX_BLOCKS.key q 0, F.Q_WAB_MAX_FULL.key q 0] s n ∧ n = { s with rf := n.rf }) ∧
    (s.isFenced 1 core = false →
      ∃ n, exec (.lFaultRead core) s = .next n ∧ n.rd F.L_FAULT_VALID core = 0 ∧
        n.core core = { s.core core with rdata := leBytes (s.reg [F.L_FAULT_CODE, F.L_FAULT_TASK, F.L_FAULT_SUPER,
          F.L_FAULT_MORE, F.L_FAULT_DETAIL, F.L_FAULT_VALID] core) 8 } ∧
        others n ∧ regsBut [F.L_FAULT_VALID.key core 0] s n ∧ n = { s with rf := n.rf, cores := n.cores }) ∧
    exec .ftEvqBRead s = .next { s with fault := { s.fault with events := s.fault.events.tail } } ∧
    (s.coreReady core = true →
      (∃ n, exec (.lRngDataRead core) s = .next n ∧ others n ∧
        n.core core = { s.core core with rdata := leBytes (Config.rng s.free).toNat 8 } ∧
        n = { s with cores := n.cores, free := s.free + 1 }) ∧
      (∃ n, exec (.registerWrite (.super core) 0x380000002010 value) s = .next n ∧
        n.rd F.XT_SLACK_LIMIT_LIMIT = value.toNat % 2 ^ 32 ∧ n.rd F.L_STATUS_SUPER core = 1 ∧
        n.core core = { s.core core with handler := false } ∧ others n ∧
        regsBut (F.XT_SLACK_LIMIT_LIMIT.key 0 0 :: mode) s n ∧ n = { s with rf := n.rf, cores := n.cores }) ∧
      (∃ n, exec (.registerWrite (.super core) 0x380000002018 value) s = .next n ∧
        n.rd F.XT_SLACK_TOTAL_TC = s.rd F.XT_SLACK_TOTAL_TC ∧ n.rd F.L_STATUS_SUPER core = 1 ∧
        n.core core = { s.core core with handler := false } ∧ others n ∧ regsBut mode s n ∧
        n = { s with rf := n.rf, cores := n.cores })) ∧
    (s.barUp = true → ∀ f ∈ [F.CP_EVENTS_DONE, F.CP_EVENTS_STATE, F.CP_EVENTS_FAULT, F.CP_EVENTS_GRANT, F.CP_EVENTS_REJECT],
      (∀ v, s.rd F.MSIX_PEND = 0 →
        ∃ n, exec (.registerWrite .host 0x28 v) s = .next n ∧
          n.rd f = (if v.getLsbD f.lo then 0 else s.rd f) ∧
          regsBut ([F.CP_EVENTS_DONE, F.CP_EVENTS_STATE, F.CP_EVENTS_FAULT, F.CP_EVENTS_GRANT,
            F.CP_EVENTS_REJECT].map fun g => g.key 0 0) s n ∧ n = { s with rf := n.rf }))

/-- MF_DESCRIPTOR_START on a free lane of an engine that has not halted, tile not fenced, takes the oldest posted
descriptor with its 64 bytes: one with no case runs from output HEAD on; one with a case of R281 halts a RUNNING tile
with SLOT 3, the case's REASON, DETAIL and AUX, and the lane is empty. MF_SAMPLING_READ_RETURN with no error, no
regulator in its way and no write of its own before it at a quay that serves counts the read. MF_SEED_COMPLETE with
all reads in and no failing check puts the records, (id, seed number) pairs with FANOUT padding, at HEAD of the output
slip, advances HEAD by 8 bytes each, counts records, pads and drawn bits, and goes to the next seed; no other byte
changes. MF_DESCRIPTOR_COMPLETE of a finished descriptor writes STATUS, frees the lane and sends its add to DONEOBJ
where DONE_EN is set. Commands: mfDescriptorStart, mfSeedComplete, mfSamplingReadReturn, mfDescriptorComplete. -/
def Obligations.SamplingDescriptorsRunSeedBySeed : Prop :=
  ∀ (s : State) (t : TileId) (d : MfDesc) (r : List MfDesc),
    let x := s.tile t
    let others := fun (n : State) => ∀ u, u ≠ t.val → n.tile u = s.tile u
    let e := { d with body := s.bytes (spad t d.off) 64 }
    (x.manHalt = false → s.tstate t ≠ 4 → (x.sampRun = none → x.sampQ = d :: r →
        (∀ o, x.manRun = some o → o.outSlip ≠ e.outSlip) →
        (s.mfCase t e = none → s.badSeed t e = none →
          ∃ n, exec (.mfDescriptorStart t .sampler .ok) s = .next n ∧ others n ∧
            n.tile t = { x with sampQ := r, sampRun := some { e with outBase := e.outSlip.elim 0 (s.slipHead t), draw := s.free } } ∧
            n = { s with tiles := n.tiles, free := s.free + 1 }) ∧
        (∀ c, s.mfCase t e = some c → d.kind = 0 → s.tstate t = 1 → s.rd F.T_HALT_VALID t = 0 → d.addr < 2 ^ 19 →
          ∃ n, exec (.mfDescriptorStart t .sampler .ok) s = .next n ∧
            haltedWith s n t c.reason 3 d.addr c.detail c.aux ∧ (n.tile t).sampRun = none ∧ (n.tile t).sampQ = [])) ∧
      (x.manRun = none → x.manQ = d :: r → (∀ o, x.sampRun = some o → o.outSlip ≠ e.outSlip) → s.mfCase t e = none →
        ∃ n, exec (.mfDescriptorStart t .manifest .ok) s = .next n ∧ others n ∧
          n.tile t = { x with manQ := r, manRun := some { e with outBase := e.outSlip.elim 0 (s.slipHead t), draw := s.free } } ∧
          n = { s with tiles := n.tiles })) ∧
    (x.sampRun = some d → d.seed < d.count → (d.seed = 0 → s.mfReady t d = true ∧ s.badSeed t d = none) →
      (∀ a q p, ((s.mfReads t d).1 ++ (s.mfReads t d).2)[d.reads]? = some a → s.gmap a = some (q, p) →
        s.polices (s.tilePartN t) false = false → s.servesRead a 64 3 t = true →
        (s.quay q).edcBad = false →
        ∃ n, exec (.mfSamplingReadReturn t .ok) s = .next n ∧ others n ∧ n.quay q = { s.quay q with retries := 0 } ∧
          (∀ v, v ≠ q → n.quay v = s.quay v) ∧
          n.tile t = { x with sampRun := some { d with reads := d.reads + 1 } } ∧
          n.rd F.MF_SAMP_READS_READS t =
            (s.rd F.MF_SAMP_READS_READS t + if d.reads < (s.mfReads t d).1.length then 0 else 1) % 2 ^ 48 ∧
          n.rd F.Q_RD_BYTES_BYTES q = (s.rd F.Q_RD_BYTES_BYTES q + 64) % 2 ^ F.Q_RD_BYTES_BYTES.width ∧
          regsBut [F.MF_SAMP_READS_READS.key t 0, F.Q_RD_BYTES_BYTES.key q 0, F.Q_RING_BYTES_BYTES.key q 0,
            F.PT_ACC_QBYTES_BYTES.key 0 (64 * s.chargeTo (s.tilePartN t) + q)] s n ∧
          n = { s with rf := n.rf, tiles := n.tiles, quays := n.quays,
                       power := { s.power with weights := n.power.weights } }) ∧
      (∀ lo ps k ids, (s.mfReads t d).1.length + (s.mfReads t d).2.length ≤ d.reads → s.mfTake t d = .ok (lo, ps, k) →
        s.mfIds t d lo ps = .ok ids →
        let pads := if (d.at 4 1).testBit 2 then d.fan - ids.length else 0
        let recs := (ids ++ List.replicate pads nullId).flatMap fun v => leBytes v 4 ++ leBytes d.seed 4
        let o := d.outSlip.getD 0
        recs.length ≤ s.slipSize t o → 0 < s.slipSize t o → s.slipHead t o + recs.length ≤ 2 ^ 32 →
        ∃ n, exec (.mfSeedComplete ⟨t, .ok⟩) s = .next n ∧ others n ∧
          n.tile t = { x with sampRun := some { d with seed := d.seed + 1, reads := 0, draw := s.free } } ∧
          n.slipBytes t o (s.slipHead t o) recs.length = recs ∧ memBut (spad t (s.rd F.SLIP_BASE_BASE t o)) (s.slipSize t o) s n ∧
          n.slipHead t o = (s.slipHead t o + recs.length) % 2 ^ 32 ∧
          n.rd F.MF_SAMP_RECORDS_RECORDS t = (s.rd F.MF_SAMP_RECORDS_RECORDS t + (ids.length + pads)) % 2 ^ 48 ∧
          n.rd F.MF_SAMP_PADS_RECORDS t = (s.rd F.MF_SAMP_PADS_RECORDS t + pads) % 2 ^ 48 ∧
          n.rd F.T_RNG_DRAWN_MF_BITS t = (s.rd F.T_RNG_DRAWN_MF_BITS t + 32 * k) % 2 ^ F.T_RNG_DRAWN_MF_BITS.width ∧
          regsBut [F.SLIP_HEAD_COUNT.key t o, F.MF_SAMP_RECORDS_RECORDS.key t 0, F.MF_SAMP_PADS_RECORDS.key t 0,
            F.T_RNG_DRAWN_MF_BITS.key t 0] s n ∧
          n = { s with rf := n.rf, tiles := n.tiles, mem := n.mem, free := s.free + 1 })) ∧
    (x.sampRun = some d → d.dead = false → s.mfDone t d = true → d.kind = 0 → s.power.state = .active →
      ∃ n, exec (.mfDescriptorComplete t .sampler) s = .next n ∧ others n ∧ n.tile t = { x with sampRun := none } ∧
        n.ldn (spad t (d.off + 0x38)) 8 = d.count % 2 ^ 32 + 2 ^ 32 * (d.pend.length % 2 ^ 24) + 2 ^ 56 * min d.run 127 + 2 ^ 63 ∧
        memBut (spad t (d.off + 0x38)) 8 s n ∧
        n.hub = { s.hub with inbox := s.hub.inbox ++
          if d.doneEn then [⟨3, t, 1, d.doneObj, 1, s.tilePartN t, false, d.addr, true⟩] else [] } ∧
        n = { s with tiles := n.tiles, mem := n.mem, hub := n.hub })

/-- MF_RUN_SLOTTING of an MFPOST whose input is there and whose output has space, no check failing and no use of its
crossing open, gives every destination its lowest slots in order and carries what finds none: MF_CARRY is the carry
and run 1, and the engine arrives at the crossing's barrier. MF_RUN_END after the run's crossing adds the carry to
MF_CARRIED, keeps its maximum, writes STATUS without its bit 63, and sends whether requests are carried; a carry above
CARRY_BOUND halts the tile with CARRY_BOUND; an engine with no descriptor reports none. CARRY_REPORT enters the report
in the use. CARRY_RUN_START before the last report does nothing; with carry the next run is called and awaits its
engines and quays; with none the use is over. Commands: mfRunSlotting, mfRunEnd, carryReport, carryRunStart. -/
def Obligations.ManifestUsesRunAndCarryOver : Prop :=
  ∀ (s : State) (t : TileId) (part : PartId) (c : BitVec 8) (d : MfDesc) (u : CarryUse) (b : Nat) (r : Nat × Nat × Nat × Bool)
      (rest : List (Nat × Nat × Nat × Bool)),
    let x := s.tile t
    let others := fun (n : State) => ∀ u, u ≠ t.val → n.tile u = s.tile u
    let p := s.rd F.XT_RCFG_PART t
    let reqs := s.mfRequests t d
    let nulls := (reqs.filter fun e => e.2 == nullId).map (·.1)
    let cut := s.mfAssign t d 1 (s.mfSlots t d.mnum) (reqs.filter fun e => e.2 != nullId) [] []
    (x.manRun = some d → d.dead = false → s.mfDue t = none → d.kind = 1 → d.run = 0 → (∀ u ∈ s.hub.uses, u.part = p → u.num ≠ s.mfCross t d) →
      s.mfReady t d = true → s.mfFirst t d = none → s.barOf p (s.mfCross t d) = some b →
      s.rd F.XT_BAR_ARRIVED 0 b + 1 ≠ s.barExpect b → s.power.state = .active →
      ∃ n, exec (.mfRunSlotting ⟨t, .ok⟩) s = .next n ∧ others n ∧
        (n.tile t).manRun = some { d with run := 1, pend := cut.2, slots := cut.1, done := d.done ++ nulls } ∧
        n.rd F.MF_CARRY_COUNT t = cut.2.length % 2 ^ 32 ∧ n.rd F.MF_CARRY_RUN t = 1 ∧
        n.rd F.XT_BAR_ARRIVED 0 b = (s.rd F.XT_BAR_ARRIVED 0 b + 1) % 2 ^ F.XT_BAR_ARRIVED.width ∧
        n.rd F.MF_REQS_REQUESTS t = (s.rd F.MF_REQS_REQUESTS t + nulls.length) % 2 ^ 48 ∧
        regsBut [F.MF_CARRY_COUNT.key t 0, F.MF_CARRY_RUN.key t 0, F.XT_BAR_ARRIVED.key 0 b, F.MF_REQS_REQUESTS.key t 0,
          F.SLIP_HEAD_COUNT.key t (d.outSlip.getD 0)] s n ∧
        n = { s with rf := n.rf, mem := n.mem, tiles := n.tiles, quays := n.quays }) ∧
    (s.hub.uses = [u] → u.part = p → u.expect = 0 → t.val ∈ u.engines → t.val ∉ u.ended →
      (∀ y ∈ s.hub.running ++ s.hub.starting, y.part = p → y.num ≠ u.num) →
      let hub := fun (carry : Bool) => { s.hub with uses := [{ u with ended := u.ended ++ [t.val] }], reports := s.hub.reports ++ [(t.val, p, u.num, carry)] }
      let runs := (s.rd F.MF_CARRY_RUNS_RUNS t + if 1 < u.run then 1 else 0) % 2 ^ 48
      (x.manRun = none →
        ∃ n, exec (.mfRunEnd t) s = .next n ∧ n.hub = hub false ∧ n.rd F.MF_CARRY_RUNS_RUNS t = runs ∧
          regsBut [F.MF_CARRY_RUNS_RUNS.key t 0] s n ∧ n = { s with rf := n.rf, hub := n.hub }) ∧
      (x.manRun = some d → d.kind = 1 → d.dead = false → 0 < d.run → s.mfCross t d = u.num →
        (d.pend.length ≤ s.rd F.MF_MT_BOUND_CARRY_BOUND t d.mnum → (d.run = 255 → d.pend = []) →
          ∃ n, exec (.mfRunEnd t) s = .next n ∧ n.hub = hub (decide (0 < d.pend.length)) ∧ n.tile t = x ∧ others n ∧
            n.rd F.MF_CARRY_RUNS_RUNS t = runs ∧
            n.rd F.MF_CARRIED_REQUESTS t = (s.rd F.MF_CARRIED_REQUESTS t + d.pend.length) % 2 ^ 48 ∧
            n.rd F.MF_CARRY_MAX_COUNT t = max d.pend.length (s.rd F.MF_CARRY_MAX_COUNT t) % 2 ^ 32 ∧
            n.ldn (spad t (d.off + 0x38)) 8 =
              d.done.length % 2 ^ 32 + 2 ^ 32 * (d.pend.length % 2 ^ 24) + 2 ^ 56 * min d.run 127 ∧
            memBut (spad t (d.off + 0x38)) 8 s n ∧
            regsBut [F.MF_CARRY_RUNS_RUNS.key t 0, F.MF_CARRIED_REQUESTS.key t 0, F.MF_CARRY_MAX_COUNT.key t 0] s n ∧
            n = { s with rf := n.rf, mem := n.mem, tiles := n.tiles, hub := n.hub }) ∧
        (s.rd F.MF_MT_BOUND_CARRY_BOUND t d.mnum < d.pend.length → s.tstate t = 1 → s.rd F.T_HALT_VALID t = 0 →
          ∃ n, exec (.mfRunEnd t) s = .next n ∧ n.tstate t = 2 ∧ n.rd F.T_HALT_REASON t = 0x0E ∧
            n.rd F.T_HALT_AUX_AUX t = d.pend.length % 2 ^ 64 ∧ n.rd F.T_HALT_SLOT t = 3))) ∧
    (s.hub.reports = r :: rest → r.1 = t.val → s.hub.uses = [u] → u.part = r.2.1 → u.num = r.2.2.1 →
      let v := { u with reported := u.reported ++ [t.val], any := u.any || r.2.2.2 }
      exec (.carryReport t) s = .next { s with hub := { s.hub with reports := rest, uses := [v] } }) ∧
    (s.hub.uses = [u] → u.part = part.val → u.num = c.toNat →
      (u.reported.length < u.engines.length → exec (.carryRunStart part c) s = .next s) ∧
      (u.engines.length ≤ u.reported.length → u.any = true → s.barOf part c.toNat = some b →
        exec (.carryRunStart part c) s = .next { s with hub := { s.hub with uses := [⟨u.part, u.num, u.engines, u.run + 1,
          u.engines.length + (s.rd F.XT_BAR_EXPECT 0 b - 2 * u.engines.length), [], [], [], false⟩] } }) ∧
      (u.engines.length ≤ u.reported.length → u.any = false →
        (∀ v ∈ u.engines, ∀ o, (s.tile v).manRun = some o → o.dead = false) →
        ∃ n, exec (.carryRunStart part c) s = .next n ∧ (∀ v, n.tile v = s.tile v) ∧
          n = { s with hub := { s.hub with uses := [] }, tiles := n.tiles }))

/-- At a quay that is not fenced: the first post with room in its template is accepted as a use, or with a case of R319
leaves a failed use and the case for its tile, which halts with it once its word has issued; QUAY_FETCH_START starts
the waiting use of a template, or a STATIC template's next, unless a running timetable still awaits others;
GDDR7_ACCESS_COMPLETE stages the next 64 B of the first use that has flits left and room, else completes the oldest
ring read, where the device serves it, counting the bytes. QUAY_PUSH_START asks the tile for the first chunk's or
segment's credit, or on a reserved field ends the push and halts the tile. PUSH_CHUNK_DONE, its rows readable now, its
writes accepted and no regulator in its way, leaves the bytes at START of the credit, closes it and counts them, then
asks for the next chunk, or ends the push with its add to DONEOBJ. Commands: quayDescriptorAccept, quayFetchStart,
gddr7AccessComplete, quayPushStart, pushChunkDone. -/
def Obligations.QuaysStreamAndPush : Prop :=
  ∀ (s : State) (q : QuayId) (tpl : BitVec 8) (p : QPost) (l : List QPost) (u : Use) (r : QReq) (m : List QReq) (x : Push)
      (c k : Nat),
    let y := s.quay q
    let others := fun (n : State) => ∀ v, v ≠ q.val → n.quay v = s.quay v
    let t := p.tile
    let use := fun (bad : Bool) => Use.mk (byteAt p.body 1) (leAt p.body 8 6)
      (if leAt p.body 0x10 5 = 0 then s.tplAt q (byteAt p.body 1) 0x18 5 else leAt p.body 0x10 5) bad
      (y.owed.contains (byteAt p.body 1)) false 0 [] 0
    let accepted := fun (n : State) (bad : Bool) (f : Option (Nat × Nat × Nat)) => others n ∧
      n.quay q = { y with posts := l, uses := y.uses ++ [use bad], owed := dropFirst (fun z => z == byteAt p.body 1) y.owed } ∧
      n.tile t = { s.tile t with qpost := (s.tile t).qpost.map fun _ => true, qfail := f } ∧
      (∀ v, v ≠ t → n.tile v = s.tile v) ∧ n = { s with quays := n.quays, tiles := n.tiles }
    let only := fun (n : State) => others n ∧ n = { s with quays := n.quays }
    s.quayFenced q = false → t < 3072 → c < 16 →
    (y.posts = p :: l → s.tplRoom q (byteAt p.body 1) = true →
      (s.timedCase q p.body = none → ∃ n, exec (.quayDescriptorAccept q) s = .next n ∧ accepted n false none) ∧
      (∀ e, s.timedCase q p.body = some e →
        ∃ n, exec (.quayDescriptorAccept q) s = .next n ∧ accepted n true (some (e.reason, e.detail, e.aux)))) ∧
    (y.uses = [u] → u.tpl = tpl.toNat → u.started = false → u.failed = false → u.flits = [] → u.run = true ∨ y.owed = [] →
      ∃ n, exec (.quayFetchStart q tpl) s = .next n ∧ n.quay q = { y with uses := [{ u with started := true }] } ∧ only n) ∧
    (y.uses = [] → s.tplValid q tpl.toNat = true → s.tplStatic q tpl.toNat = true → y.owed = [] ∨ tpl.toNat ∈ y.owed →
      ∃ n, exec (.quayFetchStart q tpl) s = .next n ∧ only n ∧ n.quay q = { y with
        uses := [⟨tpl.toNat, s.tplAt q tpl.toNat 0x10 6, s.tplAt q tpl.toNat 0x18 5, false, y.owed.contains tpl.toNat, true, 0, [], 0⟩],
        owed := dropFirst (fun z => z == tpl.toNat) y.owed }) ∧
    (y.uses = [u] → s.stagingUse q = some u → s.serves q (if u.run then 2 else 4) = true → y.edcBad = false →
      ∃ n, exec (.gddr7AccessComplete q .ok) s = .next n ∧ others n ∧ n.quay q = { y with retries := 0, uses :=
          [{ u with next := u.next + 1, flits := u.flits ++ [(s.gldn (s.useAddr q u) 64, none)] }] } ∧
        n.rd F.Q_TIMED_BYTES_BYTES q = (s.rd F.Q_TIMED_BYTES_BYTES q + 64) % 2 ^ F.Q_TIMED_BYTES_BYTES.width ∧
        n.rd F.Q_RD_BYTES_BYTES q = (s.rd F.Q_RD_BYTES_BYTES q + 64) % 2 ^ F.Q_RD_BYTES_BYTES.width ∧
        regsBut [F.Q_TIMED_BYTES_BYTES.key q 0, F.Q_RD_BYTES_BYTES.key q 0] s n ∧
        n = { s with rf := n.rf, quays := n.quays }) ∧
    (s.stagingUse q = none → y.reads = r :: m → s.serves q 4 = true → y.edcBad = false →
      ∃ n, exec (.gddr7AccessComplete q .ok) s = .next n ∧ others n ∧ n.quay q = { y with retries := 0, reads := m } ∧
        n.rd F.Q_RING_BYTES_BYTES q = (s.rd F.Q_RING_BYTES_BYTES q + 64) % 2 ^ F.Q_RING_BYTES_BYTES.width ∧
        n.rd F.Q_RD_BYTES_BYTES q = (s.rd F.Q_RD_BYTES_BYTES q + 64) % 2 ^ F.Q_RD_BYTES_BYTES.width ∧
        regsBut [F.Q_RING_BYTES_BYTES.key q 0, F.Q_RD_BYTES_BYTES.key q 0] s n ∧
        n = { s with rf := n.rf, quays := n.quays }) ∧
    (y.pushQ = p :: l → y.pushes = [] → s.rd F.Q_STATUS_SELFREF q = 0 → (∀ v, (s.quay v).edcBad = false) →
      (pushReserved p = false → (s.pushNext ⟨p, 0, 0, p.base, 0, none⟩ .ok).2 = .ok k → s.credRefusal t p.slip k 2 = 0 →
        ∃ n, exec (.quayPushStart ⟨q, .ok⟩) s = .next n ∧ others n ∧
          n.quay q = { y with pushQ := l, pushes := [⟨p, 0, 0, p.base, k, none⟩] } ∧
          n.tile t = { s.tile t with creds := (s.tile t).creds ++ [⟨p.slip, k, 2, q⟩] } ∧
          (∀ v, v ≠ t → n.tile v = s.tile v) ∧ n = { s with quays := n.quays, tiles := n.tiles }) ∧
      (pushReserved p = true → s.tstate t = 1 → s.rd F.T_HALT_VALID t = 0 → p.addr < 2 ^ 19 → (s.tile t).qpost ≠ some false →
        ∃ n, exec (.quayPushStart ⟨q, .ok⟩) s = .next n ∧ others n ∧ n.quay q = { y with pushQ := l } ∧
          haltedWith s n t 2 3 p.addr 0x010C 0)) ∧
    (y.pushes = [x] → x.recNo = some c → x.post = p → x.size % 64 = 0 → 0 < x.size → s.power.state = .active →
      (∀ v, (s.quay v).edcBad = false) →
      (∀ i < x.size / 64, s.gbad (x.addrOf i) 64 = none ∧ s.servesRead (x.addrOf i) 64 2 q = true) → s.polices (s.tilePartN t) false = false →
      (∀ off, off % 64 = 0 → off + 64 ≤ x.size → s.credWriteCode t c 2 q off 64 = 0) →
      let slip := s.rd F.T_CRED_A_SLIP t c
      let start := s.rd F.T_CRED_A_START t c
      let data := (List.range (x.size / 64)).flatMap fun i => s.gbytes (x.addrOf i) 64
      let quaysOf := (List.range 24).flatMap fun v => [F.Q_RD_BYTES_BYTES.key v 0, F.Q_RING_BYTES_BYTES.key v 0,
        F.PT_ACC_QBYTES_BYTES.key 0 (64 * s.chargeTo (s.tilePartN t) + v)]
      let wrote := fun (n : State) => n.slipBytes t slip start x.size = data ∧
        memBut (spad t (s.rd F.SLIP_BASE_BASE t slip)) (s.slipSize t slip) s n ∧ n.rd F.T_CRED_A_STATE t c = 2 ∧
        n.rd F.Q_PUSH_BYTES_BYTES q = (s.rd F.Q_PUSH_BYTES_BYTES q + x.size) % 2 ^ F.Q_PUSH_BYTES_BYTES.width ∧
        (∀ v, v ≠ t → n.tile v = s.tile v) ∧
        (∀ v, v ≠ q.val → n.quay v = { s.quay v with retries := (n.quay v).retries }) ∧
        regsBut (F.T_CRED_A_STATE.key t c :: F.T_CRED_B_WRITTEN.key t c :: F.Q_PUSH_BYTES_BYTES.key q 0 :: quaysOf) s n ∧
        n = { s with rf := n.rf, mem := n.mem, tiles := n.tiles, quays := n.quays, hub := n.hub,
                     power := { s.power with weights := n.power.weights } }
      start + x.size ≤ 2 ^ 32 → x.size ≤ s.slipSize t slip →
      ((if p.seg then p.rows ≤ x.segs + 1 else p.rows * p.rowBytes ≤ x.pos + x.size) →
        ∃ n, exec (.pushChunkDone q []) s = .next n ∧ wrote n ∧ n.quay q = { y with pushes := [], retries := (n.quay q).retries } ∧
          (n.tile t).creds = (s.tile t).creds ∧ n.hub = { s.hub with inbox := s.hub.inbox ++
            if p.doneEn then [⟨2, q, 1, p.doneObj, 1, s.tilePartN t, false, p.addr, false⟩] else [] }) ∧
      (p.seg = false → x.pos + x.size < p.rows * p.rowBytes → p.slip = slip →
        let k := min p.chunk (p.rows * p.rowBytes - (x.pos + x.size))
        0 < k → k % 64 = 0 → k ≤ s.slipSize t slip → s.rd F.SLIP_ATTR_EXEC t slip = 0 → s.slipClass t slip = 2 →
        ∃ n, exec (.pushChunkDone q []) s = .next n ∧ wrote n ∧
          n.quay q = { y with pushes := [⟨p, x.pos + x.size, x.segs + 1, x.next + x.size, k, none⟩],
                              retries := (n.quay q).retries } ∧
          (n.tile t).creds = (s.tile t).creds ++ [⟨slip, k, 2, q⟩] ∧ n.hub = s.hub))

/-- A refresh interval falling due outside self-refresh raises DEBT by one, or at 8 pays one at once by a forced refresh
that it counts. An open window of a running timetable pays one of the debt, once, and counts; with none open nothing
happens. A waiting reservation is granted while fewer than 2,048 blocks are taken; a reserved request takes its place
in the quay's order: a write enters the buffer, an add the adder, a read the scheduler; where the device serves it the
oldest absorbed write retires: its bytes stand in the device of its quay, no other byte changes, it is counted and
charged. A request from the ring joins the quay its address maps to, a write once there is space, a read behind its
source's writes, and changes nothing at another. A gradient flit is added lane by lane in FP32, in the order of
arrival; a case in a lane leaves the block and halts the requester with SLOT 7. Commands: refreshIntervalDue,
refreshWindowOpen, wabReservationGrant, wabWriteAccept, wabRetire, quayGradientAdd, ringRequestArrive. -/
def Obligations.QuaysRefreshAbsorbAndAdd : Prop :=
  ∀ (s : State) (q : QuayId) (r : QReq) (l : List QReq) (k d w : Nat) (req : RingReq) (dd : List (BitVec 8)),
    let x := s.quay q
    let others := fun (n : State) => ∀ v, v ≠ q.val → n.quay v = s.quay v
    let debt := s.rd F.Q_STATUS_DEBT q
    let wab := [F.Q_WAB_FILL_BLOCKS.key q 0, F.Q_WAB_FILL_FULL.key q 0, F.Q_WAB_MAX_BLOCKS.key q 0, F.Q_WAB_MAX_FULL.key q 0]
    let fill := fun (n : State) (m : Nat) => n.rd F.Q_WAB_FILL_BLOCKS q = min m 2047 ∧
      n.rd F.Q_WAB_FILL_FULL q = (if 2048 ≤ m then 1 else 0) ∧
      n.rd F.Q_WAB_MAX_BLOCKS q = max (s.rd F.Q_WAB_MAX_BLOCKS q) (min m 2047)
    let part := if r.cls = 1 then s.corePart r.unit else 4
    let placed := { r with seq := x.taken, tick := s.tick }
    let rq : QReq := ⟨req.addr.toNat, if req.write then some (req.data.take (64 - req.addr.toNat % 64)) else none,
      req.kind.toNat, req.src.toNat, false, 0, 0⟩
    let clean := x.wback.filter fun b => b != r.addr / 64 * 64
    (s.rd F.Q_STATUS_SELFREF q = 0 →
      (debt < 7 →
        ∃ n, exec (.refreshIntervalDue q) s = .next n ∧ n.rd F.Q_STATUS_DEBT q = debt + 1 ∧
          regsBut [F.Q_STATUS_DEBT.key q 0] s n ∧ n = { s with rf := n.rf }) ∧
      (debt = 7 →
        ∃ n, exec (.refreshIntervalDue q) s = .next n ∧ n.rd F.Q_STATUS_DEBT q = 7 ∧
          n.rd F.Q_REFRESH_FORCED_COUNT q = (s.rd F.Q_REFRESH_FORCED_COUNT q + 1) % 2 ^ 48 ∧
          regsBut [F.Q_STATUS_DEBT.key q 0, F.Q_REFRESH_FORCED_COUNT.key q 0] s n ∧ others n ∧
          n.quay q = { x with forceTc := forcedTc } ∧ n = { s with rf := n.rf, quays := n.quays }) ∧
      (s.openWindow q = some w → 0 < debt → x.winAt ≠ w + 1 →
        ∃ n, exec (.refreshWindowOpen q) s = .next n ∧ n.rd F.Q_STATUS_DEBT q = debt - 1 ∧
          n.rd F.Q_REFRESH_WIN_COUNT q = (s.rd F.Q_REFRESH_WIN_COUNT q + 1) % 2 ^ 48 ∧
          regsBut [F.Q_STATUS_DEBT.key q 0, F.Q_REFRESH_WIN_COUNT.key q 0] s n ∧ others n ∧
          n.quay q = { x with winAt := w + 1 } ∧ n = { s with rf := n.rf, quays := n.quays })) ∧
    (s.openWindow q = none → exec (.refreshWindowOpen q) s = .next s) ∧
    (x.resWait = r :: l → (r.data = none ∨ x.blocks < 2048 →
        ∃ n, exec (.wabReservationGrant q) s = .next n ∧ n.quay q = { x with resWait := l, reserved := x.reserved ++ [r] } ∧
          others n ∧ n = { s with quays := n.quays }) ∧
      (r.data ≠ none → 2048 ≤ x.blocks → exec (.wabReservationGrant q) s = .next s)) ∧
    (x.reserved = r :: l →
      ∃ n, exec (.wabWriteAccept q) s = .next n ∧ others n ∧ n = { s with rf := n.rf, quays := n.quays } ∧
        regsBut wab s n ∧
        (r.add = true → fill n x.wab.length ∧
          n.quay q = { x with reserved := l, taken := x.taken + 1, grads := x.grads ++ [placed] }) ∧
        (r.add = false → r.data = none → fill n x.wab.length ∧
          n.quay q = { x with reserved := l, taken := x.taken + 1, reads := x.reads ++ [placed] }) ∧
        (r.add = false → r.data ≠ none → fill n (x.wab.length + 1) ∧
          n.quay q = { x with reserved := l, taken := x.taken + 1, wab := x.wab ++ [placed] })) ∧
    (x.wab = r :: l → r.data = some dd → 0 < dd.length → r.addr % 64 + dd.length ≤ 64 → s.gmap r.addr = some (k, d) →
      (r.cls = 1 → r.unit < 16) → (∀ g ∈ x.grads, g.addr / 64 = r.addr / 64 → r.seq ≤ g.seq) → (s.quay k).edcBad = false →
      s.serves q (if s.pressing q then 3 else 4) = true →
      ∃ n, exec (.wabRetire ⟨q, .ok⟩) s = .next n ∧ n.quay q = { x with wab := l, retries := 0, wback := clean } ∧ others n ∧
        (∀ i < dd.length, n.byte (gkey k d + i) = dd.getD i 0) ∧ memBut (gkey k d) dd.length s n ∧
        n.rd F.Q_WR_BYTES_BYTES q = (s.rd F.Q_WR_BYTES_BYTES q + 64) % 2 ^ F.Q_WR_BYTES_BYTES.width ∧
        n.rd F.Q_RD_BYTES_BYTES q =
          (s.rd F.Q_RD_BYTES_BYTES q + if dd.length < 64 then 64 else 0) % 2 ^ F.Q_RD_BYTES_BYTES.width ∧
        n.rd F.PT_ACC_QBYTES_BYTES 0 (64 * s.chargeTo part + q) =
          (s.rd F.PT_ACC_QBYTES_BYTES 0 (64 * s.chargeTo part + q) + 64) % 2 ^ F.PT_ACC_QBYTES_BYTES.width ∧ fill n l.length ∧
        regsBut (F.Q_WR_BYTES_BYTES.key q 0 :: F.Q_RD_BYTES_BYTES.key q 0 ::
          F.PT_ACC_QBYTES_BYTES.key 0 (64 * s.chargeTo part + q) :: wab) s n ∧
        n = { s with rf := n.rf, mem := n.mem, quays := n.quays, power := { s.power with weights := n.power.weights } }) ∧
    (s.gmap req.addr.toNat = some (k, d) →
      (k = q.val → s.quayFenced q = false →
        ∃ n, exec (.ringRequestArrive q req) s = .next n ∧ others n ∧ n = { s with quays := n.quays } ∧
          n.quay q = if req.write then
              (if x.resWait = [] ∧ x.blocks < 2048 then { x with reserved := x.reserved ++ [rq] }
               else { x with resWait := x.resWait ++ [rq] })
            else if ∃ z ∈ x.resWait, z.cls = rq.cls ∧ z.unit = rq.unit then { x with resWait := x.resWait ++ [rq] }
            else if x.sending rq.cls rq.unit then { x with reserved := x.reserved ++ [rq] }
            else { x with reads := x.reads ++ [{ rq with seq := x.taken, tick := s.tick }], taken := x.taken + 1 }) ∧
      (k ≠ q.val → exec (.ringRequestArrive q req) s = .next s)) ∧
    (x.grads = r :: l → r.data = some dd → r.addr % 64 = 0 → s.gmap r.addr = some (k, d) → k = q.val →
      (∀ z ∈ x.wab, z.addr / 64 = r.addr / 64 → r.seq ≤ z.seq) → s.serves q 2 = true → x.edcBad = false →
      let old := s.ldn (gkey k d) 64
      let sum := lanes (fun i => fadd (lane old 32 i) (lane (leVal dd) 32 i)) 16 0
      (∀ xs, sum = .ok xs →
        ∃ n, exec (.quayGradientAdd q .ok) s = .next n ∧ n.quay q = { x with grads := l, retries := 0, wback := clean } ∧ others n ∧
          n.ldn (gkey k d) 64 = joinLanes 32 xs % 2 ^ 512 ∧ memBut (gkey k d) 64 s n ∧
          n.rd F.Q_ADD_FLITS_FLITS q = (s.rd F.Q_ADD_FLITS_FLITS q + 1) % 2 ^ F.Q_ADD_FLITS_FLITS.width ∧
          regsBut (F.Q_ADD_FLITS_FLITS.key q 0 :: F.Q_WR_BYTES_BYTES.key q 0 :: F.Q_RD_BYTES_BYTES.key q 0 :: wab) s n ∧
          n = { s with rf := n.rf, mem := n.mem, quays := n.quays }) ∧
      (∀ c i, sum = .error (c, i) → s.tstate r.unit = 1 → s.rd F.T_HALT_VALID r.unit = 0 → r.unit < 3072 →
        (s.tile r.unit).qpost ≠ some false → r.addr < 2 ^ 48 → c < 2 ^ 16 →
        ∃ n, exec (.quayGradientAdd q .ok) s = .next n ∧ n.quay q = { x with grads := l, retries := 0 } ∧ others n ∧
          haltedWith s n r.unit 2 7 (s.rd F.T_PC_ADDR r.unit) c r.addr (F.Q_RD_BYTES_BYTES.key q 0 :: wab)))

/-- A burst that fails its CRC at a quay that is not fenced is retried and counted, three times; a read that still fails
is uncorrectable, the next to complete there; a write takes the module out of service and asks for the quay's fence. A
temperature read of a trained device outside self-refresh sets TEMP and HOT (above 85 °C), PW_TEMP_MEM to the hottest
device, and the memory's thermal grant and throttle. Training after PWR_GOOD in BOOTING sets TRAINED and leaves every
byte of that device 0, no other byte changed; a failure, in a boot that is not a trial, records boot code 8. A
supervisor's write of QR_PIN_A outside the partition's crossings stores BANDS, PBASE and EN; a write of EN that
overlaps another enabled pin leaves EN 0 and sets REFUSED; QR_PIN_B stores SBASE and NSTRIPES. Commands: edcRetry,
deviceTempRead, quayLinkTrain, qrPinWrite. -/
def Obligations.QuaysRetryTrainAndPin : Prop :=
  ∀ (s : State) (q : QuayId) (write : Bool) (temp : BitVec 8) (core : CoreId) (pin : PartId) (value : BitVec 64),
    let x := s.quay q
    let others := fun (n : State) => ∀ v, v ≠ q.val → n.quay v = s.quay v
    let v := value.toNat
    let mode := [F.L_STATUS_SUPER.key core 0, F.L_STATUS_TASK.key core 0, F.L_STATUS_RUN.key core 0]
    let calm := fun (n : State) => n.rd F.L_STATUS_SUPER core = 1 ∧ n.core core = { s.core core with handler := false } ∧
      (∀ u, u ≠ core.val → n.core u = s.core u) ∧ n = { s with rf := n.rf, cores := n.cores }
    (s.isFenced 2 q = false →
      (x.retries < 3 →
        ∃ n, exec (.edcRetry q write) s = .next n ∧ n.quay q = { x with retries := x.retries + 1 } ∧ others n ∧
          n.rd F.Q_EDC_RETRY_COUNT q = (s.rd F.Q_EDC_RETRY_COUNT q + 1) % 2 ^ 48 ∧
          regsBut [F.Q_EDC_RETRY_COUNT.key q 0] s n ∧ n = { s with rf := n.rf, quays := n.quays }) ∧
      (3 ≤ x.retries → write = false → ∃ n, exec (.edcRetry q write) s = .next n ∧ others n ∧
        n.quay q = { x with retries := 0, edcBad := true } ∧ n = { s with quays := n.quays }) ∧
      (3 ≤ x.retries → write = true → s.rd F.FT_STATE_OUT = 0 →
        ∃ n, exec (.edcRetry q write) s = .next n ∧ n.rd F.FT_STATE_OUT = 1 ∧ n.rd F.FT_STATE_CAUSE = 0x32 ∧
          n.ctl.faulted = true ∧ n.mem = s.mem)) ∧
    (s.rd F.Q_STATUS_SELFREF q = 0 → s.rd F.Q_STATUS_TRAINED q = 1 →
      ∃ n, exec (.deviceTempRead q temp) s = .next n ∧ n.rd F.Q_STATUS_TEMP q = temp.toNat ∧
        n.rd F.Q_STATUS_HOT q = (if 85 < temp.toNat then 1 else 0) ∧ n.rd F.PW_TEMP_MEM = n.memTemp ∧
        n.power = { s.power with memGrant := (grantRead s.power.memGrant s.power.memSeq n.memTemp).1,
                                 memSeq := (grantRead s.power.memGrant s.power.memSeq n.memTemp).2,
                                 memThr := throttleRead s.power.memThr n.memTemp 105 101 } ∧
        n.rd F.PW_STATE_THROTTLE = (if n.power.dieThr || n.power.memThr then 1 else 0) ∧
        regsBut [F.Q_STATUS_TEMP.key q 0, F.Q_STATUS_HOT.key q 0, F.PW_TEMP_MEM.key 0 0, F.PW_STATE_THROTTLE.key 0 0,
          F.PW_GRANT_LIMIT.key 0 0, F.PW_GRANT_WATTS.key 0 0, F.PW_GRANT_LOWV.key 0 0, F.PW_GRANT_HOT.key 0 0,
          F.PW_GRANT_SEQ.key 0 0, F.CP_EVENTS_GRANT.key 0 0, F.MSIX_PEND.key 0 0] s n ∧
        n = { s with rf := n.rf, power := n.power, ctl := { s.ctl with msgs := n.ctl.msgs } }) ∧
    (s.ctl.base = 1 → s.pins.pwrGood = true →
      (∃ n, exec (.quayLinkTrain q true) s = .next n ∧ n.rd F.Q_STATUS_TRAINED q = 1 ∧
        (∀ d < 2 ^ 32, n.byte (gkey q d) = 0) ∧ (∀ a, (∀ d < 2 ^ 32, a ≠ gkey q d) → n.byte a = s.byte a) ∧
        q.val ∈ n.boot.quayUp ∧ regsBut [F.Q_STATUS_TRAINED.key q 0] s n ∧
        n = { s with rf := n.rf, mem := n.mem, boot := { s.boot with quayUp := n.boot.quayUp } }) ∧
      (s.boot.failed = none → (∀ b, s.boot.booted = some b → slotOf s.boot.slotSt b ≠ 3) →
        ∃ n, exec (.quayLinkTrain q false) s = .next n ∧ n.boot.failed = some 8 ∧ n.mem = s.mem)) ∧
    (s.coreReady core = true → (∀ y ∈ s.hub.running, y.part ≠ pin.val) →
      let w := (s.wr F.QR_PIN_A_BANDS v 0 pin).wr F.QR_PIN_A_PBASE (v / 2 ^ 16) 0 pin
      let clash := fun (o : Nat) => s.rd F.QR_PIN_A_EN 0 o = 1 ∧
        ((0 < w.pinLen pin ∧ 0 < w.pinLen o ∧ w.pinBase pin < w.pinBase o + w.pinLen o ∧ w.pinBase o < w.pinBase pin + w.pinLen pin) ∨
          ((∃ k ∈ w.pinQuays pin, k ∈ w.pinQuays o) ∧
            s.rd F.QR_PIN_B_SBASE 0 pin < s.rd F.QR_PIN_B_SBASE 0 o + s.rd F.QR_PIN_B_NSTRIPES 0 o ∧
            s.rd F.QR_PIN_B_SBASE 0 o < s.rd F.QR_PIN_B_SBASE 0 pin + s.rd F.QR_PIN_B_NSTRIPES 0 pin))
      let kept := fun (n : State) => n.rd F.QR_PIN_A_BANDS 0 pin = v % 2 ^ 12 ∧
        n.rd F.QR_PIN_A_PBASE 0 pin = v / 2 ^ 16 % 2 ^ 25 ∧ calm n ∧
        regsBut ([F.QR_PIN_A_BANDS, F.QR_PIN_A_EN, F.QR_PIN_A_REFUSED, F.QR_PIN_A_PBASE].map (fun f => f.key 0 pin) ++ mode) s n
      (value.getLsbD 12 = false →
        ∃ n, exec (.qrPinWrite (.super core) pin false value) s = .next n ∧ kept n ∧ n.rd F.QR_PIN_A_EN 0 pin = 0) ∧
      (value.getLsbD 12 = true → (∀ o < 4, o ≠ pin.val → ¬ clash o) →
        ∃ n, exec (.qrPinWrite (.super core) pin false value) s = .next n ∧ kept n ∧ n.rd F.QR_PIN_A_EN 0 pin = 1 ∧
          n.rd F.QR_PIN_A_REFUSED 0 pin = 0) ∧
      (value.getLsbD 12 = true → (∃ o < 4, o ≠ pin.val ∧ clash o) →
        ∃ n, exec (.qrPinWrite (.super core) pin false value) s = .next n ∧ n.rd F.QR_PIN_A_EN 0 pin = 0 ∧
          n.rd F.QR_PIN_A_REFUSED 0 pin = 1 ∧ calm n ∧
          regsBut ([F.QR_PIN_A_EN, F.QR_PIN_A_REFUSED].map (fun f => f.key 0 pin) ++ mode) s n) ∧
      (∃ n, exec (.qrPinWrite (.super core) pin true value) s = .next n ∧ n.rd F.QR_PIN_B_SBASE 0 pin = v % 2 ^ 20 ∧
        n.rd F.QR_PIN_B_NSTRIPES 0 pin = v / 2 ^ 20 % 2 ^ 20 ∧ calm n ∧
        regsBut ([F.QR_PIN_B_SBASE, F.QR_PIN_B_NSTRIPES].map (fun f => f.key 0 pin) ++ mode) s n))

/-- CF_POST queues the address, or with eight queued sets DROPPED and nothing else. Idle, the engine takes the descriptor
at the front of its queue by the command of its KIND: an accepted one runs in AGREEMENT (reductions), GATHER or
EXCHANGE, shown in CF_STATUS and CF_CUR; one that fails the descriptor check ends as BAD_DESC, verdict 6. A phase that
reaches its deadline enters the verdict with LATE and the lowest awaited rank, its record on its way to the next rank;
the verdict's deadline ends the collective with verdict 5, CF_ABORT with 8 and an empty queue. The end shows in
CF_LAST with the COLLID and reruns, counts one collective, frees the engine and, other than 0, is logged; no memory
changes but the status word. Commands: cfPost, reduceScatter, allGather, allReduce, permute, allToAll,
phaseDeadlineExpire, verdictDeadlineExpire, cfAbort. -/
def Obligations.CollectivesStartAndEnd : Prop :=
  ∀ (s : State) (k : PortId) (addr : BitVec 48) (a : Nat) (q : List Nat) (c : Coll),
    let e := s.eng k
    let others := fun (n : State) => ∀ u, u ≠ k.val → n.eng u = s.eng u
    let status := [F.CF_STATUS_BUSY.key k 0, F.CF_STATUS_QUEUED.key k 0, F.CF_STATUS_PHASE.key k 0, F.CF_CUR_COLLID.key k 0,
      F.CF_CUR_RERUN.key k 0]
    let ended := fun (n : State) (c : Coll) (v : Nat) (q : List Nat) =>
      n.rd F.CF_LAST_VERDICT k = v ∧ n.rd F.CF_LAST_COLLID k = c.collid ∧ n.rd F.CF_LAST_RERUNS k = c.rerun % 8 ∧
        n.rd F.CF_COLLECTIVES_COUNT k = (s.rd F.CF_COLLECTIVES_COUNT k + 1) % 2 ^ F.CF_COLLECTIVES_COUNT.width ∧
        n.rd F.CF_STATUS_BUSY k = 0 ∧ n.rd F.CF_STATUS_PHASE k = 0 ∧ n.rd F.CF_STATUS_QUEUED k = q.length ∧
        (n.eng k).run = none ∧ (n.eng k).queue = q ∧ others n ∧ logged1 s n 7 4 (0x70 + v) c.collid ∧
        memBut (c.desc + 0x78) 8 s n ∧ regsBut ([F.CF_LAST_VERDICT, F.CF_LAST_RERUNS, F.CF_LAST_EXCESS, F.CF_LAST_DETAIL,
          F.CF_LAST_COLLID, F.CF_COLLECTIVES_COUNT, F.CF_REPEATS_COUNT].map (fun f => f.key k 0) ++ status ++
          [F.FT_EVQ_LOST_COUNT.key 0 0, F.FT_EVQ_STATUS_OVERFLOW.key 0 0, F.CP_EVENTS_FAULT.key 0 0, F.MSIX_PEND.key 0 0]) s n ∧
        n = { s with rf := n.rf, mem := n.mem, quays := n.quays, engs := n.engs, fault := n.fault, ctl := n.ctl, pins := n.pins }
    (e.queue.length < 8 →
      ∃ n, exec (.cfPost k addr) s = .next n ∧ n.eng k = { e with queue := e.queue ++ [addr.toNat] } ∧ others n ∧
        n.rd F.CF_STATUS_QUEUED k = e.queue.length + 1 ∧ regsBut status s n ∧ n = { s with rf := n.rf, engs := n.engs }) ∧
    (8 ≤ e.queue.length →
      ∃ n, exec (.cfPost k addr) s = .next n ∧ n.rd F.CF_STATUS_DROPPED k = 1 ∧
        regsBut [F.CF_STATUS_DROPPED.key k 0] s n ∧ n = { s with rf := n.rf }) ∧
    (e.queue = a :: q → q.length < 8 → e.run = none → c = s.collAt a →
      ∀ i kind phase, (i, kind, phase) ∈ [(Instr.reduceScatter k, 1, 1), (.allGather k, 2, 3), (.allReduce k, 3, 1),
          (.permute k, 4, 4), (.allToAll k, 5, 4)] → c.kind = kind →
        (s.collOk c = true → (c.enter phase).phaseDone = false →
          ∃ n, exec i s = .next n ∧ n.eng k = { e with queue := q, run := some (c.enter phase) } ∧ others n ∧
            n.rd F.CF_STATUS_BUSY k = 1 ∧ n.rd F.CF_STATUS_QUEUED k = q.length ∧ n.rd F.CF_STATUS_PHASE k = phase ∧
            n.rd F.CF_CUR_COLLID k = c.collid ∧ n.rd F.CF_CUR_RERUN k = 0 ∧ regsBut status s n ∧
            n = { s with rf := n.rf, engs := n.engs }) ∧
        (s.collOk c = false → ∃ n, exec i s = .next n ∧ ended n c 6 q)) ∧
    (e.run = some c →
      (c.phase ≠ 5 → 0 < c.rounds → find2 c.recs 0 = none → c.replica = false →
        let late := if c.late = 0 then c.awaited + 1 else min c.late (c.awaited + 1)
        let v : Coll := { c.flag 0 with late := late, phase := 5, read := 0, round := 0 }
        ∃ n, exec (.phaseDeadlineExpire k) s = .next n ∧ n.eng k = { e with run := some v, sends := e.sends ++
            [⟨bits (c.peers.getD ((c.r + 1) % max 1 c.n) 0) 0 11, false, byteAt c.body 0x42,
              segHead v 3 0 v.record.length 0 ++ v.record⟩] } ∧ others n ∧
          n.rd F.CF_STATUS_PHASE k = 5 ∧ regsBut status s n ∧ n = { s with rf := n.rf, engs := n.engs }) ∧
      (c.phase = 5 → exec (.phaseDeadlineExpire k) s = .next s ∧
        (e.queue.length < 16 → ∃ n, exec (.verdictDeadlineExpire k) s = .next n ∧ ended n c 5 e.queue)) ∧
      (c.phase ≠ 5 → exec (.verdictDeadlineExpire k) s = .next s) ∧
      (∃ n, exec (.cfAbort k) s = .next n ∧ ended n c 8 []))

/-- A spoke read of an ALL_GATHER that its quay serves and that ends no segment goes to its place in DST, is counted and
charged, and the next block is awaited; an uncorrectable one takes the rank to the verdict with MEM_UNCORR. A
malformed segment, or one of no running collective, is counted as stray and discarded; one that fits and cannot be
placed yet waits and changes nothing; a first data segment of an ALL_GATHER from the ring's predecessor is written at
its rank's place and counted taken, and goes on to the next rank where that one lacks it; data for an enabled
FROM_FABRIC channel from its peer joins the delivery buffer. CF_CHAN_WRITE stores the channel's fields, clears ERR and
starts the channel anew where EN rises, and does nothing while a running crossing uses the channel. Commands:
spokeReadComplete, segmentReceive, cfChanWrite. -/
def Obligations.EnginesReadReceiveAndChannel : Prop :=
  ∀ (s : State) (k : PortId) (c : Coll) (seg : List (BitVec 8)) (chan : BitVec 4) (value : BitVec 64) (w z d f y : Nat),
    let e := s.eng k
    let others := fun (n : State) => ∀ u, u ≠ k.val → n.eng u = s.eng u
    let status := [F.CF_STATUS_BUSY.key k 0, F.CF_STATUS_QUEUED.key k 0, F.CF_STATUS_PHASE.key k 0, F.CF_CUR_COLLID.key k 0,
      F.CF_CUR_RERUN.key k 0]
    let i := chan.toNat
    let v := value.toNat
    let rx := fun (n : State) => n.rd F.CF_RX_BYTES_BYTES k =
      (s.rd F.CF_RX_BYTES_BYTES k + seg.length) % 2 ^ F.CF_RX_BYTES_BYTES.width
    (e.run = some c → c.phase = 3 → c.kind = 2 → c.read < c.reads → s.gmap (c.readAddr c.read) = some (w, d) →
      c.dst % 64 = 0 → c.nelem % 64 = 0 → s.servesRead (c.readAddr c.read) 64 4 k = true → (s.quay w).edcBad = false →
      let dst := c.dst + c.r * c.nelem + 64 * c.read
      ((∀ x ∈ cuts c.nelem 2016, ¬ (64 * c.read < x.1 + x.2 ∧ x.1 + x.2 ≤ 64 * (c.read + 1))) → s.gmap dst = some (z, f) →
        ({ c with read := c.read + 1 } : Coll).phaseDone = false →
        ∃ n, exec (.spokeReadComplete k .ok) s = .next n ∧ n.eng k = { e with run := some { c with read := c.read + 1 } } ∧
          others n ∧ n.quay z = { s.quay z with retries := (n.quay z).retries, resWait := (s.quay z).resWait ++
            [⟨dst, some (s.gbytes (c.src + 64 * c.read) 64), 4, k, false, 0, 0⟩] } ∧ (n.quay w).retries = 0 ∧
          (∀ u, u ≠ z → n.quay u = { s.quay u with retries := (n.quay u).retries }) ∧
          n.rd F.Q_RD_BYTES_BYTES w = (s.rd F.Q_RD_BYTES_BYTES w + 64) % 2 ^ F.Q_RD_BYTES_BYTES.width ∧
          n.rd F.PT_ACC_QBYTES_BYTES 0 w = (s.rd F.PT_ACC_QBYTES_BYTES 0 w + 64) % 2 ^ F.PT_ACC_QBYTES_BYTES.width ∧
          regsBut (F.Q_RD_BYTES_BYTES.key w 0 :: F.PT_ACC_QBYTES_BYTES.key 0 w :: status) s n ∧
          n = { s with rf := n.rf, quays := n.quays, engs := n.engs }) ∧
      (0 < c.rounds → find2 c.recs 0 = none →
        ∃ n, exec (.spokeReadComplete k (.uncorrectable y y)) s = .next n ∧
          (n.eng k).run = some { c.flag 3 with phase := 5, read := 0, round := 0 } ∧ others n ∧
          n.rd F.Q_ECC_UNCORR_BLOCKS w = (s.rd F.Q_ECC_UNCORR_BLOCKS w + 1) % 2 ^ F.Q_ECC_UNCORR_BLOCKS.width ∧ n.mem = s.mem)) ∧
    ((s.port k).inbox.contains (0, seg) = false →
      (segOk seg = false ∨ segOk seg = true ∧ segAt seg 0x0B 1 ≠ 4 ∧ (e.run = none ∨ e.run = some c ∧ c.owns seg = false) →
        ∃ n, exec (.segmentReceive k seg) s = .next n ∧ rx n ∧
          n.rd F.CF_STRAY_SEGMENTS k = (s.rd F.CF_STRAY_SEGMENTS k + 1) % 2 ^ F.CF_STRAY_SEGMENTS.width ∧
          regsBut [F.CF_RX_BYTES_BYTES.key k 0, F.CF_STRAY_SEGMENTS.key k 0] s n ∧ n = { s with rf := n.rf }) ∧
      (segOk seg = true → segAt seg 0x0B 1 = 4 → segAt seg 0x0C 2 = i → s.chanKind k i = 3 →
        s.rd F.CF_CHAN_A_PEER k i = segAt seg 0x08 2 →
        ∃ n, exec (.segmentReceive k seg) s = .next n ∧ rx n ∧ others n ∧
          n.eng k = { e with deliver := e.deliver ++ [(i, seg.drop 32)] } ∧
          regsBut [F.CF_RX_BYTES_BYTES.key k 0] s n ∧ n = { s with rf := n.rf, engs := n.engs }) ∧
      (segOk seg = true → segAt seg 0x0B 1 = 2 → e.run = some c → c.owns seg = true → c.kind = 2 → c.phase = 3 →
        c.replica = false → c.fits seg = true → s.canPlace k c seg = true → aget 0 c.taken (2 * segKey seg) = 0 →
        let ch := segAt seg 0x0C 2
        let key := 2 * segKey seg + segAt seg 0x18 1
        let t : Coll := { c with copies := aadd c.copies key 1, taken := aput 0 c.taken (2 * segKey seg) 1,
                                 recv0 := c.recv0 + (seg.length - 32) }
        t.phaseDone = false → (ch ≠ c.next → e.spill = [] ∧ e.fwdBytes + seg.length ≤ 262144) →
        ∃ n, exec (.segmentReceive k seg) s = .next n ∧ rx n ∧ others n ∧
          n.quays = (s.gpost (c.dst + ch * c.nelem + segAt seg 0x10 5) (seg.drop 32) 4 k).quays ∧
          (ch = c.next → n.eng k = { e with run := some t }) ∧
          (ch ≠ c.next → ∃ out, out.body.drop 32 = seg.drop 32 ∧ out.dst = bits (c.peers.getD c.next 0) 0 11 ∧ out.fwd = true ∧
            n.eng k = { e with run := some t, sends := e.sends ++ [out] }) ∧
          regsBut (F.CF_RX_BYTES_BYTES.key k 0 :: status) s n ∧ n = { s with rf := n.rf, quays := n.quays, engs := n.engs }) ∧
      (segOk seg = true → segAt seg 0x0B 1 ≠ 4 → e.run = some c → c.owns seg = true → c.fits seg = true →
        s.canPlace k c seg = false → exec (.segmentReceive k seg) s = .next s)) ∧
    (s.chanRunning k i = true → ∀ b, exec (.cfChanWrite k chan b value) s = .next s) ∧
    (s.chanRunning k i = false →
      (∃ n, exec (.cfChanWrite k chan true value) s = .next n ∧
        n.rd F.CF_CHAN_B_BASE k i = v % 2 ^ F.CF_CHAN_B_BASE.width ∧
        regsBut [F.CF_CHAN_B_BASE.key k i] s n ∧ n = { s with rf := n.rf }) ∧
      (∀ fields, fields = [F.CF_CHAN_A_KIND, F.CF_CHAN_A_EN, F.CF_CHAN_A_PEER, F.CF_CHAN_A_TILE, F.CF_CHAN_A_SLIP,
          F.CF_CHAN_A_SIZE] →
        ∃ n, exec (.cfChanWrite k chan false value) s = .next n ∧ (∀ g ∈ fields, n.rd g k i = bits v g.lo g.width) ∧
          (bits v F.CF_CHAN_A_EN.lo 1 = 0 ∨ (v % 8 ≠ 3 ∧ v % 8 ≠ 4) →
            (n.rd F.CF_CHAN_A_EN k i = 1 → n.rd F.CF_CHAN_A_ERR k i = 0 ∧
              (s.rd F.CF_CHAN_A_EN k i = 0 → (n.eng k).chan i = {})) ∧ others n ∧
            regsBut (F.CF_CHAN_A_ERR.key k i :: fields.map fun g => g.key k i) s n ∧ n = { s with rf := n.rf, engs := n.engs })))

/-- For a ready core in supervisor mode outside its handler, aligned accesses of 1 to 64 bytes: a landing-SRAM read
returns the bytes, a write stores them and no other; a GDDR7 read of a cached line returns its bytes, of a locked one
faults CACHE_UNCORR, of no line stalls; a write takes the line into the cache with the bytes over it, dirty; a tile-
window read stalls; a misaligned one faults ALIGN. By a task: no window is NO_WINDOW, a window that does not allow it
PERMISSION, else the lowest allowing window translates it. A stalled GDDR7 read that its quay serves completes with
its bytes, its line in the cache, counted and charged; a stalled window read with the tile's bytes. FENCE stalls the
core exactly while a write of its own is on its way to a quay. Commands: landingAccess, landingMemReadComplete,
landingFence. -/
def Obligations.LandingAccessesTranslateAndReach : Prop :=
  ∀ (s : State) (core : CoreId) (addr : BitVec 48) (size : Nat) (data : List (BitVec 8)) (k : BitVec 6) (kind : AccKind)
      (l : CLine) (q d : Nat) (m : MemRead) (t : TileId) (off : BitVec 20),
    let a := addr.toNat
    let la := a / 64 * 64
    let x := s.core core
    let others := fun (n : State) => ∀ u, u ≠ core.val → n.core u = s.core u
    let rest := fun (a : Nat) => s.cache.filter fun y => y.addr != a
    let mode := [F.L_STATUS_SUPER.key core 0, F.L_STATUS_RUN.key core 0]
    let count := fun (q p : Nat) => [F.Q_RD_BYTES_BYTES.key q 0, F.Q_RING_BYTES_BYTES.key q 0,
      F.PT_ACC_QBYTES_BYTES.key 0 (64 * s.chargeTo p + q)]
    let inSram := sramBase ≤ a ∧ a + size ≤ sramBase + s.rd F.L_CFG_LSRAM * 2 ^ 20 ∧ s.line a = none
    let sup := Accessor.super core
    (s.coreReady core = true → size ∈ coreSizes →
      (s.rd F.L_STATUS_SUPER core = 1 → x.handler = false →
        (a % size = 0 →
          (inSram →
            (∃ n, exec (.landingAccess sup addr size .read [] .ok) s = .next n ∧ others n ∧
              n.core core = { x with rdata := s.bytes a size } ∧ regsBut mode s n ∧ n = { s with rf := n.rf, cores := n.cores }) ∧
            (data.length = size →
              ∃ n, exec (.landingAccess sup addr size .write data .ok) s = .next n ∧ (∀ i < size, n.byte (a + i) = data.getD i 0) ∧
                memBut a size s n ∧ n.core core = x ∧ others n ∧ regsBut mode s n ∧
                n = { s with rf := n.rf, cores := n.cores, mem := n.mem })) ∧
          (s.gmap a = some (q, d) → x.streams = [] →
            (s.line a = some l → l.locked = false →
              (∃ n, exec (.landingAccess sup addr size .read [] .ok) s = .next n ∧ others n ∧ regsBut mode s n ∧
                n.core core = { x with rdata := (l.data.drop (a - l.addr)).take size } ∧ n = { s with rf := n.rf, cores := n.cores }) ∧
              (data.length = size → (rest la).length < s.cacheLines →
                ∃ n, exec (.landingAccess sup addr size .write data .ok) s = .next n ∧ others n ∧ regsBut mode s n ∧
                  n.cache = rest la ++ [{ l with data := overlay l.data (a - la) data, dirty := true }] ∧ n.core core = x ∧
                  n = { s with rf := n.rf, cores := n.cores, cache := n.cache })) ∧
            (s.line a = some l → l.locked = true → ∀ w ∈ [AccKind.read, .write],
              ∃ n, exec (.landingAccess sup addr size w data .ok) s = .next n ∧ coreFaulted s n core 0x15 0 a) ∧
            (s.line a = none →
              (∃ n, exec (.landingAccess sup addr size .read [] .ok) s = .next n ∧ others n ∧ regsBut mode s n ∧
                n.core core = { x with mem := some ⟨a, size, a⟩ } ∧ n = { s with rf := n.rf, cores := n.cores }) ∧
              (data.length = size → s.cache.length < s.cacheLines → (s.quay q).edcBad = false →
                ∃ n, exec (.landingAccess sup addr size .write data .ok) s = .next n ∧ others n ∧ n.core core = x ∧
                  n.cache = s.cache ++ [⟨la, overlay (s.gbytes la 64) (a - la) data, true, false⟩] ∧
                  n.rd F.Q_RD_BYTES_BYTES q = (s.rd F.Q_RD_BYTES_BYTES q + 64) % 2 ^ F.Q_RD_BYTES_BYTES.width ∧
                  n.quay q = { s.quay q with retries := 0 } ∧ (∀ u, u ≠ q → n.quay u = s.quay u) ∧
                  regsBut (mode ++ count q 4) s n ∧
                  n = { s with rf := n.rf, cores := n.cores, cache := n.cache, quays := n.quays }))) ∧
          (a = spad t off.toNat →
            ∃ n, exec (.landingAccess sup addr size .read [] .ok) s = .next n ∧ others n ∧ regsBut mode s n ∧
              n.core core = { x with mem := some ⟨a, size, a⟩ } ∧ n = { s with rf := n.rf, cores := n.cores })) ∧
        (a % size ≠ 0 →
          ∃ n, exec (.landingAccess sup addr size kind data .ok) s = .next n ∧ coreFaulted s n core 0x19 0 a)) ∧
      (a % size = 0 →
        (∀ w, (List.range 64).find? (fun w => s.lwinCovers w k.toNat a size && s.lwinAllows w .read) = some w →
          let b := (s.rd F.L_WIN_B_PBASE 0 w * 4096 + (a - s.rd F.L_WIN_A_VBASE 0 w * 4096)) % 2 ^ 48
          sramBase ≤ b → b + size ≤ sramBase + s.rd F.L_CFG_LSRAM * 2 ^ 20 → s.line b = none →
          ∃ n, exec (.landingAccess (.task core k) addr size .read [] .ok) s = .next n ∧ others n ∧
            n.core core = { x with handler := false, rdata := s.bytes b size } ∧ n.rd F.L_STATUS_SUPER core = 0 ∧
            n.rd F.L_STATUS_TASK core = k.toNat ∧ regsBut (F.L_STATUS_TASK.key core 0 :: mode) s n ∧
            n = { s with rf := n.rf, cores := n.cores }) ∧
        ((∀ w < 64, (s.lwinCovers w k.toNat a size && s.lwinAllows w kind) = false) →
          ∃ n, exec (.landingAccess (.task core k) addr size kind data .ok) s = .next n ∧
            n.rd F.L_FAULT_CODE core = (if (List.range 64).any (fun w => s.lwinCovers w k.toNat a size) then 0x12 else 0x11) ∧
            n.rd F.L_FAULT_TASK core = k.toNat ∧ n.rd F.L_FAULT_SUPER core = 0 ∧ n.rd F.L_FAULT_ADDR_ADDR core = a ∧
            n.rd F.L_FAULT_VALID core = 1 ∧ n.rd F.L_STATUS_SUPER core = 1 ∧ (n.core core).handler = true ∧ others n ∧
            n = { s with rf := n.rf, cores := n.cores }))) ∧
    (x.mem = some m →
      (m.addr < 0x1800000000 → s.gmap m.addr = some (q, d) → s.quayFenced q = false → s.polices (s.corePart core) false = false →
        s.servesRead m.addr 1 1 core = true → (s.quay q).edcBad = false →
        let lm := m.addr / 64 * 64
        (rest lm).length < s.cacheLines →
        ∃ n, exec (.landingMemReadComplete core .ok) s = .next n ∧ others n ∧
          n.core core = { x with mem := none, rdata := ((s.gbytes lm 64).drop (m.addr - lm)).take m.size } ∧
          n.cache = rest lm ++ [⟨lm, s.gbytes lm 64, false, false⟩] ∧
          n.rd F.Q_RD_BYTES_BYTES q = (s.rd F.Q_RD_BYTES_BYTES q + 64) % 2 ^ F.Q_RD_BYTES_BYTES.width ∧
          n.rd F.Q_RING_BYTES_BYTES q = (s.rd F.Q_RING_BYTES_BYTES q + 64) % 2 ^ F.Q_RING_BYTES_BYTES.width ∧
          regsBut (count q (s.corePart core)) s n ∧ n.quay q = { s.quay q with retries := 0 } ∧
          (∀ u, u ≠ q → n.quay u = s.quay u) ∧
          n = { s with rf := n.rf, cores := n.cores, cache := n.cache, quays := n.quays, power := { s.power with weights := n.power.weights } }) ∧
      (m.addr = spad t off.toNat → off.toNat < 0x60000 → (m.size = 8 ∨ m.size = 32 ∨ m.size = 64) → off.toNat % m.size = 0 →
        s.tstate t ≠ 4 → s.rd F.L_STATUS_SUPER core = 1 →
        ∃ n, exec (.landingMemReadComplete core .ok) s = .next n ∧ others n ∧
          n.core core = { x with mem := none, rdata := s.bytes m.addr m.size } ∧ n = { s with cores := n.cores })) ∧
    (s.coreReady core = true →
      ∃ n, exec (.landingFence core) s = .next n ∧ n.core core = { x with fence := s.quays.any fun e => e.2.sending 1 core } ∧
        others n ∧ n = { s with cores := n.cores })

/-- L_SOWAIT of a ready core sends its wait to the hub; a read of L_SOWAIT_RESULT with no answer yet stalls, with one
returns 1, 2 or 3 and ends the wait, with a hub case returns 0 and faults SO_REFUSED; the answer ends a stalled read
or is kept; a limit other than 0 that expires returns 3. L_CRED_REQ of a core that holds no credit asks the tile, or
faults NO_CREDIT when it holds one; L_CRED_RESULT stalls until the answer and then returns code and record; an
aperture store of 32 or 64 aligned bytes under the open credit lands at START + j, the last byte closing it, and
faults NO_CREDIT with none or ALIGN with another size. A task stalled in a wait loses its core to supervisor mode, the
read abandoned. Commands: lSowaitWrite, lSowaitResultRead, landingSowaitAnswer, lSowaitLimitExpire, lCredReqWrite,
lCredResultRead, creditApertureStore, taskPreempt. -/
def Obligations.LandingCoresWaitAndHoldCredits : Prop :=
  ∀ (s : State) (core : CoreId) (obj : BitVec 13) (tile : TileId) (slip : SlipId) (bytes : BitVec 20) (j : BitVec 19)
      (data : List (BitVec 8)) (o code r len : Nat) (b : Bool) (a : HubAns),
    let x := s.core core
    let others := fun (n : State) => ∀ u, u ≠ core.val → n.core u = s.core u
    let only := fun (n : State) => others n ∧ n = { s with cores := n.cores }
    let mine := fun (cls unit op : Nat) => cls = 1 ∧ unit = core.val ∧ op = 3
    let res := F.L_SOWAIT_RESULT_RESULT.key core 0
    let base := Blk.core.base core
    let t := tile.val
    (s.coreReady core = true →
      (s.power.state = .active → (∀ w ∈ s.hub.waits ++ s.hub.inbox, ¬ mine w.cls w.unit w.op) →
        (∀ w ∈ s.hub.answers, ¬ mine w.cls w.unit w.op) →
        ∃ n, exec (.lSowaitWrite core obj) s = .next n ∧ n.core core = { x with soWait := some (obj.toNat, false, 0) } ∧
          n.hub = { s.hub with inbox := s.hub.inbox ++
            [⟨1, core, 3, obj.toNat, 0, s.corePart core, s.rd F.L_STATUS_SUPER core == 1, 0, false⟩] } ∧ others n ∧
          n = { s with hub := n.hub, cores := n.cores }) ∧
      (x.soWait = none → ∃ n, exec (.lSowaitResultRead core) s = .next n ∧ only n ∧
        n.core core = { x with rdata := leBytes (s.rd F.L_SOWAIT_RESULT_RESULT core) 8 }) ∧
      (x.soWait = some (o, b, 0) → ∃ n, exec (.lSowaitResultRead core) s = .next n ∧ only n ∧
        n.core core = { x with soWait := some (o, true, 0) }) ∧
      (x.soWait = some (o, b, code) → 1 ≤ code → code ≤ 3 →
        ∃ n, exec (.lSowaitResultRead core) s = .next n ∧ n.rd F.L_SOWAIT_RESULT_RESULT core = code ∧ others n ∧
          n.core core = { x with soWait := none, rdata := leBytes code 8 } ∧ regsBut [res] s n ∧
          n = { s with rf := n.rf, cores := n.cores }) ∧
      (x.soWait = some (o, b, code) → 3 < code → code < 2 ^ 16 → x.handler = false →
        ∃ n, exec (.lSowaitResultRead core) s = .next n ∧ n.rd F.L_SOWAIT_RESULT_RESULT core = 0 ∧
          n.rd F.L_FAULT_CODE core = 0x16 ∧ n.rd F.L_FAULT_DETAIL core = code ∧ n.rd F.L_FAULT_ADDR_ADDR core = base + 0x20 ∧
          n.rd F.L_STATUS_SUPER core = 1 ∧ (n.core core).soWait = none ∧ others n ∧ n = { s with rf := n.rf, cores := n.cores }) ∧
      (x.cred = none → s.credRefusal t slip bytes.toNat 4 = 0 →
        ∃ n, exec (.lCredReqWrite core (BitVec.ofNat 12 t) slip bytes) s = .next n ∧ others n ∧
          n.core core = { x with cred := some (t, slip.val, bytes.toNat), credRec := none } ∧
          n.tile t = { s.tile t with creds := (s.tile t).creds ++ [⟨slip, bytes.toNat, 4, core⟩] } ∧
          (∀ v, v ≠ t → n.tile v = s.tile v) ∧ n = { s with cores := n.cores, tiles := n.tiles }) ∧
      (s.coreHolds core = true → x.handler = false →
        ∃ n, exec (.lCredReqWrite core (BitVec.ofNat 12 t) slip bytes) s = .next n ∧ coreFaulted s n core 4 0 (base + 0x30)) ∧
      (x.cred ≠ none → x.credRec = none → ∃ n, exec (.lCredResultRead core) s = .next n ∧ only n ∧
        n.core core = { x with credWait := true }) ∧
      (x.credRec = some r → ∃ n, exec (.lCredResultRead core) s = .next n ∧ only n ∧
        n.core core = { x with rdata := leBytes (x.credCode + 16 * r) 8 }) ∧
      (x.handler = false → (data.length = 32 ∨ data.length = 64) → j.toNat % data.length = 0 → x.cred = none →
        ∃ n, exec (.creditApertureStore core j data) s = .next n ∧ coreFaulted s n core 4 0 (base + 0x80000 + j.toNat)) ∧
      (x.handler = false → data.length ≠ 32 → data.length ≠ 64 →
        ∃ n, exec (.creditApertureStore core j data) s = .next n ∧ coreFaulted s n core 0x19 0 (base + 0x80000 + j.toNat)) ∧
      (x.cred = some (t, slip.val, len) → x.credRec = some r → r < 16 → (data.length = 32 ∨ data.length = 64) →
        j.toNat % data.length = 0 → s.credWriteCode t r 4 core j.toNat data.length = 0 →
        let sl := s.rd F.T_CRED_A_SLIP t r
        let start := s.rd F.T_CRED_A_START t r
        s.slipSize t sl % 64 = 0 → s.slipSize t sl ≠ 0 → start % 64 = 0 → start + j.toNat < 2 ^ 32 →
        let at_ := spad t (s.rd F.SLIP_BASE_BASE t sl + (start + j.toNat) % s.slipSize t sl)
        let last := j.toNat + data.length = len
        ∃ n, exec (.creditApertureStore core j data) s = .next n ∧ (∀ i < data.length, n.byte (at_ + i) = data.getD i 0) ∧
          memBut at_ data.length s n ∧ n.rd F.T_CRED_A_STATE t r = (if last then 2 else 1) ∧ others n ∧
          n.core core = (if last then { x with cred := none, credRec := none } else x) ∧
          (∀ v, v ≠ t → n.tile v = s.tile v) ∧ regsBut [F.T_CRED_B_WRITTEN.key t r, F.T_CRED_A_STATE.key t r] s n ∧
          n = { s with rf := n.rf, mem := n.mem, tiles := n.tiles, cores := n.cores })) ∧
    (s.hub.answers.find? (fun w => w.cls == 1 && w.unit == core.val && w.op == 3) = some a → x.soWait = some (a.obj, b, 0) →
      s.isFenced 1 core = false →
      let hub := { s.hub with answers := dropFirst (fun w => w == a) s.hub.answers }
      (b = false → ∃ n, exec (.landingSowaitAnswer core) s = .next n ∧ n.hub = hub ∧ others n ∧
        n.core core = { x with soWait := some (a.obj, false, a.code) } ∧ n = { s with hub := n.hub, cores := n.cores }) ∧
      (b = true → a.code ≤ 3 → ∃ n, exec (.landingSowaitAnswer core) s = .next n ∧ n.hub = hub ∧ others n ∧
        n.rd F.L_SOWAIT_RESULT_RESULT core = a.code ∧ n.core core = { x with soWait := none, rdata := leBytes a.code 8 } ∧
        regsBut [res] s n ∧ n = { s with rf := n.rf, hub := n.hub, cores := n.cores })) ∧
    (x.soWait = some (o, true, 0) →
      (s.rd F.L_SOWAIT_LIMIT_LC core ≠ 0 → ∃ n, exec (.lSowaitLimitExpire core) s = .next n ∧
        n.rd F.L_SOWAIT_RESULT_RESULT core = 3 ∧ n.core core = { x with soWait := none, rdata := leBytes 3 8 } ∧ others n ∧
        (∀ w ∈ n.hub.waits ++ n.hub.inbox, ¬ mine w.cls w.unit w.op) ∧ regsBut [res] s n ∧
        n = { s with rf := n.rf, hub := n.hub, cores := n.cores }) ∧
      (s.rd F.L_SOWAIT_LIMIT_LC core = 0 → exec (.lSowaitLimitExpire core) s = .next s)) ∧
    (s.rd F.L_STATUS_SUPER core = 0 →
      (x.soWait = some (o, true, 0) → ∃ n, exec (.taskPreempt core) s = .next n ∧ n.rd F.L_STATUS_SUPER core = 1 ∧
        n.core core = { x with credWait := false, soWait := some (o, false, 0) } ∧ others n ∧
        regsBut [F.L_STATUS_SUPER.key core 0] s n ∧ n = { s with rf := n.rf, cores := n.cores }) ∧
      (x.soWait = none → x.credWait = false → exec (.taskPreempt core) s = .next s))

/-- GO of an acceptable declaration by a ready core makes the slot ACTIVE with its stream as translated; another faults
STREAM at BASE. The next line of a read stream within LEAD of the furthest byte read enters the cache, is ready,
counted and charged. CANCEL of a read stream frees the slot, its unread lines counted. By a core in supervisor mode: a
cache operation with none running stores range and OP and clears DONE; when it is done a written-back line is clean
and on its way to its quay, an invalidated one gone, DONE 1. A new LSRAM, at most 16, is stored with no task running,
the cache empty. The epoch flip needs the next EPOCH and the other LIVE: both are stored and counted; else EPOCH_SEQ.
A task is refused with PRIVILEGE. Commands: streamDeclare, streamCancel, streamLineFill, epochFlip, cacheOpWriteback,
cacheOpInvalidate, cacheOpWritebackInvalidate, cacheOpDone, lCfgLsramWrite. -/
def Obligations.StreamsCacheAndEpoch : Prop :=
  ∀ (s : State) (core : CoreId) (slot : BitVec 3) (value : BitVec 64) (base : BitVec 42) (lines : BitVec 34) (lsram : BitVec 5)
      (a q d : Nat) (y : Stream) (l : CLine),
    let x := s.core core
    let j := slot.toNat
    let v := value.toNat
    let others := fun (n : State) => ∀ u, u ≠ core.val → n.core u = s.core u
    let field := fun (f : Fld) => s.rd f core j
    let cop := [F.L_CACHE_OP_A_BASE.key 0 0, F.L_CACHE_OP_B_LINES.key 0 0, F.L_CACHE_OP_B_OP.key 0 0, F.L_CACHE_OP_B_DONE.key 0 0]
    let cl := Blk.cluster.base 0
    (s.coreReady core = true →
      (s.streamOk core j = some a →
        ∃ n, exec (.streamDeclare core slot) s = .next n ∧ n.rd F.L_STRM_CTL_ACTIVE core j = 1 ∧ others n ∧
          n.core core = { x with streams := x.streams ++ [⟨j, field F.L_STRM_CTL_DIR == 1, a, field F.L_STRM_SHAPE_ROWLINES,
            field F.L_STRM_SHAPE_ROWS, field F.L_STRM_STRIDE_STRIDE, field F.L_STRM_CTL_LEAD, 0, [], [], 0, []⟩] } ∧ regsBut [F.L_STRM_CTL_ACTIVE.key core j] s n ∧
          n = { s with rf := n.rf, cores := n.cores }) ∧
      (s.streamOk core j = none → x.handler = false →
        ∃ n, exec (.streamDeclare core slot) s = .next n ∧ coreFaulted s n core 0x17 0 (field F.L_STRM_BASE_BASE)) ∧
      (s.rd F.L_STATUS_SUPER core = 1 →
        (s.rd F.L_CACHE_OP_B_DONE = 1 → ∀ i op, (i, op) ∈ [(Instr.cacheOpWriteback core base lines, 1),
            (.cacheOpInvalidate core base lines, 2), (.cacheOpWritebackInvalidate core base lines, 3)] →
          ∃ n, exec i s = .next n ∧ n.rd F.L_CACHE_OP_A_BASE = base.toNat ∧ n.rd F.L_CACHE_OP_B_LINES = lines.toNat ∧
            n.rd F.L_CACHE_OP_B_OP = op ∧ n.rd F.L_CACHE_OP_B_DONE = 0 ∧ regsBut cop s n ∧ n = { s with rf := n.rf }) ∧
        (min lsram.toNat 16 ≠ s.rd F.L_CFG_LSRAM → (∀ u < 16, s.rd F.L_STATUS_SUPER u = 1) → (∀ z ∈ s.cache, z.addr < sramBase) →
          ∃ n, exec (.lCfgLsramWrite core lsram) s = .next n ∧ n.rd F.L_CFG_LSRAM = min lsram.toNat 16 ∧ n.cache = [] ∧
            regsBut [F.L_CFG_LSRAM.key 0 0] s n ∧ n = { s with rf := n.rf, cache := n.cache, quays := n.quays, free := n.free }) ∧
        (v % 2 ^ 32 = (s.rd F.L_EPOCH_EPOCH + 1) % 2 ^ 32 → (value.getLsbD 32).toNat ≠ s.rd F.L_EPOCH_LIVE →
          ∃ n, exec (.epochFlip core value) s = .next n ∧ n.rd F.L_EPOCH_EPOCH = v % 2 ^ 32 ∧
            n.rd F.L_EPOCH_LIVE = (value.getLsbD 32).toNat ∧
            n.rd F.L_EPOCH_FLIPS_COUNT = (s.rd F.L_EPOCH_FLIPS_COUNT + 1) % 2 ^ 48 ∧
            regsBut [F.L_EPOCH_EPOCH.key 0 0, F.L_EPOCH_LIVE.key 0 0, F.L_EPOCH_FLIPS_COUNT.key 0 0] s n ∧
            n = { s with rf := n.rf }) ∧
        (v % 2 ^ 32 ≠ (s.rd F.L_EPOCH_EPOCH + 1) % 2 ^ 32 ∨ (value.getLsbD 32).toNat = s.rd F.L_EPOCH_LIVE → x.handler = false →
          ∃ n, exec (.epochFlip core value) s = .next n ∧ coreFaulted s n core 0x18 0 (cl + 8))) ∧
      (s.rd F.L_STATUS_SUPER core = 0 →
        (∃ n, exec (.lCfgLsramWrite core lsram) s = .next n ∧ coreFaulted s n core 0x13 0 cl) ∧
        (∀ i ∈ [Instr.cacheOpWriteback core base lines, .cacheOpInvalidate core base lines,
            .cacheOpWritebackInvalidate core base lines],
          ∃ n, exec i s = .next n ∧ coreFaulted s n core 0x13 0 (cl + 0x20)))) ∧
    (x.streams = [y] → y.slot = j → y.wr = false → y.part = [] →
      (y.next < y.total → y.next < y.far + y.lead * 64 → y.next ∉ y.seen → s.line (y.lineAddr y.next) = none →
        y.lineAddr y.next % 64 = 0 → s.gmap (y.lineAddr y.next) = some (q, d) → s.cache.length < s.cacheLines →
        (s.quay q).edcBad = false →
        ∃ n, exec (.streamLineFill core ⟨slot, .ok⟩) s = .next n ∧ others n ∧
          n.core core = { x with streams := [{ y with next := y.next + 1, ready := y.ready ++ [y.next] }] } ∧
          n.cache = s.cache ++ [⟨y.lineAddr y.next, s.gbytes (y.lineAddr y.next) 64, false, false⟩] ∧
          n.rd F.L_PF_COUNT core 0 = (s.rd F.L_PF_COUNT core 0 + 1) % 2 ^ 48 ∧
          n.rd F.Q_RD_BYTES_BYTES q = (s.rd F.Q_RD_BYTES_BYTES q + 64) % 2 ^ F.Q_RD_BYTES_BYTES.width ∧
          regsBut [F.L_PF_COUNT.key core 0, F.Q_RD_BYTES_BYTES.key q 0, F.Q_RING_BYTES_BYTES.key q 0,
            F.PT_ACC_QBYTES_BYTES.key 0 (64 * s.chargeTo (s.corePart core) + q)] s n ∧
          n.quay q = { s.quay q with retries := 0 } ∧ (∀ u, u ≠ q → n.quay u = s.quay u) ∧
          n = { s with rf := n.rf, cores := n.cores, cache := n.cache, quays := n.quays, power := { s.power with weights := n.power.weights } }) ∧
      (∃ n, exec (.streamCancel core slot) s = .next n ∧ n.core core = { x with streams := [] } ∧ others n ∧
        n.rd F.L_STRM_CTL_ACTIVE core j = 0 ∧ n.rd F.L_PF_COUNT core 2 = (s.rd F.L_PF_COUNT core 2 + y.ready.length) % 2 ^ 48 ∧
        regsBut [F.L_STRM_CTL_ACTIVE.key core j, F.L_PF_COUNT.key core 2] s n ∧ n = { s with rf := n.rf, cores := n.cores })) ∧
    (s.rd F.L_CACHE_OP_B_DONE = 0 → s.cache = [l] → l.addr < sramBase →
      s.rd F.L_CACHE_OP_A_BASE ≤ l.addr / 64 → l.addr / 64 < s.rd F.L_CACHE_OP_A_BASE + s.rd F.L_CACHE_OP_B_LINES →
      let op := s.rd F.L_CACHE_OP_B_OP
      let back := op % 2 = 1 ∧ l.dirty = true ∧ l.locked = false
      ∃ n, exec .cacheOpDone s = .next n ∧ n.rd F.L_CACHE_OP_B_DONE = 1 ∧
        (0 < s.cacheLines → n.cache = if 2 ≤ op then [] else [if back then { l with dirty := false } else l]) ∧
        n.quays = (if back then (s.gpost l.addr l.data 6 0).quays else s.quays) ∧
        regsBut [F.L_CACHE_OP_B_DONE.key 0 0] s n ∧ n = { s with rf := n.rf, cache := n.cache, quays := n.quays, free := n.free })

/-- Roster commands complete with DONE 1 and their RESULT. ADMIT of a DONE entry that passes the checks gives it the
state, flags, MINEPOCH and EPOCH cleared (an entry not DONE: 1; a check failed: 2). CANCEL stops a live entry with
reason 4, or marks it while a commit is outstanding; HARVEST returns a STOPPING entry to DONE. A word of a DONE entry
is written by a core in supervisor mode; of a live one it faults with code 1. BUILD triggers phase 1, FINALIZE ends
the build early. Phase 1 with no entry to visit makes the next list; on completion it reads L_EPOCH, or waits for log
room, which its coming ends. A ready list with nothing outstanding becomes the current one. A commit is queued, or
refused with its code; applied, it lengthens its entry, logs and counts, and stops it for its reason. A page pushed
goes to the tail of the ring; one popped leaves its head. Commands: admitPrefill, admitDecode, rosCancel, harvest,
rosterEntryWrite, rosBuild, rosFinalize, phase1Begin, phase1Complete, logSpaceAvailable, listPublish, commitReceive,
commitApply, rosPoolPush, rosPoolPop. -/
def Obligations.RosterAdmitsBuildsAndCommits : Prop :=
  ∀ (s : State) (slot entry : BitVec 14) (core : CoreId) (word : BitVec 4) (value page : BitVec 32) (t : TileId)
      (l b : RList) (c : Commit) (rest : List Commit) (rc : RRec),
    let e := slot.toNat
    let k := fun (w : Nat) => F.ROS_ENT.key 0 (16 * e + w)
    let ks := [F.ROS_CMD_SLOT.key 0 0, F.ROS_CMD_OP.key 0 0, F.ROS_CMD_RESULT.key 0 0, F.ROS_CMD_DONE.key 0 0]
    let st := [F.ROS_STATUS_PHASE.key 0 0, F.ROS_STATUS_PENDING.key 0 0]
    let did := fun (n : State) (op res : Nat) => n.rd F.ROS_CMD_SLOT = e ∧ n.rd F.ROS_CMD_OP = op ∧
      n.rd F.ROS_CMD_RESULT = res ∧ n.rd F.ROS_CMD_DONE = 1
    let none' := fun (i : Instr) (op res : Nat) => ∃ n, exec i s = .next n ∧ did n op res ∧ regsBut ks s n ∧ n = { s with rf := n.rf }
    let waiting := fun (l : RList) => (l.records.filter fun r => !r.void && !r.applied).length
    (∀ i op, (i, op) ∈ [(Instr.admitPrefill slot, 1), (.admitDecode slot, 2)] →
      (s.entState e = 0 → s.admitOk e = true → (op = 2 → s.ent e 8 < 262144) →
        ∃ n, exec i s = .next n ∧ did n op 0 ∧ n.entState e = op ∧ n.ctl1 e 2 8 = 0 ∧ n.ctl1 e 10 22 = s.ctl1 e 10 22 ∧
          n.ent e 2 = 0 ∧ n.ent e 3 = 0 ∧ regsBut (k 1 :: k 2 :: k 3 :: ks) s n ∧ n = { s with rf := n.rf }) ∧
      (s.entState e ≠ 0 → none' i op 1) ∧
      (s.entState e = 0 → s.admitOk e = false ∨ op = 2 ∧ 262144 ≤ s.ent e 8 → none' i op 2)) ∧
    (s.entState e ∈ [1, 2] → s.outstanding e = false →
      ∃ n, exec (.rosCancel slot) s = .next n ∧ did n 3 0 ∧ n.entState e = 3 ∧ n.ctl1 e 7 3 = 4 ∧ n.ctl1 e 2 5 = s.ctl1 e 2 5 ∧
        n.ctl1 e 10 22 = s.ctl1 e 10 22 ∧ n.roster = { s.roster with build := s.roster.build.map fun b =>
                                                        { b with records := b.records.map fun r =>
                                                                   if r.slot = e then { r with left := true } else r } } ∧
        regsBut (k 1 :: ks) s n ∧ n = { s with rf := n.rf, roster := n.roster }) ∧
    (s.entState e ∈ [1, 2] → s.outstanding e = true →
      ∃ n, exec (.rosCancel slot) s = .next n ∧ did n 3 0 ∧ n.ctl1 e 6 1 = 1 ∧ n.ctl1 e 0 6 = s.ctl1 e 0 6 ∧
        n.ctl1 e 7 25 = s.ctl1 e 7 25 ∧ regsBut (k 1 :: ks) s n ∧ n = { s with rf := n.rf }) ∧
    (s.entState e ∈ [0, 3] → none' (.rosCancel slot) 3 1) ∧
    (s.entState e = 3 →
      ∃ n, exec (.harvest slot) s = .next n ∧ did n 4 0 ∧ n.entState e = 0 ∧ n.ctl1 e 2 30 = s.ctl1 e 2 30 ∧
        regsBut (k 1 :: ks) s n ∧ n = { s with rf := n.rf }) ∧
    (s.entState e ≠ 3 → none' (.harvest slot) 4 1) ∧
    (s.coreReady core = true →
      let w := F.ROS_ENT.key 0 (16 * entry.toNat + word.toNat)
      let a := 0x3800_0040_0000 + 64 * entry.toNat + 4 * word.toNat
      (s.rd F.L_STATUS_SUPER core = 1 → s.entState entry.toNat = 0 ∨ s.rd F.ROS_CTL_EN = 0 →
        ∃ n, exec (.rosterEntryWrite core entry word value) s = .next n ∧ n.ent entry.toNat word.toNat = value.toNat ∧
          regsBut [w] s n ∧ n = { s with rf := n.rf }) ∧
      (s.rd F.L_STATUS_SUPER core = 1 → s.entState entry.toNat ≠ 0 → s.rd F.ROS_CTL_EN ≠ 0 → (s.core core).handler = false →
        ∃ n, exec (.rosterEntryWrite core entry word value) s = .next n ∧ coreFaulted s n core 1 0 a) ∧
      (s.rd F.L_STATUS_SUPER core = 0 → (s.core core).handler = false →
        ∃ n, exec (.rosterEntryWrite core entry word value) s = .next n ∧ coreFaulted s n core 0x10 0 a)) ∧
    (s.rd F.ROS_CTL_EN = 1 → s.roster.build = none → s.roster.trig = false → s.roster.cur = none →
      exec .rosBuild s = .next { s with roster := { s.roster with trig := true } }) ∧
    (s.roster.build = some b → exec .rosFinalize s = .next { s with roster := { s.roster with build := some { b with final := true } } }) ∧
    (s.roster.build = none → exec .rosFinalize s = .next s) ∧
    (s.roster.trig = true → s.roster.build = none → s.rd F.ROS_CTL_EN = 1 → s.visitOrder = [] →
      let l0 : RList := { num := (s.rd F.ROS_LISTNO_CURRENT + 1) % 2 ^ 32, lanes := s.rd F.ROS_WL_GEOM_NLANES, began := s.tick }
      ∃ n, exec .phase1Begin s = .next n ∧ n.rd F.ROS_STATUS_PHASE = 1 ∧
        n.roster = { s.roster with trig := false, build := some l0 } ∧
        regsBut st s n ∧ n = { s with rf := n.rf, roster := n.roster }) ∧
    (s.roster.build = some b → b.ready = false → s.rd F.ROS_STATUS_LOGWAIT = 0 →
      (s.logRoom b.records.length = false →
        ∃ n, exec .phase1Complete s = .next n ∧ n.rd F.ROS_STATUS_LOGWAIT = 1 ∧ regsBut [F.ROS_STATUS_LOGWAIT.key 0 0] s n ∧
          n = { s with rf := n.rf }) ∧
      (s.logRoom b.records.length = true → b.voided = false →
        let b' := { b with epoch := s.rd F.L_EPOCH_EPOCH, live := s.rd F.L_EPOCH_LIVE, ready := true }
        ∃ n, exec .phase1Complete s = .next n ∧ n.roster = { s.roster with build := some b' } ∧ n.rd F.ROS_STATUS_PHASE = 2 ∧
          n.rd F.ROS_BUILD_QC_QC = qcOf (s.tick - b.began) % 2 ^ 32 ∧ n.quays = (s.writeList b').quays ∧
          regsBut (F.ROS_BUILD_QC_QC.key 0 0 :: st) s n ∧ n = { s with rf := n.rf, quays := n.quays, roster := n.roster })) ∧
    (s.roster.build = some b → s.rd F.ROS_STATUS_LOGWAIT = 1 → s.logRoom b.records.length = true →
      ∃ n, exec .logSpaceAvailable s = .next n ∧ n.rd F.ROS_STATUS_LOGWAIT = 0 ∧ regsBut [F.ROS_STATUS_LOGWAIT.key 0 0] s n ∧
        n = { s with rf := n.rf }) ∧
    (s.roster.build = some b → b.voided = true → s.unretired 7 0 = false → (∀ r ∈ b.records, r.void = false) →
      ∃ n, exec .listPublish s = .next n ∧ n.roster = { s.roster with cur := some b, build := none } ∧
        n.rd F.ROS_LISTNO_CURRENT = b.num % 2 ^ 32 ∧ n.rd F.ROS_LISTS_COUNT = (s.rd F.ROS_LISTS_COUNT + 1) % 2 ^ 48 ∧
        n.rd F.ROS_STATUS_PHASE = 0 ∧ n.rd F.ROS_STATUS_PENDING = waiting b % 2 ^ 32 ∧
        n.quays = (s.rosPut (s.bufBase b) (listHead b true)).quays ∧
        n.hub.inbox = s.hub.inbox ++ (if s.rd F.ROS_DONE_OBJ_EN = 1 then [⟨7, 0, 1, s.rd F.ROS_DONE_OBJ_OBJ, 1, 4, true, 0, false⟩] else []) ∧
        regsBut (F.ROS_LISTNO_CURRENT.key 0 0 :: F.ROS_LISTS_COUNT.key 0 0 :: st) s n ∧
        n = { s with rf := n.rf, quays := n.quays, roster := n.roster, hub := { s.hub with inbox := n.hub.inbox },
                     power := { s.power with state := n.power.state } }) ∧
    (s.roster.inflight = [c] → c.tile = t.val → s.roster.cur = some l →
      (l.records.find? fun r => r.lane == c.lane && r.recNo == c.recNo) = some rc →
      let code := if s.rd F.ROS_CTL_EN = 0 then 6 else if c.listno ≠ s.rd F.ROS_LISTNO_CURRENT then 1 else if rc.void then 3
        else if rc.applied ∨ s.roster.commits.any (fun d => d.lane == c.lane && d.recNo == c.recNo) = true then 4
        else if 262144 ≤ c.token then 5 else 0
      (code = 0 → s.roster.commits.length < 1024 →
        exec (.commitReceive t) s = .next { s with roster := { s.roster with inflight := [], commits := s.roster.commits ++ [c] } }) ∧
      (code ≠ 0 →
        ∃ n, exec (.commitReceive t) s = .next n ∧ n.rd F.ROS_REFUSED_COUNT = (s.rd F.ROS_REFUSED_COUNT + 1) % 2 ^ 48 ∧
          n.roster = { s.roster with inflight := [], refused := s.roster.refused ++ [(t.val, c.addr, code)] } ∧
          regsBut [F.ROS_REFUSED_COUNT.key 0 0] s n ∧ n = { s with rf := n.rf, roster := n.roster })) ∧
    (s.roster.commits = c :: rest → s.roster.cur = some l → s.roster.build = none → rc.slot = e → s.entState e ∈ [1, 2] →
      (l.records.find? fun r => r.lane == c.lane && r.recNo == c.recNo) = some rc → s.entLen e + 1 < 2 ^ 21 →
      let mixed := if s.ctl1 e 3 1 = 1 ∧ s.ent e 3 ≠ l.epoch then 1 else s.ctl1 e 2 1
      let reason := if ([12, 13, 14, 15].any fun w => s.ent e w == c.token) = true then 1
        else if s.entLen e + 1 = bits (s.ent e 5) 0 21 then 2 else if s.ctl1 e 6 1 = 1 then 4 else 0
      let l' := { l with records := l.records.map fun r => if r == rc then { r with applied := true } else r }
      let at' := s.rd F.ROS_LOG_BASE_BASE + 32 * (s.rd F.ROS_LOG_HEAD_COUNT % max 1 (s.rd F.ROS_LOG_CFG_SIZE))
      ∃ n, exec .commitApply s = .next n ∧ n.entLen e = s.entLen e + 1 ∧ n.ent e 8 = c.token % 2 ^ 32 ∧
        n.ent e 2 = l.epoch % 2 ^ 32 ∧ (s.ctl1 e 3 1 = 0 → n.ent e 3 = l.epoch % 2 ^ 32) ∧
        (s.ctl1 e 3 1 = 1 → n.ent e 3 = s.ent e 3) ∧ n.ctl1 e 3 1 = 1 ∧ n.ctl1 e 2 1 = mixed ∧
        n.entState e = (if reason = 0 then 2 else 3) ∧ (reason ≠ 0 → n.ctl1 e 7 3 = reason) ∧
        n.rd F.ROS_LOG_HEAD_COUNT = (s.rd F.ROS_LOG_HEAD_COUNT + 1) % 2 ^ 32 ∧
        n.rd F.ROS_COMMITS_COUNT = (s.rd F.ROS_COMMITS_COUNT + 1) % 2 ^ 48 ∧
        n.quays = (s.rosPut at' (logBytes (s.ent e 0) e reason mixed (s.entLen e) c.token l.epoch c.prob l.num)).quays ∧
        n.roster = { s.roster with commits := rest, cur := some l', trig := s.roster.trig || !l.records.any fun r => r.applied } ∧
        n.rd F.ROS_STATUS_PENDING = waiting l' % 2 ^ 32 ∧
        regsBut (k 1 :: k 2 :: k 3 :: k 4 :: k 8 :: F.ROS_LOG_HEAD_COUNT.key 0 0 :: F.ROS_COMMITS_COUNT.key 0 0 :: st) s n ∧
        n = { s with rf := n.rf, quays := n.quays, roster := n.roster }) ∧
    (let fill := s.rd F.ROS_POOL_FILL_FILL
     let size := s.rd F.ROS_POOL_CFG_SIZE
     (page.toNat < s.rd F.ROS_POOL_CFG_NPAGES → fill < size →
        ∃ n, exec (.rosPoolPush page) s = .next n ∧ n.rd F.ROS_POOL_FILL_FILL = (fill + 1) % 2 ^ 24 ∧
          n.quays = (s.gpost (s.rd F.ROS_POOL_BASE_BASE + 4 * ((s.roster.poolHead + fill) % max 1 size)) (leBytes page.toNat 4) 7 0).quays ∧
          regsBut [F.ROS_POOL_FILL_FILL.key 0 0] s n ∧ n = { s with rf := n.rf, quays := n.quays }) ∧
      (s.rd F.ROS_POOL_CFG_NPAGES ≤ page.toNat ∨ size ≤ fill →
        ∃ n, exec (.rosPoolPush page) s = .next n ∧ n.rd F.ROS_POOL_FILL_REJECT = 1 ∧ regsBut [F.ROS_POOL_FILL_REJECT.key 0 0] s n ∧
          n = { s with rf := n.rf }) ∧
      (fill = 0 →
        ∃ n, exec .rosPoolPop s = .next n ∧ n.rd F.ROS_POOL_POP_PAGE = 0xFFFF_FFFF ∧ regsBut [F.ROS_POOL_POP_PAGE.key 0 0] s n ∧
          n = { s with rf := n.rf }) ∧
      (0 < fill →
        ∃ n, exec .rosPoolPop s = .next n ∧ n.rd F.ROS_POOL_FILL_FILL = (fill - 1) % 2 ^ 24 ∧
          n.rd F.ROS_POOL_POP_PAGE = s.rosWord (s.rd F.ROS_POOL_BASE_BASE + 4 * (s.roster.poolHead % max 1 size)) % 2 ^ 32 ∧
          n.roster = { s.roster with poolHead := (s.roster.poolHead + 1) % max 1 size } ∧
          regsBut [F.ROS_POOL_FILL_FILL.key 0 0, F.ROS_POOL_POP_PAGE.key 0 0] s n ∧
          n = { s with rf := n.rf, roster := n.roster }))

/-- CABLE_INSERT sets CABLE, and LOWPOWER for a class above 1.5 W, whose port is reported unusable; with the die off only
the cage's signals move. An enabled DOWN port with an admitted cable and a mode other than off starts training;
trained, it enters HELLO. In HELLO or REFUSED the timer sends one HELLO frame to 4,095. A HELLO received in HELLO
records the peer and takes the port to UP with SEQ 0 and credits of the peer's buffers where the guard admits it, to
REFUSED otherwise; in any other state it only frees its words. A port in TRAINING, HELLO or UP goes DOWN on lock loss
(1), the FEC limit (2, 17 codewords counted), the cable's removal (4), signal loss (5) and FL_CTL.DOWN (6): LASTDOWN
records it, both replay flags clear, queued frames are discarded and counted, and the event is logged; DISABLED and
DOWN ports keep their state, a REFUSED one leaves it for the cable alone. Other ports are untouched. Commands:
cableInsert, cableRemove, linkTrainAttempt, linkTrained, helloSendTimer, helloReceive, fecLockLoss, fecErrorLimit,
peerSignalLoss, flCtlDown. -/
def Obligations.FabricPortsComeUpAndGoDown : Prop :=
  ∀ (s : State) (port : PortId) (mw : Nat) (sysid : BitVec 64) (endpoint : BitVec 12) (peerPort : BitVec 4) (buf0 buf1 : BitVec 16),
    let k := port.val
    let st := s.plState k
    let p := s.port k
    let b := helloOf sysid.toNat endpoint.toNat peerPort.toNat buf0.toNat buf1.toNat
    let hello := Instr.helloReceive port sysid endpoint peerPort buf0 buf1
    let f := mkFrame 1 0 s.boot.modnum 4095 (s.helloBody k)
    let kst := F.FL_STATUS_STATE.key k 0
    let kdown := [kst, F.FL_STATUS_LASTDOWN.key k 0, F.FL_STATUS_TXREPLAY.key k 0, F.FL_STATUS_RXREPLAY.key k 0,
      F.FL_DISCARDS_FRAMES.key k 0, F.FL_DOWNS_COUNT.key k 0] ++ eventKeys
    let moved := fun (n : State) (v : Nat) => n.plState k = v ∧ regsBut [kst] s n ∧ n = { s with rf := n.rf }
    let kcab := [F.FL_STATUS_CABLE.key k 0, F.FL_STATUS_LOWPOWER.key k 0]
    (s.pins.pwrGood = true → ∃ n, exec (.cableInsert port mw) s = .next n ∧ n.rd F.FL_STATUS_CABLE k = 1 ∧
      n.rd F.FL_STATUS_LOWPOWER k = (if 1500 < mw then 1 else 0) ∧ n.ctl.unusable.testBit k = decide (1500 < mw) ∧
      n.pins.cagePrs.testBit k = true ∧ n.pins.cageLpw.testBit k = decide (1500 < mw) ∧ regsBut kcab s n ∧
      n = { s with rf := n.rf, pins := n.pins, ctl := n.ctl }) ∧
    (s.pins.pwrGood = false →
      (∃ n, exec (.cableInsert port mw) s = .next n ∧ n.pins.cagePrs.testBit k = true ∧ n = { s with pins := n.pins }) ∧
      (∃ n, exec (.cableRemove port) s = .next n ∧ n.pins.cagePrs.testBit k = false ∧ n = { s with pins := n.pins })) ∧
    (st = 1 → s.rd F.FL_CTL_EN k = 1 → s.rd F.FL_STATUS_CABLE k = 1 → s.rd F.FL_STATUS_LOWPOWER k = 0 →
      aget 0 s.boot.portMode k ≠ 0 → ∃ n, exec (.linkTrainAttempt port) s = .next n ∧ moved n 2) ∧
    (st ≠ 1 → exec (.linkTrainAttempt port) s = .next s) ∧
    (st = 2 → ∃ n, exec (.linkTrained port) s = .next n ∧ moved n 3) ∧ (st ≠ 2 → exec (.linkTrained port) s = .next s) ∧
    (st = 3 ∨ st = 5 → aget 0 s.boot.portMode k ≠ 0 →
      ∃ n, exec (.helloSendTimer port) s = .next n ∧ n.port k = { p with wire := p.wire ++ [f] } ∧ f.length = 64 ∧
        (∀ u, u ≠ k → n.port u = s.port u) ∧ n.rd F.FL_TX_WORDS_WORDS k = (s.rd F.FL_TX_WORDS_WORDS k + 1) % 2 ^ 48 ∧
        regsBut [F.FL_TX_WORDS_WORDS.key k 0] s n ∧ n = { s with rf := n.rf, ports := n.ports }) ∧
    (st = 3 →
      let ok := s.guardAdmits k sysid.toNat endpoint.toNat
      let q := (s.actedOn k 1 b).port k
      ∃ n, exec hello s = .next n ∧ n.plState k = (if ok then 4 else 5) ∧ n.rd F.FL_STATUS_PEER k = endpoint.toNat ∧
        n.rd F.FL_STATUS_PEERPORT k = peerPort.toNat ∧ (∀ u, u ≠ k → n.port u = s.port u) ∧
        n.port k = (if ok then { p with txSeq := 0, rxSeq := 0, ackSeq := 65535, credit0 := buf0.toNat, credit1 := buf1.toNat,
                                        seen0 := 0, seen1 := 0, freed0 := 0, freed1 := 0, nakFor := none, resendTo := none,
                                        unacked := 0, inbox := [] } else q) ∧
        regsBut [kst, F.FL_STATUS_PEER.key k 0, F.FL_STATUS_PEERPORT.key k 0] s n ∧ n = { s with rf := n.rf, ports := n.ports }) ∧
    (st ≠ 3 → exec hello s = .next (s.actedOn k 1 b)) ∧
    (∀ i reason, (i, reason) ∈ [(Instr.fecLockLoss port, 1), (.fecErrorLimit port, 2), (.cableRemove port, 4),
        (.peerSignalLoss port, 5), (.flCtlDown port, 6)] →
      let caged := fun (n : State) => if reason = 4 then { s with pins := n.pins, ctl := n.ctl } else s
      let more := if reason = 2 then [F.FL_FEC_UNCORR_CODEWORDS.key k 0] else if reason = 4 then kcab else []
      let side := fun (n : State) =>
        (reason = 2 → n.rd F.FL_FEC_UNCORR_CODEWORDS k = (s.rd F.FL_FEC_UNCORR_CODEWORDS k + 17) % 2 ^ 48) ∧
        (reason = 4 → n.rd F.FL_STATUS_CABLE k = 0 ∧ n.rd F.FL_STATUS_LOWPOWER k = 0)
      (reason = 4 → s.pins.pwrGood = true) →
      (2 ≤ st → st ≤ 4 →
        ∃ n, exec i s = .next n ∧ n.plState k = 1 ∧ n.rd F.FL_STATUS_LASTDOWN k = reason ∧ n.rd F.FL_STATUS_TXREPLAY k = 0 ∧
          n.rd F.FL_STATUS_RXREPLAY k = 0 ∧ side n ∧
          n.rd F.FL_DISCARDS_FRAMES k = (s.rd F.FL_DISCARDS_FRAMES k + (p.replay.length + p.txq.length)) % 2 ^ 48 ∧
          n.rd F.FL_DOWNS_COUNT k = (s.rd F.FL_DOWNS_COUNT k + 1) % 2 ^ 48 ∧
          n.port k = { p with replay := [], txq := [], inbox := [], credit0 := 0, credit1 := 0, nakFor := none, resendTo := none,
                              unacked := 0 } ∧
          (∀ u, u ≠ k → n.port u = s.port u) ∧ logged1 s n 6 9 0x60 reason ∧ regsBut (more ++ kdown) s n ∧
          n = { caged n with rf := n.rf, ports := n.ports, fault := n.fault, ctl := n.ctl, pins := n.pins }) ∧
      (st ≤ 1 ∨ 5 ≤ st ∧ reason ≠ 4 → ∃ n, exec i s = .next n ∧ n.plState k = st ∧ side n ∧ regsBut more s n ∧ n = { caged n with rf := n.rf }) ∧
      (st = 5 → reason = 4 → ∃ n, exec i s = .next n ∧ n.plState k = 1 ∧ n.rd F.FL_STATUS_LASTDOWN k = 4 ∧ side n ∧
        regsBut (kst :: F.FL_STATUS_LASTDOWN.key k 0 :: more) s n ∧ n = { caged n with rf := n.rf }))

/-- On an UP port: the frame with the expected SEQ is accepted (payload kept, next SEQ expected), any other or one with a
bad CRC asks for a resend once with a NAK. An acknowledge word frees the frames it covers and gives the words its
counts have gained. FRAME_SEND sends the oldest control message with the next SEQ, spending its credits and keeping it
for replay, or drops it at the guard; without credits or room it waits. The replay timeout sends every unacknowledged
frame again in order, and one sent eight times brings the port DOWN with 3. The delay timeout and keep-alive send an
acknowledge word. CHCREDIT sets a TO_FABRIC channel's grant. The bytes a fetch request is due enter the object area at
their offset; its END completes it; an END with an error ends the load; a timeout sends it again on the next port
under a new REQID, the third ends the load. Commands: chcreditReceive, fetchDataReceive, fetchEndReceive,
fetchRequestTimeout, frameReceive, ackReceive, frameSend, replayTimeout, ackDelayTimeout, ackKeepalive. -/
def Obligations.FramesAreSequencedAcknowledgedAndReplayed : Prop :=
  ∀ (s : State) (port : PortId) (vc seq src dst ack c0 c1 off : Nat) (body : List Byte) (bad : List Byte) (f : TxFrame) (rest : List TxFrame)
      (chan : BitVec 4) (count reqid : BitVec 32) (o64 total : BitVec 64) (status : BitVec 8) (l : Load) (r : Fetch),
    let k := port.val
    let p := s.port k
    let others := fun (n : State) => ∀ u, u ≠ k → n.port u = s.port u
    let up := fun (g : Fld) (n : State) (d : Nat) => n.rd g k = (s.rd g k + d) % 2 ^ 48
    let krx := F.FL_RX_WORDS_WORDS.key k 0
    let ktx := F.FL_TX_WORDS_WORDS.key k 0
    let frame := mkFrame vc seq src dst body
    let word := fun (nak : Nat) => mkFrame 2 0 s.boot.modnum (s.rd F.FL_STATUS_PEER k)
      (leBytes ((p.rxSeq + 65535) % 65536 + 65536 * nak) 4 ++ leBytes p.freed0 4 ++ leBytes p.freed1 4 ++ List.replicate 40 0)
    (s.plState k = 4 → body.length ≤ 2048 → seq < 65536 → src < 4096 → dst < 4096 →
      (vc = 0 ∨ vc = 1 ∧ messageOk body = true → seq = p.rxSeq → p.unacked < 15 →
        ∃ n, exec (.frameReceive port frame) s = .next n ∧ others n ∧
          n.port k = { p with rxSeq := (p.rxSeq + 1) % 65536, unacked := p.unacked + 1, nakFor := none, inbox := p.inbox ++ [(vc, body)] } ∧
          up F.FL_RX_WORDS_WORDS n (frameWords body.length) ∧ n.rd F.FL_STATUS_RXREPLAY k = 0 ∧
          regsBut [krx, F.FL_STATUS_RXREPLAY.key k 0] s n ∧ n = { s with rf := n.rf, ports := n.ports }) ∧
      (p.nakFor ≠ some p.rxSeq → vc < 2 → seq ≠ p.rxSeq →
        ∃ n, exec (.frameReceive port frame) s = .next n ∧ others n ∧
          n.port k = { p with nakFor := some p.rxSeq, unacked := 0, wire := p.wire ++ [word 1] } ∧
          up F.FL_RX_WORDS_WORDS n (frameWords body.length) ∧ up F.FL_NAKS_COUNT n 1 ∧ up F.FL_TX_WORDS_WORDS n 1 ∧
          n.rd F.FL_STATUS_RXREPLAY k = 1 ∧ regsBut [krx, ktx, F.FL_NAKS_COUNT.key k 0, F.FL_STATUS_RXREPLAY.key k 0] s n ∧
          n = { s with rf := n.rf, ports := n.ports }) ∧
      (p.nakFor = some p.rxSeq → frameOk bad = false →
        ∃ n, exec (.frameReceive port bad) s = .next n ∧ up F.FL_RX_CRC_FRAMES n 1 ∧
          up F.FL_RX_WORDS_WORDS n ((bad.length + 63) / 64) ∧ regsBut [krx, F.FL_RX_CRC_FRAMES.key k 0] s n ∧ n = { s with rf := n.rf }) ∧
      (ack < 65536 → c0 < 2 ^ 32 → c1 < 2 ^ 32 → p.resendTo = none → (ack + 65536 - p.ackSeq) % 65536 ≤ p.replay.length →
        ∃ n, exec (.ackReceive port (mkFrame 2 0 src dst (leBytes ack 4 ++ leBytes c0 4 ++ leBytes c1 4 ++ List.replicate 40 0))) s = .next n ∧
          others n ∧ n.port k = { p with credit0 := p.credit0 + (c0 + 2 ^ 32 - p.seen0) % 2 ^ 32, ackSeq := ack, seen0 := c0, seen1 := c1,
                                         credit1 := p.credit1 + (c1 + 2 ^ 32 - p.seen1) % 2 ^ 32,
                                         replay := p.replay.drop ((ack + 65536 - p.ackSeq) % 65536) } ∧
          up F.FL_RX_WORDS_WORDS n 1 ∧ regsBut [krx] s n ∧ n = { s with rf := n.rf, ports := n.ports }) ∧
      (p.txq = f :: rest → f.body.length ≤ 2048 →
        let w := frameWords f.body.length
        (s.guardPasses k f.dst = true → w ≤ p.credit1 → (p.replayWords + w) * 64 ≤ 262144 →
          ∃ n, exec (.frameSend port) s = .next n ∧ others n ∧
            n.port k = { p with txq := rest, txSeq := (p.txSeq + 1) % 65536, credit1 := p.credit1 - w,
                                replay := p.replay ++ [⟨p.txSeq, 1, f.dst, f.body, 1⟩],
                                wire := p.wire ++ [mkFrame 1 p.txSeq s.boot.modnum f.dst f.body] } ∧
            up F.FL_TX_WORDS_WORDS n w ∧ regsBut [ktx] s n ∧ n = { s with rf := n.rf, ports := n.ports }) ∧
        (s.guardPasses k f.dst = false →
          ∃ n, exec (.frameSend port) s = .next n ∧ others n ∧ n.port k = { p with txq := rest } ∧ up F.FL_GUARD_DROPS_FRAMES n 1 ∧
            regsBut [F.FL_GUARD_DROPS_FRAMES.key k 0] s n ∧ n = { s with rf := n.rf, ports := n.ports }) ∧
        (s.guardPasses k f.dst = true → p.credit1 < w ∨ 262144 < (p.replayWords + w) * 64 → exec (.frameSend port) s = .next s)) ∧
      (p.replay.getLast? = some f → (∀ g ∈ p.replay, g.body.length ≤ 2048) →
        ((∀ g ∈ p.replay, g.tries < 8) →
          ∃ n, exec (.replayTimeout port) s = .next n ∧ others n ∧
            n.port k = { p with replay := p.replay.map fun g => { g with tries := g.tries + 1 }, resendTo := some f.seq,
                                wire := p.wire ++ p.replay.map fun g => mkFrame g.vc g.seq s.boot.modnum g.dst g.body } ∧
            up F.FL_REPLAYS_COUNT n 1 ∧ up F.FL_REPLAY_WORDS_WORDS n p.replayWords ∧ up F.FL_TX_WORDS_WORDS n p.replayWords ∧
            n.rd F.FL_STATUS_TXREPLAY k = 1 ∧
            regsBut [ktx, F.FL_REPLAYS_COUNT.key k 0, F.FL_REPLAY_WORDS_WORDS.key k 0, F.FL_STATUS_TXREPLAY.key k 0] s n ∧
            n = { s with rf := n.rf, ports := n.ports }) ∧
        ((∃ g ∈ p.replay, 8 ≤ g.tries) →
          ∃ n, exec (.replayTimeout port) s = .next n ∧ n.plState k = 1 ∧ n.rd F.FL_STATUS_LASTDOWN k = 3 ∧ others n)) ∧
      (∀ i, i = Instr.ackDelayTimeout port ∧ 0 < p.unacked ∨ i = .ackKeepalive port →
        ∃ n, exec i s = .next n ∧ others n ∧ n.port k = { p with unacked := 0, wire := p.wire ++ [word 0] } ∧
          up F.FL_TX_WORDS_WORDS n 1 ∧ regsBut [ktx] s n ∧ n = { s with rf := n.rf, ports := n.ports })) ∧
    (s.plState k ≠ 4 → exec (.replayTimeout port) s = .next s ∧ exec (.ackKeepalive port) s = .next s ∧
      exec (.ackDelayTimeout port) s = .next s ∧ exec (.frameSend port) s = .next s) ∧
    (s.chanKind k chan.toNat = 2 →
      ∃ n, exec (.chcreditReceive port chan count) s = .next n ∧
        n.eng k = { s.eng k with chans := aput {} (s.eng k).chans chan.toNat { (s.eng k).chan chan.toNat with granted := count.toNat } } ∧
        (∀ u, u ≠ k → n.eng u = s.eng u) ∧ others n ∧ n = { s with engs := n.engs, ports := n.ports }) ∧
    (s.ctl.load = some l → l.reqs = [r] → r.id = reqid.toNat →
      (0 < body.length → body.length ≤ 2032 → o64.toNat = r.off + r.got → r.got + body.length ≤ r.len →
        ∃ n, exec (.fetchDataReceive port reqid o64 body) s = .next n ∧ n.mem = (s.gset (l.area + o64.toNat) body).mem ∧ others n ∧
          n.ctl = { s.ctl with load := some { l with reqs := [{ r with got := r.got + body.length }] } } ∧
          n = { s with mem := n.mem, ports := n.ports, ctl := n.ctl }) ∧
      (status.toNat ∈ [1, 2] → ∃ n, exec (.fetchEndReceive port reqid status total) s = .next n ∧ n.ctl.load = none ∧ n.mem = s.mem) ∧
      (l.next + 2 ^ 20 ≤ l.length → r.len ≤ r.got →
        ∃ n l', exec (.fetchEndReceive port reqid 0 total) s = .next n ∧ n.ctl.load = some l' ∧ n.mem = s.mem ∧
          (∃ q ∈ l'.reqs, q.off = l.next ∧ q.len = 2 ^ 20 ∧ q.got = 0 ∧ q.id = s.ctl.nextReq) ∧ l'.reqs.length ≤ 8) ∧
      (s.fetchPorts l.ingest = [off] →
        (r.tries < 2 →
          let r' : Fetch := ⟨s.ctl.nextReq, r.off, r.len, r.port + 1, r.tries + 1, 0⟩
          ∃ n, exec (.fetchRequestTimeout reqid) s = .next n ∧
            n.ctl = { s.ctl with load := some { l with reqs := [r'] }, nextReq := (s.ctl.nextReq + 1) % 2 ^ 32 } ∧
            n.port off = { s.port off with txq := (s.port off).txq ++ [⟨0, 1, l.ingest, fetchReq l.name r', 0⟩] } ∧
            (∀ u, u ≠ off → n.port u = s.port u) ∧ n = { s with ports := n.ports, ctl := n.ctl }) ∧
        (2 ≤ r.tries → ∃ n, exec (.fetchRequestTimeout reqid) s = .next n ∧ n.ctl.load = none ∧ n.mem = s.mem)))

/-- REGULATOR_ADMIT lets a waiting packet through once LEVEL covers it. At the end of a window the metered energy goes to
the one enabled partition's client by its weight and the rest to client 0, whole mJ counted. A clamp sample enters the
window of 400; LIMIT, WATTS and SEQ follow; the clamp asks for slack at 15 mJ below LIMIT times 1 ms and withdraws it
at 30 mJ. A die read begins a fall at 100 °C, a rise below 95 °C, the throttle at 108 °C until below 104 °C; a step
moves an unbroken sequence by 25 W within 350 to 700 W. A partition keeping its roast is left alone; one whose tiles
wait at one boundary and that adopts another writes PW_ROAST and every cap, counts it and starts its tile at the
boundary's resume address. A quiet grid outside a hold goes IDLE at a checkpoint; seeding starts the clock at 0 with
its counters cleared, or, entropy failed, takes the module out of service. Commands: regulatorAdmit, energyWindowEnd,
clampSample, thermalSensorRead, thermalGrantStep, roastSelection, idleEntry, gridSeedingComplete. -/
def Obligations.PowerIsMeteredGrantedAndStopped : Prop :=
  ∀ (s : State) (p : PartId) (fab mem : Bool) (bytes c t off b : Nat) (dw cv : BitVec 16) (die : BitVec 8) (im : Image),
    let x := s.power
    let lim := fun (y : PowerX) => min (min 700 y.setLimit)
      (if y.samples = [] then 700 else 175 * sumOf (y.samples.map (·.2)) / (1000 * y.samples.length))
    let kg := [F.PW_GRANT_LIMIT.key 0 0, F.PW_GRANT_WATTS.key 0 0, F.PW_GRANT_LOWV.key 0 0, F.PW_GRANT_HOT.key 0 0, F.PW_GRANT_SEQ.key 0 0]
    let granted := fun (n : State) =>
      let l := lim n.power
      let w := min (min l x.setGrant) (min n.power.dieGrant n.power.memGrant)
      n.rd F.PW_GRANT_LIMIT = l ∧ n.rd F.PW_GRANT_WATTS = w ∧
        (s.rd F.PW_GRANT_LIMIT = l ∧ s.rd F.PW_GRANT_WATTS = w → n.rd F.PW_GRANT_SEQ = s.rd F.PW_GRANT_SEQ) ∧
        (s.rd F.PW_GRANT_LIMIT ≠ l ∨ s.rd F.PW_GRANT_WATTS ≠ w → n.rd F.PW_GRANT_SEQ = (s.rd F.PW_GRANT_SEQ + 1) % 2 ^ 32 ∧
          n.rd F.CP_EVENTS_GRANT = 1) ∧
        n = { s with rf := n.rf, power := n.power, ctl := { s.ctl with msgs := n.ctl.msgs } }
    (s.polices p fab = true →
      (1024 * bytes ≤ s.level p fab → exec (.regulatorAdmit p fab bytes) s = .next { s with power :=
        { x with lacks := aadd x.lacks (2 * p.val + b2n fab) (1024 * bytes), permits := aadd x.permits (2 * p.val + b2n fab) bytes } }) ∧
      (s.level p fab < 1024 * bytes → exec (.regulatorAdmit p fab bytes) s = .next s)) ∧
    ((∀ u < 4, s.partEn u = true ↔ u = p.val) → s.client p = c → 0 < c → c < 16 →
      let e := x.metered / 4
      let w := s.weightOf p
      let share := e * w / (460800000 + w)
      ∃ n, exec .energyWindowEnd s = .next n ∧
        n.rd F.PT_ACC_ENERGY_MJ 0 c = (s.rd F.PT_ACC_ENERGY_MJ 0 c + (aget 0 x.carryUj c + share) / 1000) % 2 ^ 48 ∧
        n.rd F.PT_ACC_ENERGY_MJ 0 0 = (s.rd F.PT_ACC_ENERGY_MJ 0 0 + (aget 0 x.carryUj 0 + (e - share)) / 1000) % 2 ^ 48 ∧
        aget 0 n.power.carryUj c = (aget 0 x.carryUj c + share) % 1000 ∧
        aget 0 n.power.carryUj 0 = (aget 0 x.carryUj 0 + (e - share)) % 1000 ∧ n.power.metered = x.metered % 4 ∧
        n.power.weights = [] ∧ n.power.window = x.window + 1 ∧ n.power.accounts = n.accountCells ∧
        regsBut [F.PT_ACC_ENERGY_MJ.key 0 c, F.PT_ACC_ENERGY_MJ.key 0 0] s n ∧ n = { s with rf := n.rf, power := n.power }) ∧
    (s.powered = true →
      (let y := { x with samples := ((dw.toNat, cv.toNat) :: x.samples).take 400, energy := x.energy + dw.toNat,
                         metered := x.metered + dw.toNat }
       let e1 := sumOf (y.samples.map (·.1))
       let on := x.clamp = false ∧ 4 * (1000 * lim y - 15000) ≤ e1
       let gone := x.clamp = true ∧ e1 ≤ 4 * (1000 * lim y - 30000)
       ∃ n, exec (.clampSample dw cv) s = .next n ∧ granted n ∧
        (on → n.power = { y with clamp := true } ∧ n.rd F.PW_STATE_CLAMP = 1 ∧
          n.rd F.PW_CLAMP_EVENTS_COUNT = (s.rd F.PW_CLAMP_EVENTS_COUNT + 1) % 2 ^ 48) ∧
        (gone → n.power = { y with clamp := false } ∧ n.rd F.PW_STATE_CLAMP = 0) ∧ (¬ on → ¬ gone → n.power = y) ∧
        n.rd F.PW_INPUT_POWER = e1 / 400 % 2 ^ 16 ∧ n.rd F.PW_INPUT_VOLTS = sumOf (y.samples.map (·.2)) / y.samples.length % 2 ^ 16 ∧
        n.rd F.PW_ENERGY_MJ = y.energy / 4000 % 2 ^ 48 ∧
        devBut (F.PW_INPUT_POWER.key 0 0 :: F.PW_INPUT_VOLTS.key 0 0 :: F.PW_INPUT_AMPS.key 0 0 :: F.PW_ENERGY_MJ.key 0 0 ::
          F.PW_STATE_CLAMP.key 0 0 :: F.PW_CLAMP_EVENTS_COUNT.key 0 0 :: kg) s n) ∧
      (let d := die.toNat
       let thr := if 108 ≤ d then true else if d < 104 then false else x.dieThr
       ∃ n, exec (.thermalSensorRead die) s = .next n ∧ granted n ∧ n.rd F.PW_TEMP_DIE = d ∧
        n.power = { x with dieThr := thr, dieSeq := if 100 ≤ d then 1 else if d < 95 then 2 else 0,
                           dieGrant := if 100 ≤ d ∧ x.dieSeq ≠ 1 then max 350 (x.dieGrant - 25) else x.dieGrant } ∧
        n.rd F.PW_STATE_THROTTLE = (if thr = true ∨ x.memThr = true then 1 else 0) ∧
        devBut (F.PW_TEMP_DIE.key 0 0 :: F.PW_STATE_THROTTLE.key 0 0 :: kg) s n) ∧
      (let step := fun (g q : Nat) => if q = 1 then max 350 (g - 25) else if q = 2 then min 700 (g + 25) else g
       ∃ n, exec (.thermalGrantStep mem) s = .next n ∧ granted n ∧ devBut kg s n ∧
        n.power = (if mem then { x with memGrant := step x.memGrant x.memSeq } else { x with dieGrant := step x.dieGrant x.dieSeq }))) ∧
    (s.adopt p = s.roastOf p → exec (.roastSelection p b) s = .next s) ∧
    (s.adopt p ≠ s.roastOf p → (s.roastMask p).testBit (s.adopt p) = true → s.adopt p < 4 → s.run p = true → s.sameBoundary p b = true →
      s.curImage p = some im → s.placed p = [t] → t < 3072 → s.clockRuns = true → s.inCrossing t = false →
      s.rd F.T_CODE_STAMP_STAMP t = s.stepid → im.resumes.find? (fun e => e.1 == s.adopt p && e.2.1 == b && e.2.2.1 == t) = some (s.adopt p, b, t, off) → off < 2 ^ 19 → off % 2 = 0 →
      (∀ w ∈ s.hub.waits, w.cls = 0 ∧ w.unit = t) →
      ∃ n, exec (.roastSelection p b) s = .next n ∧ n.roastOf p = s.adopt p ∧
        n.rd F.PW_ROAST_CHANGES_COUNT = (s.rd F.PW_ROAST_CHANGES_COUNT + 1) % 2 ^ 48 ∧ n.tstate t = 1 ∧ n.rd F.T_PC_ADDR t = off ∧
        n.rd F.T_LOOP_ACTIVE t 0 = 0 ∧ n.rd F.T_LOOP_ACTIVE t 1 = 0 ∧ (n.tile t).soWait = none ∧
        (∀ u < 4, u ≠ p.val → n.roastOf u = s.roastOf u) ∧ (∀ d < 12, n.rd F.PW_TOKEN_CAP_CAP 0 d = n.capOf n.roastOf d % 2 ^ 9) ∧
        (∀ u, u ≠ t → n.tile u = s.tile u) ∧ n.mem = s.mem) ∧
    (s.clockRuns = true → s.quietGrid = true → s.frozen = false → s.checkpoint = true →
      exec .idleEntry s = .next { s with power := { x with state := .idle } }) ∧
    (s.clockRuns = false ∨ s.quietGrid = false ∨ s.frozen = true ∨ s.checkpoint = false → exec .idleEntry s = .next s) ∧
    (x.state = .starting → s.boot.entropy = true → (∀ u, (s.tile u).held = 0) →
      ∃ n, exec .gridSeedingComplete s = .next n ∧ n.power = { x with state := .active } ∧ n.tc = 0 ∧
        (∀ u < 3072, ∀ j < 13, n.rd F.T_IDLE_TC u j = 0) ∧
        (∀ u, n.tile u = { s.tile u with busyTc := 0, scrub := [], sent := [] }) ∧
        (∀ k, clockCounter k = false → (∀ o, tileOff k = some o → matrixOff o = false) → aget 0 n.rf k = aget 0 s.rf k) ∧
        n.hub = { s.hub with sampled := 0, sampleAt := none } ∧
        n = { s with rf := n.rf, tiles := n.tiles, tc := 0, power := n.power, hub := n.hub }) ∧
    (x.state = .starting → s.boot.entropy = false → s.rd F.FT_STATE_OUT = 0 →
      ∃ n, exec .gridSeedingComplete s = .next n ∧ n.rd F.FT_STATE_OUT = 1 ∧ n.rd F.FT_STATE_CAUSE = 0x36 ∧
        ((∀ k < 12, (s.eng k).run = none ∧ s.plState k < 2) → logged1 s n 4 7 0x36 0)) ∧
    (x.state ≠ .starting → exec .gridSeedingComplete s = .next s)

/-- CONTEXT_SWITCH of a partition with no running tile to an accepted client begins phase 1; where the partition is not at
a boundary it waits, and the expired wait answers its port with FAILED. Every placed tile drained, the time is kept
and phase 2 begins, scratchpad changing in the switch slots alone. A drain that times out ends the switch with result
1 and lets a stopped tile go on. The save ends with the outgoing tile captured, no byte outside GDDR7 changed, CLIENT
the incoming one, phase 4. The restore puts a saved scratchpad back with the tile STOPPED, result 0; with no context
it ends with result 2 and client 0. DRAIN with nothing at work answers OK with an empty body, the roster disabled;
with a partition running short of its boundary it waits; its limit expired, no partition runs, no engine works and the
roster is disabled. Commands: switchBoundaryWaitExpire, switchDrainComplete, switchDrainTimeout, switchSaveComplete,
switchRestoreComplete, contextSwitch, drainCmd, drainLimitExpire. -/
def Obligations.ContextSwitchesAndDrain : Prop :=
  ∀ (s : State) (q : Option CmdPort) (p : Fin 4) (wait limit : BitVec 32) (model : BitVec 64) (x : Switch) (m fl cl md c t o off : Nat) (v : Byte)
      (h : Held) (pt : CmdPort) (im : Image) (y : Context),
    let part := fun (f : Fld) (n : State) => n.rd f 0 p
    let cmd := Instr.contextSwitch (BitVec.ofNat 8 (2 ^ p.val)) 0 (BitVec.ofNat 16 (c * 16 ^ p.val)) wait model
    let args := leBytes (2 ^ p.val) 1 ++ leBytes 0 1 ++ leBytes (c * 16 ^ p.val) 2 ++ leBytes wait.toNat 4 ++ leBytes model.toNat 8
    let begun := fun (n : State) => ∀ k, n.heldOn k = if q = some k then (s.heldOn k).map fun h => { h with began := true } else s.heldOn k
    let quiet := fun (n : State) => n.tiles = s.tiles ∧ n.mem = s.mem ∧ n.quays = s.quays ∧ n.cores = s.cores
    (s.turnIs 8 args q → 0 < c → c < 16 → s.modState = 2 → s.ctl.swWait = none → s.ctl.switch = none →
      s.switchBad false model.toNat (p.val, c) = false → s.run p = false → (∀ u ∈ s.placed p, s.tstate u ≠ 1 ∧ s.rd F.T_HALT_VALID u = 0) →
      ∃ n, exec cmd s = .next n ∧ begun n ∧ quiet n ∧
        n.ctl.switch = some { parts := [(p.val, c)], device := false, model := model.toNat, phase := 1, began := s.tick } ∧
        part F.PT_PART_A_SWITCHING n = 1 ∧ n.rd F.PT_SWITCH_PHASE = 1 ∧ n.rd F.PT_SWITCH_PARTS = 2 ^ p.val ∧
        n.rd F.PT_SWITCH_DEVICE = 0 ∧ n.rd F.CP_STATE_STATE = 4 ∧ n.power.state ≠ .idle ∧
        devBut [F.PT_PART_A_SWITCHING.key 0 p, F.PT_SWITCH_PHASE.key 0 0, F.PT_SWITCH_PARTS.key 0 0, F.PT_SWITCH_DEVICE.key 0 0] s n) ∧
    (s.turnIs 8 args q → 0 < c → c < 16 → s.modState = 3 → s.ctl.swWait = none → s.ctl.switch = none →
      s.switchBad false model.toNat (p.val, c) = false → s.run p = true → s.partAtBoundary p = false →
      ∃ n, exec cmd s = .next n ∧ begun n ∧ quiet n ∧ n.ctl.swWait = some (2 ^ p.val, 0, c * 16 ^ p.val, model.toNat) ∧
        n.ctl.switch = none ∧ devBut [] s n) ∧
    (s.turnIs 8 args q → 0 < c → c < 16 → s.modState ∉ [2, 3] →
      ∃ n, exec cmd s = .next n ∧ answered s n q 1 0 [] ∧ quiet n ∧ devBut [] s n) ∧
    (s.ctl.swWait = some (m, fl, cl, md) → s.allAtBoundary (s.switchParts m fl cl) = false → s.ctl.order = [pt] → s.heldOn pt = some h →
      h.op = 8 → h.began = true → h.result = none →
      ∃ n, exec .switchBoundaryWaitExpire s = .next n ∧ n.ctl.swWait = none ∧
        n.heldOn pt = some { h with result := some 5, detail := 0, body := s.switchBody 1 } ∧ n = { s with ctl := n.ctl }) ∧
    (s.ctl.switch = some x → x.parts = [(p.val, c)] → s.client p = o → s.placed p = [t] → t < 3072 →
      let us := min 65535 ((s.tick - x.began) / 600)
      (x.phase = 1 → s.tileDrained t = true →
        ∃ n, exec .switchDrainComplete s = .next n ∧ n.rd F.PT_SWITCH_TIME_DRAIN = us ∧ n.rd F.PT_SWITCH_PHASE = 2 ∧
          n.ctl.switch = some { x with phase := 2, began := s.tick } ∧ memBut (spad t slotBase) 4096 s n ∧
          regsBut [F.PT_SWITCH_TIME_DRAIN.key 0 0, F.PT_SWITCH_PHASE.key 0 0] s n ∧
          n = { s with rf := n.rf, mem := n.mem, free := n.free, ctl := { s.ctl with switch := n.ctl.switch } }) ∧
      (x.phase = 1 → s.tileDrained t = false → exec .switchDrainComplete s = .next s) ∧
      (x.phase = 1 → s.canResume t = true → s.clockRuns = true → s.inCrossing t = false →
        ∃ n, exec .switchDrainTimeout s = .next n ∧ n.rd F.PT_SWITCH_RESULT = 1 ∧ n.rd F.PT_SWITCH_PHASE = 0 ∧
          n.rd F.PT_SWITCH_TIME_DRAIN = us ∧ n.rd F.PT_SWITCHES_COUNT = (s.rd F.PT_SWITCHES_COUNT + 1) % 2 ^ 48 ∧
          part F.PT_PART_A_SWITCHING n = 0 ∧ n.ctl.switch = none ∧ n.tstate t = 1 ∧ n.rd F.T_PC_ADDR t = s.rd F.T_HALT_ADDR t % 2 ^ 19 ∧
          n.mem = s.mem ∧ (∀ u, u ≠ t → n.tile u = s.tile u)) ∧
      (x.phase = 2 → x.device = false → s.image p o = some im →
        ∃ n, exec .switchSaveComplete s = .next n ∧ n.rd F.PT_SWITCH_TIME_SAVE = us ∧ n.rd F.PT_SWITCH_PHASE = 4 ∧ n.client p = c % 16 ∧
          n.ctl.switch = some { x with phase := 4, began := s.tick } ∧ n.tiles = s.tiles ∧ n.quays = s.quays ∧ n.cores = s.cores ∧
          (∀ a, 0x1800000000 ≤ a → n.byte a = s.byte a) ∧ (s.rd F.QR_PIN_B_NSTRIPES 0 p = 0 → n.mem = s.mem) ∧
          ∃ z ∈ n.ctl.contexts, z.part = p ∧ z.client = o ∧ z.tiles = [s.capture t] ∧ z.fresh = false ∧ z.lost = im.tiles.filter s.tileFenced) ∧
      (x.phase = 4 → s.ctl.contexts = [y] → y.part = p → y.client = c → y.fresh = true → y.lost = [] → y.tiles = [(t, [(off, v)], [])] →
        off < 0x60000 → s.tileFenced t = false →
        ∃ n, exec .switchRestoreComplete s = .next n ∧ n.rd F.PT_SWITCH_RESULT = 0 ∧ n.rd F.PT_SWITCH_PHASE = 0 ∧
          n.rd F.PT_SWITCH_TIME_RESTORE = us ∧ part F.PT_PART_A_SWITCHING n = 0 ∧ n.ctl.switch = none ∧ n.ctl.contexts = [] ∧
          n.tstate t = 0 ∧ n.byte (spad t off) = v ∧ (∀ i < 0x60000, i ≠ off → n.byte (spad t i) = 0) ∧
          memBut (spad t 0) 0x60000 s n ∧ n.run p = false ∧ n.resumable p = false ∧ (∀ u, u ≠ t → n.tile u = s.tile u)) ∧
      (x.phase = 4 → s.ctl.contexts = [] →
        ∃ n, exec .switchRestoreComplete s = .next n ∧ n.rd F.PT_SWITCH_RESULT = 2 ∧ n.client p = 0 ∧ n.ctl.switch = none ∧
          part F.PT_PART_A_SWITCHING n = 0 ∧ n.run p = false ∧ n.mem = s.mem)) ∧
    (s.turnIs 0xB (leBytes limit.toNat 4 ++ leBytes 0 4) q → s.ctl.drain = none →
      (s.modState = 2 → s.roster.build = none → s.roster.trig = false → (∀ u < 4, s.run u = false) → (∀ k < 12, s.engBusy k = false) →
        ∃ n, exec (.drainCmd limit) s = .next n ∧ (∀ k, n.heldOn k = if q = some k then
            (s.heldOn k).map fun h => { h with began := true, result := some 0, detail := 0, body := leBytes 0 8 } else s.heldOn k) ∧ n.ctl.drain = none ∧ n.rd F.ROS_CTL_EN = 0 ∧ quiet n) ∧
      (s.modState = 3 → s.roster.build = none → s.roster.trig = false → s.run p = true → s.partAtBoundary p = false →
        ∃ n, exec (.drainCmd limit) s = .next n ∧ n.ctl.drain = some 2 ∧ n.run p = true ∧ n.rd F.ROS_CTL_EN = 0 ∧ n.rd F.CP_STATE_STATE = 5 ∧ n.mem = s.mem) ∧
      (s.modState ∉ [2, 3] → ∃ n, exec (.drainCmd limit) s = .next n ∧ answered s n q 1 0 [] ∧ quiet n ∧ devBut [] s n)) ∧
    (s.ctl.drain = some m →
      ∃ n, exec .drainLimitExpire s = .next n ∧ n.ctl.drain = none ∧ n.rd F.ROS_CTL_EN = 0 ∧ (∀ u < 4, n.run u = false) ∧
        (∀ k < 12, n.engBusy k = false))

/-- A doorbell on a free control port takes the request in: held, BUSY set, TAG and COUNT moved, with the refusal of the
acceptance checks as its result where one applies; on a busy one it only sets REJECTED. The management port holds one
message and discards the next. Completion writes the response, lets the command go and sets DONE. A relayed command
past its bound takes the module out of service. A function reset clears the interrupt registers and enables alone. A
refresh copies the live registers, the power entries only while VCORE is down. GET_STATE, READ_ACCOUNTS and
REPORT_FAULTS answer the port that asked: state, the copied accounts, the log's records from FROM with NEXT. A
configuration request sets what it names; pending vectors that may now send leave. CP_LINK records the trained link.
Commands: cpDoorbell, commandComplete, relayTimeout, functionReset, statusWindowRefresh, getState, readAccounts,
reportFaults, controlPortLinkTrained, configurationRequest. -/
def Obligations.TheControlPortTakesAnswersAndReports : Prop :=
  ∀ (s : State) (port : CmdPort) (op tag : BitVec 16) (args : List Byte) (h : Held) (r : Nat) (kind : BitVec 2) (cmask : BitVec 16)
      (start : BitVec 64) (mx : BitVec 32) (d3 bme en : Option Bool) (width rate : BitVec 4) (flit : Bool),
    let req := leBytes op.toNat 2 ++ leBytes tag.toNat 2 ++ leBytes args.length 4 ++ leBytes 0 8 ++ args
    let fresh : Held := { op := op.toNat, tag := tag.toNat, args := args, left := if op.toNat = 0x20 then byteAt args 0 % 16 else 0 }
    let taken := match s.refusal port op.toNat args.length 0 args with
      | some (c, d) => { fresh with result := some c, detail := d, left := 0 }
      | none => fresh
    let resp := s.response h r
    let window := fun (n : State) (o a : Nat) => aget 0 n.ctl.win o = s.read8 .dev 0 a
    let other := fun (n : State) => ∀ k, k ≠ port → n.heldOn k = s.heldOn k
    (port = .control → s.barUp = true → args.length ≤ 16368 →
      (s.rd F.CP_MB_STATUS_BUSY = 0 →
        ∃ n, exec (.cpDoorbell port req) s = .next n ∧ n.heldOn port = some taken ∧ other n ∧ n.rd F.CP_MB_STATUS_BUSY = 1 ∧
          n.rd F.CP_MB_STATUS_DONE = 0 ∧ n.rd F.CP_MB_STATUS_TAG = tag.toNat ∧
          n.rd F.CP_MB_STATUS_COUNT = (s.rd F.CP_MB_STATUS_COUNT + 1) % 2 ^ 32 ∧
          n.rd F.CP_MB_STATUS_PILOT = (if taken.result.isSome || pilotOp op.toNat then 1 else 0) ∧
          n.ctl.order = s.ctl.order.filter (fun q => q != port) ++ [port] ∧ devBut [] s n ∧ n = { s with rf := n.rf, ctl := n.ctl }) ∧
      (s.rd F.CP_MB_STATUS_BUSY = 1 →
        ∃ n, exec (.cpDoorbell port req) s = .next n ∧ n.rd F.CP_MB_STATUS_REJECTED = 1 ∧ n.rd F.CP_EVENTS_REJECT = 1 ∧
          (∀ k, n.heldOn k = s.heldOn k) ∧ devBut [] s n ∧ n = { s with rf := n.rf, ctl := n.ctl })) ∧
    (port = .control → s.barUp = false → exec (.cpDoorbell port req) s = .next s) ∧
    (port = .management → s.mgmtUp = true → args.length ≤ 16368 →
      (s.ctl.mgmt = none → exec (.cpDoorbell port req) s = .next { s.onBus with ctl :=
        { s.ctl with mgmt := some taken, order := s.ctl.order.filter (fun q => q != port) ++ [port] } }) ∧
      (s.ctl.mgmt ≠ none → exec (.cpDoorbell port req) s = .next s.onBus)) ∧
    (s.heldOn port = some h → h.result = some r → s.ctl.resetReq = false →
      ∃ n, exec (.commandComplete port) s = .next n ∧ n.heldOn port = none ∧ other n ∧
        n.ctl.order = s.ctl.order.filter (fun q => q != port) ∧
        (port = .control → n.ctl.respArea = resp ++ s.ctl.respArea.drop resp.length ∧ n.rd F.CP_MB_STATUS_BUSY = 0 ∧
          n.rd F.CP_MB_STATUS_DONE = 1 ∧ n.rd F.CP_EVENTS_DONE = 1 ∧ devBut [] s n) ∧
        (port = .management → n.ctl.mgmtOut = some resp ∧ n.rf = s.rf) ∧ n = { s with rf := n.rf, ctl := n.ctl }) ∧
    (s.heldOn port = some h → h.result = none → exec (.commandComplete port) s = .next (if s.ctl.resetReq && s.ctl.mgmt.isNone then s.restart else s)) ∧
    (s.heldOn port = some h → s.ctl.order = [port] → relayedOp h.op = true → h.result = none → s.rd F.FT_STATE_OUT = 0 →
      ∃ n, exec (.relayTimeout port) s = .next n ∧ n.heldOn port = none ∧ n.rd F.FT_STATE_OUT = 1 ∧ n.rd F.FT_STATE_CAUSE = 0x35 ∧
        n.ctl.faulted = true ∧
        ((∀ k < 12, (s.eng k).run = none ∧ s.plState k < 2) → logged1 s n 4 7 0x35 (h.op % 2 ^ 64))) ∧
    (∃ n, exec (.functionReset kind) s = .next n ∧ n.ctl = { s.ctl with d3hot := false, bme := false, msixEn := false } ∧
      (∀ k, aget 0 n.rf k = if fnResetKey k then 0 else aget 0 s.rf k) ∧ n = { s with rf := n.rf, ctl := n.ctl }) ∧
    (∃ n, exec .statusWindowRefresh s = .next n ∧ (∀ e ∈ winPower, window n e.1 e.2) ∧
      (s.powered = true → aget 0 n.ctl.win 0 = aget 0 s.ctl.win 0 + 1 ∧ (∀ e ∈ winDev, window n e.1 e.2) ∧
        aget 0 n.ctl.win 0x98 = s.read8 .cluster 0 8 ∧
        ∀ k < 12, aget 0 n.ctl.win (0x100 + 8 * k) = s.read8 .port k 0 ∧ aget 0 n.ctl.win (0x180 + 8 * k) = s.read8 .eng k 0x18) ∧
      (s.powered = false → ∀ o, o ∉ winPower.map (·.1) → aget 0 n.ctl.win o = aget 0 s.ctl.win o) ∧
      n = { s with ctl := { s.ctl with win := n.ctl.win } }) ∧
    (∀ i o a b, (i, o, a, b) ∈ [(Instr.getState port, 1, [], s.stateBody),
        (.readAccounts port cmask, 0xA, leBytes cmask.toNat 2 ++ leBytes 0 6, s.accountsBody cmask.toNat),
        (.reportFaults port start mx, 0xC, leBytes start.toNat 8 ++ leBytes mx.toNat 4 ++ leBytes 0 4,
          let rs := (s.fault.log.filter fun r => decide (start.toNat ≤ r.seq)).take (min mx.toNat 1022)
          leBytes ((rs.getLast?.map fun r => r.seq + 1).getD start.toNat) 8 ++ leBytes rs.length 4 ++ leBytes 0 4 ++ rs.flatMap FaultRec.bytes)] →
      (s.heldOn port = some { op := o, tag := tag.toNat, args := a } →
        ∃ n, exec i s = .next n ∧ n.heldOn port = some { op := o, tag := tag.toNat, args := a, result := some 0, body := b } ∧ other n ∧
          n.rf = s.rf ∧ (port = .control → n = { s with ctl := { s.ctl with control := n.ctl.control } }) ∧
          (port = .management → o = 1 → n.ctl.mgState = false) ∧ n = { s with ctl := n.ctl, pins := n.pins }) ∧
      (s.heldOn port = none → exec i s = .next s)) ∧
    (s.pins.pwrGood = true → d3 ≠ some false ∨ s.ctl.d3hot = false →
      let on := en.getD s.ctl.msixEn && bme.getD s.ctl.bme
      ∃ n, exec (.configurationRequest d3 bme en) s = .next n ∧
        n.ctl = { s.ctl with d3hot := d3.getD s.ctl.d3hot, bme := bme.getD s.ctl.bme, msixEn := en.getD s.ctl.msixEn, msgs := n.ctl.msgs } ∧
        (∀ v < 4, (n.rd F.MSIX_PEND).testBit v = ((s.rd F.MSIX_PEND).testBit v && !(on && s.rd F.MSIX_MASK 0 v == 0))) ∧
        regsBut [F.MSIX_PEND.key 0 0] s n ∧ n = { s with rf := n.rf, ctl := n.ctl }) ∧
    (s.pins.pwrGood = false → exec (.configurationRequest d3 bme en) s = .next s ∧ exec (.controlPortLinkTrained width rate flit) s = .next s) ∧
    (s.pins.pwrGood = true → ∃ n, exec (.controlPortLinkTrained width rate flit) s = .next n ∧ n.rd F.CP_LINK_WIDTH = width.toNat ∧
      n.rd F.CP_LINK_RATE = rate.toNat ∧ n.rd F.CP_LINK_FLIT = (if flit then 1 else 0) ∧
      regsBut [F.CP_LINK_WIDTH.key 0 0, F.CP_LINK_RATE.key 0 0, F.CP_LINK_FLIT.key 0 0] s n ∧ n = { s with rf := n.rf })

/-- Whether the supervisor's own or asked by a port, which is answered with RESULT, DETAIL and body. LOAD_PROGRAM of an
accepted image starts the fetch: one request of the whole object, at most 1 MiB, sent to the ingest node; a node the
configuration does not list ends it FAILED. UNLOAD removes the image and its context. START_GRID of a loaded partition
that does not run sets RUN and starts its tile at the image's entry in its roast. STOP_GRID halts the tile, clears RUN
and RESUMABLE and counts the tile that ran. HALT_TILE halts a running tile and returns its record. FENCE and UNFENCE
queue a request and move the generation; a bad unit is BADFIELD. SET_PARTITIONS writes the table, and every router and
token cap follows. In the wrong module state, or where it would mix models, each answers BADSTATE with nothing else
done. Commands: loadProgram, unloadProgram, startGrid, stopGrid, haltTile, fenceCmd, unfence, setPartitions. -/
def Obligations.RelayedCommandsActAndAnswer : Prop :=
  ∀ (s : State) (q : Option CmdPort) (p : Fin 4) (client : BitVec 8) (ingest tile unit : BitVec 16) (len : BitVec 32)
      (dig name : BitVec 256) (kind : BitVec 8) (im : Image) (t off r k : Nat) (a m : List (BitVec 64)),
    let part := BitVec.ofNat 8 p.val
    let c := client.toNat
    let load := Instr.loadProgram part client ingest len dig name
    let la := leBytes p.val 1 ++ leBytes c 1 ++ leBytes 0 2 ++ leBytes ingest.toNat 2 ++ leBytes 0 2 ++ leBytes len.toNat 4 ++
      leBytes dig.toNat 32 ++ leBytes name.toNat 32
    let ua := leBytes p.val 1 ++ leBytes c 1 ++ leBytes 1 2 ++ List.replicate 72 (0 : Byte)
    let sa := leBytes p.val 1 ++ leBytes 0 7
    let ga := leBytes (2 ^ p.val) 1 ++ leBytes 0 7
    let ha := leBytes tile.toNat 2 ++ leBytes 0 6
    let fa := leBytes kind.toNat 1 ++ leBytes 0 1 ++ leBytes unit.toNat 2 ++ leBytes 0 4
    let pa := (List.range 4).flatMap fun i => leBytes ((a.map BitVec.toNat).getD i 0) 8 ++ leBytes ((m.map BitVec.toNat).getD i 0) 8
    let calmUnits := fun (n : State) => n.tiles = s.tiles ∧ n.mem = s.mem ∧ n.quays = s.quays ∧ n.cores = s.cores
    let begun := fun (n : State) => ∀ k, n.heldOn k = if q = some k then (s.heldOn k).map fun h => { h with began := true } else s.heldOn k
    let refused := fun (i : Instr) (code : Nat) =>
      ∃ n, exec i s = .next n ∧ answered s n q code 0 [] ∧ calmUnits n ∧ devBut [] s n
    let free := s.ctl.load = none ∧ s.partEn p = true ∧ s.switching p = false ∧ (s.client p = c → s.run p = false)
    (s.turnIs 2 la q → s.modState ∈ [2, 3, 4] → free → s.boot.ingest.contains ingest.toNat = true →
      s.objectBase + len.toNat ≤ Config.objectArea.1 + Config.objectArea.2 → s.fetchPorts ingest.toNat = [k] →
      0 < len.toNat → len.toNat ≤ 2 ^ 20 →
      let rq : Fetch := ⟨s.ctl.nextReq, 0, len.toNat, 0, 0, 0⟩
      ∃ n, exec load s = .next n ∧ begun n ∧ calmUnits n ∧ devBut [] s n ∧ n.ctl.nextReq = (s.ctl.nextReq + 1) % 2 ^ 32 ∧
        n.ctl.load = some ⟨p, c, ingest.toNat, len.toNat, dig.toNat, name.toNat, s.objectBase, len.toNat, [rq]⟩ ∧
        n.port k = { s.port k with txq := (s.port k).txq ++ [⟨0, 1, ingest.toNat, fetchReq name.toNat rq, 0⟩] } ∧
        (∀ u, u ≠ k → n.port u = s.port u)) ∧
    (s.turnIs 2 la q → s.modState ∈ [2, 3, 4] → free → s.boot.ingest.contains ingest.toNat = false →
      ∃ n res, exec load s = .next n ∧ answered s n q 5 0 (loadBody 1 res) ∧ calmUnits n ∧ n.ports = s.ports ∧ n.ctl.load = none) ∧
    (s.turnIs 2 la q → s.modState ∉ [2, 3, 4] → refused load 1) ∧
    (s.turnIs 2 ua q → s.modState ∈ [2, 3, 4] → free → s.image p c = some im → im.tables = [] →
      ∃ n, exec (.unloadProgram part client) s = .next n ∧ answered s n q 0 0 (loadBody 0 { code := 0 }) ∧ calmUnits n ∧
        n.image p c = none ∧ (∀ x ∈ n.ctl.contexts, ¬ (x.part = p ∧ x.client = c)) ∧
        (∀ o ∈ im.objs, o < 8192 → n.rd F.SO_CTL_ALLOC 0 o = 0) ∧ (∀ u d, (u, d) ≠ (p.val, c) → n.image u d = s.image u d)) ∧
    (s.turnIs 2 ua q → s.modState ∉ [2, 3, 4] → refused (.unloadProgram part client) 1) ∧
    (s.turnIs 3 sa q → s.modState ∈ [2, 3, 4] → s.curImage p = some im → s.partEn p = true → s.run p = false → s.switching p = false →
      s.resumable p = false → s.rd F.FT_FENCE_GEN_GEN = im.gen → s.startRoast im = r → r < 4 → im.tiles = [t] → t < 3072 →
      im.entries = [(r, t, off)] → off < 2 ^ 19 → s.tstate t ∉ [1, 4] → s.clockRuns = true → s.inCrossing t = false →
      s.rd F.T_CODE_STAMP_STAMP t = s.stepid →
      ∃ n, exec (.startGrid part) s = .next n ∧ answered s n q 0 0 (startBody { code := 0 }) ∧ n.run p = true ∧ n.tstate t = 1 ∧
        n.rd F.T_PC_ADDR t = off ∧ n.roastOf p = r ∧ (∀ d < 12, n.rd F.PW_TOKEN_CAP_CAP 0 d = n.capOf n.roastOf d % 2 ^ 9) ∧
        n.mem = s.mem ∧ (∀ u, u ≠ t → n.tile u = s.tile u)) ∧
    (s.turnIs 3 sa q → s.curImage p = none ∨ s.modState ∉ [2, 3, 4] → refused (.startGrid part) 1) ∧
    (s.turnIs 4 ga q → s.modState ∈ [3, 4] → s.run p = true → s.switching p = false → s.placed p = [t] → t < 3072 → s.tstate t = 1 →
      s.rd F.T_HALT_VALID t = 0 → s.inCrossing t = false →
      ∃ n, exec (.stopGrid (BitVec.ofNat 8 (2 ^ p.val))) s = .next n ∧ n.run p = false ∧ n.resumable p = false ∧ n.tstate t = 2 ∧
        n.rd F.T_HALT_REASON t = 0x10 ∧ n.rd F.T_HALT_DETAIL t = 4 ∧ n.mem = s.mem ∧
        answered s n q 0 0 ((List.range 4).flatMap fun i => leBytes (if i = p.val then 1 else 0) 2) ∧
        (∀ x ∈ n.hub.running, x.part ≠ p)) ∧
    (s.turnIs 4 ga q → s.modState ∉ [3, 4] → refused (.stopGrid (BitVec.ofNat 8 (2 ^ p.val))) 1) ∧
    (s.turnIs 5 ha q → s.modState ∈ [3, 4] → tile.toNat < 3072 → s.tstate tile.toNat = 1 → s.rd F.T_HALT_VALID tile.toNat = 0 →
      (∀ u < 4, s.switching u = false) →
      ∃ n, exec (.haltTile tile) s = .next n ∧ n.tstate tile.toNat = 2 ∧ n.rd F.T_HALT_REASON tile.toNat = 0x10 ∧
        n.rd F.T_HALT_SLOT tile.toNat = 7 ∧ n.rd F.T_HALT_ADDR tile.toNat = s.rd F.T_PC_ADDR tile.toNat ∧
        n.rd F.T_HALT_DETAIL tile.toNat = 4 ∧ answered s n q 0 0 (n.haltBody tile.toNat) ∧ n.mem = s.mem ∧
        (∀ u, u ≠ tile.toNat → n.tile u = s.tile u)) ∧
    (s.turnIs 5 ha q → 3072 ≤ tile.toNat → refused (.haltTile tile) 3) ∧
    (s.turnIs 5 ha q → tile.toNat < 3072 → s.tstate tile.toNat ≠ 1 → refused (.haltTile tile) 1) ∧
    (∀ i op un, (i, op, un) ∈ [(Instr.fenceCmd kind unit, 6, false), (.unfence kind unit, 7, true)] → s.turnIs op fa q →
      let top := if kind.toNat = 0 then 3071 else if kind.toNat = 1 then 15 else 23
      let bad := 2 < kind.toNat ∨ top < unit.toNat ∨ kind.toNat = 1 ∧ unit.toNat = 0
      (s.modState ∈ [2, 3, 4] → ¬ bad → (kind.toNat = 2 → un = false) → s.isFenced kind.toNat unit.toNat = un →
        s.fault.reqs.length + (if s.fault.active.isSome then 1 else 0) < 8 →
        ∃ n, exec i s = .next n ∧ begun n ∧ calmUnits n ∧ n.rd F.FT_FENCE_GEN_GEN = (s.rd F.FT_FENCE_GEN_GEN + 1) % 2 ^ 32 ∧
          n.fault = { s.fault with reqs := s.fault.reqs ++ [⟨kind.toNat, unit.toNat, un, 1⟩] } ∧ devBut [F.FT_FENCE_GEN_GEN.key 0 0] s n) ∧
      (bad → ∃ n, exec i s = .next n ∧ answered s n q 3 (if 2 < kind.toNat then 0 else 2) [] ∧ calmUnits n ∧ devBut [] s n) ∧
      (¬ bad → kind.toNat = 2 ∧ un = true ∨ s.isFenced kind.toNat unit.toNat ≠ un → refused i 1)) ∧
    (s.turnIs 9 pa q → s.modState = 2 → s.ctl.images = [] → (∀ u < 4, s.switching u = false) →
      partsBad (a.map BitVec.toNat) (m.map BitVec.toNat) = none → s.partsMixed (a.map BitVec.toNat) = false →
      let av := fun i => (a.map BitVec.toNat).getD i 0
      let mv := fun i => (m.map BitVec.toNat).getD i 0
      ∃ n, exec (.setPartitions a m) s = .next n ∧ answered s n q 0 0 [] ∧ calmUnits n ∧
        (∀ i < 4, n.rd F.PT_PART_A_FIRST 0 i = av i % 16 ∧ n.rd F.PT_PART_A_LAST 0 i = av i / 16 % 16 ∧
          n.rd F.PT_PART_A_EN 0 i = av i / 256 % 2 ∧ n.rd F.PT_PART_A_CLIENT 0 i = av i / 512 % 16 ∧
          n.rd F.PT_MEM_BASE 0 i = mv i % 2 ^ 25 ∧ n.rd F.PT_MEM_SIZE 0 i = mv i / 2 ^ 25 % 2 ^ 25) ∧
        (∀ u < 3072, n.rd F.XT_RCFG_EN u = (if (n.tilePart u).isSome then 1 else 0) ∧ n.rd F.XT_RCFG_PART u = (n.tilePart u).getD 0 % 4) ∧
        (∀ d < 12, n.rd F.PW_TOKEN_CAP_CAP 0 d = n.capOf n.roastOf d % 2 ^ 9)) ∧
    (s.turnIs 9 pa q → s.modState ∉ [2, 3] ∨ s.partsMixed (a.map BitVec.toNat) = true →
      partsBad (a.map BitVec.toNat) (m.map BitVec.toNat) = none → refused (.setPartitions a m) 1)

/-- Of the pilot's own, or asked by the management port, which is answered. A limit of 550–700 W and a grant of 300 W to
LIMIT are taken and PW_GRANT follows; another changes nothing. OFF brings the rails down and keeps the fault log and
the power settings; ON starts the first rail of a module in OFF. RESET_MODULE is answered, and its response's
completion resets the module, the log kept; refused while THERM_TRIP_N is low. DROWSE of an idle module without
programs, its caches and quays empty, ends with VCORE down, scratchpad 0, every port DISABLED, every quay in self-
refresh, GDDR7 as it was; WAKE with the supervisor intact brings IDLE and core 0 back, otherwise boots again.
STAGE_IMAGE with FIRST stages the data at its offset in an erased slot, RECEIVING; ACTIVATE_IMAGE of a slot that
verifies makes it the next boot's, STAGED as a trial. Commands: commandComplete, powerSetLimit, powerSetGrant,
powerOff, powerOn, resetModule, stageImage, activateImage, drowse, wake. -/
def Obligations.ThePilotSetsPowerSleepsAndStages : Prop :=
  ∀ (s : State) (lim gr : BitVec 16) (asked : Bool) (tag : Nat) (port : CmdPort) (q : Option CmdPort) (slot : BitVec 8) (data : List Byte) (args : List Byte),
    let pa := fun (fl : Nat) => leBytes fl 1 ++ leBytes 0 1 ++ leBytes lim.toNat 2 ++ leBytes gr.toNat 2 ++ leBytes 0 2
    let set := fun (fl : Nat) => s.ctl.mgmt = if asked then some { op := 0x20, tag := tag, args := pa fl, left := fl } else none
    let got := fun (n : State) (fl : Nat) =>
      let d := leBytes (n.read8 .dev 0 0x3200) 8
      n.ctl.mgmt = if asked then some { op := 0x20, tag := tag, args := pa fl, began := true, left := 0, result := some 0, body := d } else none
    let top := min 700 (s.currentLimit.getD 700)
    let kg := [F.PW_GRANT_LIMIT.key 0 0, F.PW_GRANT_WATTS.key 0 0, F.PW_GRANT_LOWV.key 0 0, F.PW_GRANT_HOT.key 0 0, F.PW_GRANT_SEQ.key 0 0]
    let only := fun (n : State) => devBut kg s n ∧ n = { s with rf := n.rf, power := n.power, ctl := { s.ctl with msgs := n.ctl.msgs, mgmt := n.ctl.mgmt } }
    let m := slot.toNat
    (set 1 → 550 ≤ lim.toNat → lim.toNat ≤ 700 →
      ∃ n, exec (.powerSetLimit lim) s = .next n ∧ n.power = { s.power with setLimit := lim.toNat } ∧ only n ∧ got n 1 ∧
        (s.powered = true → n.rd F.PW_GRANT_LIMIT = min lim.toNat top ∧
          n.rd F.PW_GRANT_WATTS = min (min (min lim.toNat top) s.power.setGrant) s.thermalGrant)) ∧
    (s.ctl.mgmt = none → lim.toNat < 550 ∨ 700 < lim.toNat → exec (.powerSetLimit lim) s = .next s) ∧
    (set 2 → 300 ≤ gr.toNat → gr.toNat ≤ s.limitNow →
      ∃ n, exec (.powerSetGrant gr) s = .next n ∧ n.power = { s.power with setGrant := gr.toNat } ∧ only n ∧ got n 2 ∧
        (s.powered = true → n.rd F.PW_GRANT_WATTS = min (min s.limitNow gr.toNat) s.thermalGrant)) ∧
    (s.ctl.mgmt = none → gr.toNat < 300 ∨ s.limitNow < gr.toNat → exec (.powerSetGrant gr) s = .next s) ∧
    (set 4 → s.modState ≠ 0 →
      ∃ n, exec .powerOff s = .next n ∧ got n 4 ∧ n.pins.rails = 0 ∧ n.pins.pwrGood = false ∧ n.pins.ramping = false ∧ n.power.state = .off ∧
        n.ctl.base = 0 ∧ n.rd F.CP_STATE_STATE = 0 ∧ n.mem = [] ∧ n.tiles = [] ∧ n.quays = [] ∧ n.cores = [] ∧ n.ports = [] ∧
        n.fault.log = s.fault.log ∧ n.power.setLimit = s.power.setLimit ∧ n.power.setGrant = s.power.setGrant ∧ flashKept s n) ∧
    (s.ctl.mgmt = none → s.modState = 0 → exec .powerOff s = .next s) ∧
    (set 8 → s.modState = 0 → s.ctl.base = 0 → s.ctl.faulted = false → s.pins.railFault = false → s.pins.thermTrip = false → s.pins.swClosed = true →
      ∃ n, exec .powerOn s = .next n ∧ got n 8 ∧ n.pins.ramping = true ∧ n.ctl.base = 1 ∧ n.rd F.CP_STATE_STATE = 1 ∧ devBut [] s n ∧
        n.mem = s.mem) ∧
    (s.ctl.mgmt = none → s.modState ≠ 0 ∨ s.pins.railFault = true ∨ s.pins.thermTrip = true → exec .powerOn s = .next s) ∧
    (s.heldOn port = some { op := 0x21, tag := tag, args := leBytes 0 8 } →
      (s.pins.thermTrip = false → ∃ n, exec (.resetModule port) s = .next n ∧ n.ctl.resetReq = true ∧ answered s n (some port) 0 0 [] ∧
        n = { s with ctl := n.ctl }) ∧
      (s.pins.thermTrip = true → ∃ n, exec (.resetModule port) s = .next n ∧ n.ctl.resetReq = s.ctl.resetReq ∧ answered s n (some port) 1 0 [] ∧
        n = { s with ctl := n.ctl })) ∧
    (s.ctl.resetReq = true → s.ctl.mgmt = some { op := 0x21, tag := tag, args := leBytes 0 8, result := some 0 } →
      ∃ n, exec (.commandComplete .management) s = .next n ∧ lost n ∧ n.fault.log = s.fault.log ∧ n.ctl.eid = s.ctl.eid ∧
        n.ctl.mgmtOut = some (s.response { op := 0x21, tag := tag, args := leBytes 0 8, result := some 0 } 0) ∧ n.pins.rails = 0 ∧
        n.pins.pwrGood = false ∧ n.pins.inReset = true ∧ n.pins.alert = n.unread ∧ flashKept s n ∧ n.pending = s.pending) ∧
    (s.turnIs 0x24 args q → s.mayDrowse = true → s.power.state = .idle → s.cache = [] →
      (∀ u < 24, (s.quay u).wab = [] ∧ (s.quay u).reserved = [] ∧ (s.quay u).resWait = [] ∧ (s.quay u).grads = [] ∧ (s.quay u).reads = []) →
      ∃ n, exec .drowse s = .next n ∧ answered s n q 0 0 [] ∧ n.power = { s.power with state := .drowse } ∧ n.ctl.base = 7 ∧
        n.rd F.CP_STATE_STATE = 7 ∧ (∀ u < 3072, ∀ i < 0x60000, n.byte (spad u i) = 0) ∧
        (∀ a, a < 0x2000_0000_0000 ∨ 0x2000_C000_0000 ≤ a → n.byte a = s.byte a) ∧ (∀ k < 12, n.plState k = 0) ∧
        (∀ u < 24, n.rd F.Q_STATUS_SELFREF u = 1) ∧ n.rd F.ROS_CTL_EN = 0 ∧ (∀ e < 16384, ∀ w < 16, n.ent e w = 0) ∧
        (∀ c < 16, n.rd F.L_STATUS_RUN c = 0)) ∧
    (s.turnIs 0x24 args q → s.mayDrowse = false →
      ∃ n, exec .drowse s = .next n ∧ answered s n q 1 0 [] ∧ n = { s with ctl := n.ctl }) ∧
    (s.turnIs 0x25 args q → s.ctl.base = 7 → s.ctl.faulted = false → s.ctl.updating = false → s.ctl.drain = none → s.ctl.switch = none →
      (s.sramHash = s.boot.fwHash → s.boot.entropy = true → (∀ u < 4, s.run u = false) →
        ∃ n, exec .wake s = .next n ∧ answered s n q 0 0 [] ∧ n.power = { s.power with state := .idle } ∧ n.ctl.base = 2 ∧
          n.rd F.CP_STATE_STATE = 2 ∧ (∀ u < 24, n.rd F.Q_STATUS_SELFREF u = 0 ∧ n.rd F.Q_STATUS_DEBT u = 0) ∧
          (∀ k < 12, n.plState k = if aget 0 s.boot.portMode k = 0 then 0 else 1) ∧ n.rd F.L_STATUS_RUN 0 = 1 ∧
          n.rd F.L_STATUS_SUPER 0 = 1 ∧ n.core 0 = {} ∧ n.mem = s.mem) ∧
      (s.sramHash ≠ s.boot.fwHash →
        ∃ n, exec .wake s = .next n ∧ n.ctl.base = 1 ∧ n.pins.rails = 5 ∧ n.pins.pwrGood = true ∧ n.power.state = .idle ∧ n.mem = [] ∧
          n.tiles = [] ∧ n.cores = [] ∧ n.fault.log = s.fault.log ∧ flashKept s n)) ∧
    (s.turnIs 0x25 args q → s.ctl.base ≠ 7 → ∃ n, exec .wake s = .next n ∧ answered s n q 1 0 [] ∧ n = { s with ctl := n.ctl }) ∧
    (s.ctl.mgmt = some { op := 0x22, tag := tag, args := stageArgs m 1 0 data } → m < 2 → s.modState = 2 → s.boot.booted ≠ some m →
      data.length ≤ 4096 →
      ∃ n d, exec (.stageImage slot 1 0 data) s = .next n ∧ n.ctl.mgmt = some { op := 0x22, tag := tag, args := stageArgs m 1 0 data, result := some 0, body := d } ∧
        slotOf n.boot.slotSt m = 1 ∧ slotOf n.boot.lens m = data.length ∧ n.boot.staged = some (m, data.length) ∧
        (∀ i < slotSize, n.boot.fbyte (slotAt m + i) = data.getD i 0xFF#8) ∧ slotOf n.boot.slotSt (1 - m) = slotOf s.boot.slotSt (1 - m) ∧
        (∀ i < slotSize, n.boot.fbyte (slotAt (1 - m) + i) = s.boot.fbyte (slotAt (1 - m) + i)) ∧
        n = { s with boot := n.boot, ctl := { s.ctl with mgmt := n.ctl.mgmt }, free := n.free }) ∧
    (s.ctl.mgmt = some { op := 0x23, tag := tag, args := leBytes m 8 } → m < 2 → s.modState = 2 → s.boot.booted ≠ some m → s.ctl.control = none →
      slotOf s.boot.slotSt m = 2 →
      let code := s.boot.verifySlot m
      ∃ n, exec (.activateImage slot) s = .next n ∧ n.ctl.resetReq = true ∧ n.ctl.updating = true ∧ n.rd F.CP_STATE_STATE = 6 ∧
        n.ctl.mgmt = some { op := 0x23, tag := tag, args := leBytes m 8, result := some (if code = 0 then 0 else 5), body := leBytes code 1 ++ leBytes 0 7 } ∧
        (code = 0 → n.boot.next = m ∧ slotOf n.boot.slotSt m = 3 ∧ n.boot.tries = 0) ∧
        (code ≠ 0 → n.boot.next = s.boot.next ∧ slotOf n.boot.slotSt m = 5) ∧ n.boot.ctlSeq = s.boot.ctlSeq + 1 ∧ n.mem = s.mem ∧ devBut [] s n) ∧
    (s.ctl.mgmt = none → exec (.stageImage slot 1 0 data) s = .next s ∧ exec (.activateImage slot) s = .next s)

/-- The boot ROM stops with code 3, 2, 4 or 5 at the first check that fails; else it chooses the next slot: VALID, or a
trial with a try left, counted; its third failed try makes it INVALID. The image that streams in and verifies puts the
firmware in landing SRAM, sets the guard and the configuration, and starts core 0; one that fails makes its slot
INVALID and goes to the other slot. A ready supervisor with every quay trained ends BOOTING: a trial slot becomes
VALID, the counters rise. Without one in time the boot fails with 9, a trial restarts. A failed entropy source is
remembered, and while the supervisor is awaited the boot fails with 1. MCTP and SPDM requests to a powered pilot are
answered as R525 and R532 say (the byte layouts are PRESUMED, log entry 88): endpoint and types, version,
capabilities, algorithms, digest, certificate, challenge and measurements, each in its place of the connection; a
request out of order is refused. Commands: bootRomStart, entropyHealthFail, imageStreamComplete, supervisorReady,
supervisorReadyTimeout, setEndpointId, getEndpointId, getMctpVersionSupport, getMessageTypeSupport, getVersion,
getCapabilities, negotiateAlgorithms, getDigests, getCertificate, challenge, getMeasurements, setdasa. -/
def Obligations.TheModuleBootsAndTheEndpointAnswers : Prop :=
  ∀ (s : State) (ok : BootCheck) (n0 : Nat) (ent : List Byte) (eid : BitVec 8) (dyn : BitVec 7) (doe : Bool) (req : List Byte),
    let b := s.boot
    let failed := fun (i : Instr) (c : Nat) => ∃ n, exec i s = .next n ∧ n.boot.failed = some c ∧ n.boot.booted = none ∧
      (∀ k < 12, n.plState k = 0) ∧ (∀ k < 16, n.rd F.L_STATUS_RUN k = 0) ∧ n.mem = s.mem ∧ n.boot.slotSt = b.slotSt
    let code := b.verifyFrom2 n0
    let cfg := b.cfgPart n0
    (s.bootable = true →
      (ok.recordOk = false → failed (.bootRomStart ok) 3) ∧
      (ok.recordOk = true → ok.identityOk = false → failed (.bootRomStart ok) 2) ∧
      (ok.recordOk = true → ok.identityOk = true → ok.steppingOk = false → failed (.bootRomStart ok) 4) ∧
      (ok.recordOk = true → ok.identityOk = true → ok.steppingOk = true →
        (b.ownerGen ≠ b.counters.2.2 → failed (.bootRomStart ok) 5) ∧
        (b.ownerGen = b.counters.2.2 → b.next = n0 →
          (slotOf b.slotSt n0 = 4 → exec (.bootRomStart ok) s = .next { s with boot := { b with booted := some n0, step := 4 } }) ∧
          (slotOf b.slotSt n0 = 3 → b.tries ≠ 3 → exec (.bootRomStart ok) s = .next { s with boot :=
            { b with booted := some n0, step := 4, tries := b.tries + 1, ctlSeq := b.ctlSeq + 1 } }) ∧
          (slotOf b.slotSt n0 = 3 → b.tries = 3 → n0 < 2 → slotOf b.slotSt (1 - n0) = 4 →
            ∃ n, exec (.bootRomStart ok) s = .next n ∧ slotOf n.boot.slotSt n0 = 5 ∧ n.boot.next = 1 - n0 ∧
              n.boot.booted = some (1 - n0) ∧ n.boot.step = 4 ∧ n = { s with boot := n.boot })))) ∧
    (s.bootable = false → exec (.bootRomStart ok) s = .next s) ∧
    (b.booted = some n0 → b.step = 4 → n0 < 2 →
      (code = 0 → ((modEntries cfg).find? fun e => beVal (e.take 32) == Config.identityHash.toNat) = some ent → b.entropy = true →
        ∃ n, exec .imageStreamComplete s = .next n ∧ n.boot.step = 8 ∧ n.boot.guard = true ∧ n.boot.sysid = leAt cfg 0 8 ∧
          n.boot.modnum = leAt ent 32 2 ∧ n.boot.ingest = ingestOf cfg ∧ n.boot.debug = (leAt cfg 0x0C 4).testBit 0 ∧
          (∀ k < 12, aget 0 n.boot.portMode k = leAt cfg (0x10 + 4 * k) 4 ∧ aget 0 n.boot.portPeer k = leAt ent (36 + 2 * k) 2 ∧
            aget 0 n.boot.dstMap k = dstMapOf cfg k ∧ n.plState k = if leAt cfg (0x10 + 4 * k) 4 = 0 then 0 else 1) ∧
          (∀ i < b.fwLenOf n0, n.byte (sramBase + i) = (b.fwPart n0).getD i 0) ∧ memBut sramBase (b.fwLenOf n0) s n ∧
          n.rd F.L_STATUS_RUN 0 = 1 ∧ n.rd F.L_STATUS_SUPER 0 = 1 ∧ n.core 0 = {} ∧ n.boot.slotSt = b.slotSt) ∧
      (code ≠ 0 → slotOf b.slotSt n0 ≠ 3 → slotOf b.slotSt (1 - n0) = 4 →
        ∃ n, exec .imageStreamComplete s = .next n ∧ slotOf n.boot.slotSt n0 = 5 ∧ n.boot.next = 1 - n0 ∧ n.boot.booted = some (1 - n0) ∧
          n.boot.step = 4 ∧ slotOf n.boot.verify n0 = code ∧ n = { s with boot := n.boot })) ∧
    (b.booted = some n0 → b.step = 8 → b.failed = none → n0 < 2 →
      (s.ctl.base = 1 → s.ctl.faulted = false → s.ctl.updating = false → s.ctl.drain = none → s.ctl.switch = none → (∀ u < 4, s.run u = false) →
        (∀ q < 24, q ∈ b.quayUp) →
        ∃ n, exec .supervisorReady s = .next n ∧ n.ctl.base = 2 ∧ n.boot.step = 9 ∧ n.rd F.CP_STATE_STATE = 2 ∧ n.boot.fwHash = s.sramHash ∧
          n.boot.counters.1 = max b.counters.1 b.fwSvn ∧ n.boot.counters.2.1 = max b.counters.2.1 b.cfgSvn ∧
          n.boot.counters.2.2 = n.boot.ownerGen ∧
          (slotOf b.slotSt n0 = 3 → slotOf n.boot.slotSt n0 = 4 ∧ n.boot.tries = 0 ∧ n.boot.ownerKey = b.keyOf n0) ∧
          (slotOf b.slotSt n0 ≠ 3 → n.boot.slotSt = b.slotSt ∧ n.boot.ownerKey = b.ownerKey) ∧ n.mem = s.mem ∧ devBut [] s n) ∧
      (slotOf b.slotSt n0 ≠ 3 → failed .supervisorReadyTimeout 9) ∧
      (slotOf b.slotSt n0 = 3 → ∃ n, exec .supervisorReadyTimeout s = .next n ∧ slotOf n.boot.slotSt n0 = 5 ∧ n.boot.next = 1 - n0 ∧ lost n ∧
        n.fault.log = s.fault.log ∧ n.pins.rails = 0 ∧ n.pins.inReset = true ∧ n.pending = s.pending)) ∧
    (s.power.state ≠ .starting → ¬ (s.ctl.base = 1 ∧ b.step = 8 ∧ b.failed = none) →
      exec .entropyHealthFail s = .next { s with boot := { b with entropy := false } }) ∧
    (s.ctl.base = 1 → b.step = 8 → b.failed = none → b.booted = some n0 → slotOf b.slotSt n0 ≠ 3 → failed .entropyHealthFail 1) ∧
    (s.mgmtUp = true →
      let out := fun (i : Instr) (r : List Byte) => exec i s = .next { s.onBus with ctl := { s.ctl with mctpOut := r } }
      (eid.toNat ∈ [0, 255] → out (.setEndpointId eid) [1, 2]) ∧
      (eid.toNat ∉ [0, 255] → exec (.setEndpointId eid) s = .next { s.onBus with ctl := { s.ctl with eid := eid.toNat, mctpOut := [1, 0, 0, eid, 0] } }) ∧
      out .getEndpointId [2, 0, BitVec.ofNat 8 s.ctl.eid, 0, 0] ∧ out .getMessageTypeSupport [5, 0, 2, 5, 0x7E] ∧
      (∃ n v, exec .getMctpVersionSupport s = .next n ∧ v < 2 ^ 32 ∧ n.ctl = { s.ctl with mctpOut := [4, 0, 1] ++ leBytes v 4 } ∧
        n = { s.onBus with ctl := n.ctl, free := n.free }) ∧
      (s.pins.bus ≠ some false → exec (.setdasa dyn) s =
        .next { s with pins := { s.pins with bus := some true }, ctl := { s.ctl with dyn := dyn.toNat } }) ∧
      (s.pins.bus = some false → exec (.setdasa dyn) s = .next s)) ∧
    (s.spdmUp doe = true → b.failed = none → 5 ≤ b.step →
      let answers := fun (i : Instr) (st : Nat) (r : List Byte) => ∃ n, exec i s = .next n ∧ n.spdmAt doe = st ∧ n.ctl.spdmOut = r ∧
        n = { (if doe then s else s.onBus) with ctl := { s.ctl with spdm := n.ctl.spdm, spdmOut := r }, free := n.free }
      let st := s.spdmAt doe
      let late := fun (i : Instr) => answers i st [0x12, 0x7F, 4, 0]
      let v := byteAt req 0 = 0x12
      let c := byteAt req 1
      (byteAt req 0 = 0x10 → c = 0x84 → answers (.getVersion doe req) 1 [0x10, 4, 0, 0, 0, 1, 0, 0x12]) ∧
      (v → c = 0xE1 → st = 1 → ∃ e, answers (.getCapabilities doe req) 2 ([0x12, 0x61, 0, 0, 0, e, 0, 0] ++ leBytes 0x16 4 ++ leBytes 4096 4 ++ leBytes 4096 4)) ∧
      (v → c = 0xE1 → st ≠ 1 → late (.getCapabilities doe req)) ∧
      (v → c = 0xE3 → st = 2 → (leAt req 8 4).testBit 4 = true → (leAt req 12 4).testBit 0 = true →
        answers (.negotiateAlgorithms doe req) 3 ([0x12, 0x63, 0, 0] ++ leBytes 36 2 ++ [1, 0] ++ leBytes 2 4 ++ leBytes 0x10 4 ++ leBytes 1 4 ++ leBytes 0 16)) ∧
      (v → c = 0xE3 → st ≠ 2 → late (.negotiateAlgorithms doe req)) ∧
      (v → c = 0x81 → st = 3 → answers (.getDigests doe req) 3 ([0x12, 1, 0, 1] ++ sha256 (certBytes 0 Config.certLen))) ∧
      (v → c = 0x81 → st ≠ 3 → late (.getDigests doe req)) ∧
      (v → c = 0x82 → st = 3 → byteAt req 2 % 16 = 0 → leAt req 4 2 < Config.certLen →
        let o := leAt req 4 2
        let l := min (leAt req 6 2) (min 4088 (Config.certLen - o))
        answers (.getCertificate doe req) 3 ([0x12, 2, 0, 0] ++ leBytes l 2 ++ leBytes (Config.certLen - o - l) 2 ++ certBytes o l)) ∧
      (v → c = 0x82 → st ≠ 3 → late (.getCertificate doe req)) ∧
      (v → c = 0x83 → st = 3 → byteAt req 2 % 16 = 0 → byteAt req 3 = 0 → ∃ nonce, let m := [0x12, 3, 0, 1] ++ sha256 (certBytes 0 Config.certLen) ++ leBytes nonce 32 ++ leBytes 0 2
        answers (.challenge doe req) 3 (s.signed req m)) ∧
      (v → c = 0x83 → st ≠ 3 → late (.challenge doe req)) ∧
      (v → c = 0xE0 → st = 3 → byteAt req 3 = 0xFF → (byteAt req 2).testBit 0 = false → ∃ nonce,
        answers (.getMeasurements doe req) 3 ([0x12, 0x60, 0, 0, 7] ++ leBytes s.measAll.length 3 ++ s.measAll ++ leBytes nonce 32 ++ leBytes 0 2)) ∧
      (v → c = 0xE0 → st ≠ 3 → late (.getMeasurements doe req)))

/-- A fence or unfence asked for at FT_FENCE_REQ gives RESULT 0 and is queued with the generation moved on, or gives its
refusal: 2 for a unit that does not exist, 1 for the wrong state, 3 with eight requests held. A fenced tile holds
FENCE in its record where no halt stands there, is FENCED and marked, has nothing queued, its open credits released; a
fenced core stops and is marked. The walk's end completes the fence with no mark left. An unfence clears a tile's
scratchpad, its registers but the counters, and its mark. The correction window raises DEGRADED for a unit that
reached the limit and begins again. A lease that is free is acquired, its holder renews or releases it, a task is
refused with PRIVILEGE; one whose REMAIN is 0 is revoked. FT_SOFT_CODE logs its code with FT_SOFT_DATA. Commands:
ftFenceRequest, ftUnfenceRequest, fenceExecute, reclaimWalkEnd, unfenceExecute, corrWindowEnd, leaseAcquire,
leaseRenew, leaseRelease, leaseExpire, ftSoftCode. -/
def Obligations.UnitsAreFencedReclaimedAndLeased : Prop :=
  ∀ (s : State) (kind : BitVec 2) (unit : BitVec 12) (core : CoreId) (lease : Fin 32) (term : BitVec 20) (code : BitVec 15)
      (r : FenceReq) (l : List FenceReq) (x : Nat × Nat),
    let u := r.unit
    let pri := s.rd F.L_STATUS_SUPER core = 1 ∧ s.coreReady core = true
    let f := fun (g : Fld) (n : State) => n.rd g 0 lease
    let held := f F.FT_LEASE_STATE_HELD s = 1 ∧ f F.FT_LEASE_STATE_HOLDER s = core.val
    let kl := fun (g : Fld) => g.key 0 lease
    let told := fun (ks : List Nat) (n : State) => regsBut (ks ++ eventKeys) s n ∧
      n = { s with rf := n.rf, fault := n.fault, ctl := { s.ctl with msgs := n.ctl.msgs }, pins := n.pins }
    (∀ i un, (i, un) ∈ [(Instr.ftFenceRequest kind unit, false), (.ftUnfenceRequest kind unit, true)] →
      let top := if kind.toNat = 0 then 3071 else if kind.toNat = 1 then 15 else 23
      let full := 8 ≤ s.fault.reqs.length + (if s.fault.active.isSome then 1 else 0)
      let res := if 2 < kind.toNat ∨ top < unit.toNat ∨ kind.toNat = 1 ∧ unit.toNat = 0 then 2
        else if kind.toNat = 2 ∧ un = true ∨ s.isFenced kind.toNat unit.toNat ≠ un then 1 else if full then 3 else 0
      ∃ n, exec i s = .next n ∧ n.rd F.FT_WALK_RESULT = res ∧
        n.rd F.FT_FENCE_GEN_GEN = (s.rd F.FT_FENCE_GEN_GEN + if res = 0 then 1 else 0) % 2 ^ 32 ∧
        n.fault = (if res = 0 then { s.fault with reqs := s.fault.reqs ++ [⟨kind.toNat, unit.toNat, un, 3⟩] } else s.fault) ∧
        regsBut [F.FT_WALK_RESULT.key 0 0, F.FT_FENCE_GEN_GEN.key 0 0] s n ∧ n = { s with rf := n.rf, fault := n.fault }) ∧
    (s.fault.active = none → s.fault.reqs = r :: l →
      (r.un = false → r.kind = 0 → u < 3072 → (s.tile u).creds = [] →
        ∃ n, exec .fenceExecute s = .next n ∧ n.tstate u = 4 ∧ n.rd F.T_HALT_VALID u = 1 ∧
          (s.rd F.T_HALT_VALID u = 0 → n.rd F.T_HALT_REASON u = 0x0F ∧ n.rd F.T_HALT_ADDR u = s.rd F.T_PC_ADDR u) ∧ (n.rd F.FT_FENCED_TILE_MAP 0 (u / 64)).testBit (u % 64) = true ∧
          (n.tile u).mq = [] ∧ (n.tile u).sq = [] ∧ (n.tile u).results = [] ∧ (n.tile u).manQ = [] ∧ (n.tile u).sampQ = [] ∧
          (∀ j < 16, n.credState u j ≠ 1 ∧ n.credState u j ≠ 2) ∧ n.fault.active = some r ∧ n.fault.reqs = l ∧
          logged1 s n 3 0 0x0020 (s.rd F.FT_FENCE_GEN_GEN) ∧ (∀ v < 3072, v ≠ u → n.tstate v = s.tstate v)) ∧
      (r.un = false → r.kind = 1 → 0 < u → u < 16 →
        ∃ n, exec .fenceExecute s = .next n ∧ n.rd F.L_STATUS_RUN u = 0 ∧ n.core u = { stopped := true } ∧ n.isFenced 1 u = true ∧
          (∀ j < 8, n.rd F.L_STRM_CTL_ACTIVE u j = 0) ∧ (∀ w ∈ n.hub.waits, ¬ (w.cls = 1 ∧ w.unit = u)) ∧ n.fault.active = some r ∧
          (∀ j < 32, s.rd F.FT_LEASE_STATE_HELD 0 j = 1 ∧ s.rd F.FT_LEASE_STATE_HOLDER 0 j = u →
            n.rd F.FT_LEASE_STATE_HELD 0 j = 0 ∧ n.rd F.FT_LEASE_STATE_REVOKED 0 j = 1) ∧
          (∀ v, v ≠ u → n.core v = s.core v) ∧ n.mem = s.mem) ∧
      (r.un = true → r.kind = 0 → u < 3072 →
        ∃ n, exec .unfenceExecute s = .next n ∧ (∀ i < 0x60000, n.byte (spad u i) = 0) ∧ memBut (spad u 0) 0x60000 s n ∧ n.tstate u = 0 ∧
          (n.rd F.FT_FENCED_TILE_MAP 0 (u / 64)).testBit (u % 64) = false ∧ n.rd F.T_PC_ADDR u = 0 ∧ n.fault.reqs = l ∧
          n.fault.active = none ∧ (∀ j < 13, n.rd F.T_IDLE_TC u j = s.rd F.T_IDLE_TC u j) ∧ (∀ v, v ≠ u → n.tile v = s.tile v) ∧
          logged1 s n 3 0 0x0021 (s.rd F.FT_FENCE_GEN_GEN)) ∧
      (r.un = true → exec .fenceExecute s = .next s) ∧ (r.un = false → exec .unfenceExecute s = .next s)) ∧
    (s.fault.active = none → exec .reclaimWalkEnd s = .next s) ∧
    (s.fault.active = some r → r.kind = 0 → (∀ w ∈ s.hub.waits, w.cls < 2 ∧ w.op = 3) →
      ∃ n, exec .reclaimWalkEnd s = .next n ∧ n.fault = { s.fault with active := none } ∧ n.hub.marks = [] ∧ n.mem = s.mem) ∧
    (s.fault.corr = [x] →
      let lim := s.rd F.FT_CORR_LIMIT_COUNT
      ∃ n, exec .corrWindowEnd s = .next n ∧ n.fault.corr = [] ∧
        (lim ≠ 0 → lim ≤ x.2 → logged1 s n 2 (x.1 / 4096) 0x10 (x.2 % 2 ^ 64)) ∧
        (lim = 0 ∨ x.2 < lim → n = { s with fault := { s.fault with corr := [] } }) ∧ told [] n) ∧
    (pri → f F.FT_LEASE_STATE_HELD s = 0 → 1 ≤ term.toNat → term.toNat ≤ 1000000 →
      ∃ n, exec (.leaseAcquire core lease term) s = .next n ∧ f F.FT_LEASE_STATE_HELD n = 1 ∧ f F.FT_LEASE_STATE_HOLDER n = core.val ∧
        f F.FT_LEASE_STATE_REMAIN n = term.toNat ∧
        f F.FT_LEASE_STATE_SEQ n = (f F.FT_LEASE_STATE_SEQ s + 1) % 2 ^ F.FT_LEASE_STATE_SEQ.width ∧
        regsBut [kl F.FT_LEASE_STATE_HELD, kl F.FT_LEASE_STATE_HOLDER, kl F.FT_LEASE_STATE_REMAIN, kl F.FT_LEASE_STATE_SEQ] s n ∧
        n = { s with rf := n.rf }) ∧
    (pri → f F.FT_LEASE_STATE_HELD s = 1 → exec (.leaseAcquire core lease term) s = .next s) ∧
    (pri → held → 1 ≤ term.toNat → term.toNat ≤ 1000000 →
      ∃ n, exec (.leaseRenew core lease term) s = .next n ∧ f F.FT_LEASE_STATE_REMAIN n = term.toNat ∧
        regsBut [kl F.FT_LEASE_STATE_REMAIN] s n ∧ n = { s with rf := n.rf }) ∧
    (pri → held → ∃ n, exec (.leaseRelease core lease) s = .next n ∧ f F.FT_LEASE_STATE_HELD n = 0 ∧
      regsBut [kl F.FT_LEASE_STATE_HELD] s n ∧ n = { s with rf := n.rf }) ∧
    (pri → ¬ held → exec (.leaseRenew core lease term) s = .next s ∧ exec (.leaseRelease core lease) s = .next s) ∧
    (s.rd F.L_STATUS_SUPER core = 0 → s.coreReady core = true → ∀ i ∈ [Instr.leaseAcquire core lease term, .leaseRenew core lease term,
        .leaseRelease core lease], ∃ n, exec i s = .next n ∧ coreFaulted s n core 0x13 0 (0x3800_0000_8400 + 16 * lease)) ∧
    (f F.FT_LEASE_STATE_HELD s = 1 → f F.FT_LEASE_STATE_REMAIN s = 0 →
      ∃ n, exec (.leaseExpire lease) s = .next n ∧ f F.FT_LEASE_STATE_HELD n = 0 ∧ f F.FT_LEASE_STATE_REVOKED n = 1 ∧
        logged1 s n 8 7 0x80 ((f F.FT_LEASE_STATE_HOLDER s + f F.FT_LEASE_STATE_SEQ s * 2 ^ 32) % 2 ^ 64) ∧
        told [kl F.FT_LEASE_STATE_HELD, kl F.FT_LEASE_STATE_REVOKED] n) ∧
    (f F.FT_LEASE_STATE_HELD s = 0 ∨ f F.FT_LEASE_STATE_REMAIN s ≠ 0 → exec (.leaseExpire lease) s = .next s) ∧
    (∃ n, exec (.ftSoftCode code) s = .next n ∧ logged1 s n 15 8 (0x8000 + code.toNat) (s.rd F.FT_SOFT_DATA_DATA) ∧ told [] n)

/-- State.reset is in canonical form with an empty queue and no unit in any state of its own; every field of every
register map reads its reset value, among them the non-zero ones of R482, R93, R65, R187 and R487: grant and limit 700
W, floor 410 W, 78,125 µW a token, T_CTRL.BP_EN 1, XT_SLACK_LIMIT 600,000, 256 tokens a domain, the module BOOTING.
The model's choices, marked in log entries 1 and 4, are that its stepping is B0 and that memory reads 0. -/
def Obligations.ResetLeavesEveryRegisterAtItsResetValue : Prop :=
  State.reset.wf = true ∧ State.reset.pending = [] ∧ State.reset.tiles = [] ∧ State.reset.quays = [] ∧
    State.reset.cores = [] ∧ State.reset.engs = [] ∧ State.reset.ports = [] ∧ State.reset.hub = {} ∧
    (∀ (f : Fld) (u i : Nat), State.reset.rd f u i = f.rst % 2 ^ f.width) ∧
    State.reset.rd F.PW_GRANT_WATTS = 700 ∧ State.reset.rd F.PW_GRANT_LIMIT = 700 ∧ State.reset.rd F.PW_FLOOR_WATTS = 410 ∧
    State.reset.rd F.PW_HEAVY_UW = 78125 ∧ State.reset.rd F.XT_SLACK_LIMIT_LIMIT = 600000 ∧
    State.reset.rd F.CP_STATE_STATE = 1 ∧ (∀ d : Fin 12, State.reset.rd F.PW_TOKEN_CAP_CAP 0 d = 256) ∧
    (∀ t : TileId, State.reset.rd F.T_CTRL_BP_EN t = 1 ∧ State.reset.tstate t = 0 ∧ State.reset.rd F.T_HALT_VALID t = 0) ∧
    (∀ a, State.reset.byte a = 0) ∧ State.reset.stepping.id = 0x00B0

/-- From every state whose memory and register file are in canonical form (addresses strictly rising, no entry listed that
reads as an unlisted one does), every step, whatever command stands at the front of the queue and the step of an empty
queue too, leaves them in canonical form: so equal memories and equal registers stay equal data. -/
def Obligations.EveryStepKeepsTheCanonicalForm : Prop :=
  ∀ s n : State, s.wf = true → step s = .next n → n.wf = true

/-- For every one of the 331 commands with any operands and in every state, exec answers a next state: none ends in a
fault or a refusal. The waiting commands and the stepping of the die are as they were. -/
def Obligations.EveryCommandCompletes : Prop :=
  ∀ (c : Instr) (s : State), ∃ n, exec c s = .next n ∧ n.pending = s.pending ∧ n.stepping = s.stepping
end

