-- ==== Sys2Proof/Laws/Encoding.lean ====
section
/-! SUPPORT. Decoding an encoded slot gives the slot back: each operation's fields lie where its layout puts them. -/

set_option linter.unusedSimpArgs false

namespace Sys2Proof.Machine

/-- A bit field as a quotient and a remainder. -/
theorem bits_eq (v lo w : Nat) : bits v lo w = v / 2 ^ lo % 2 ^ w := by
  unfold bits; rw [Nat.shiftRight_eq_div_pow]

theorem aluOf_fn (o : AluOp) : aluOf o.fn = some o ∧ o.fn < 64 := by cases o <;> decide
theorem fopOf_fn (o : FOp) : fopOf o.fn = some o ∧ o.fn < 8 := by cases o <;> decide
theorem cmpOf_fn (o : CmpOp) : cmpOf o.fn = some o ∧ o.fn < 64 := by cases o <;> decide

/-- What a slot's decoder finds in a word made of an opcode, operand bits and a predicate field. -/
theorem decodeSlot_parts (op x pred : Nat) (neg : Bool) (cls : Nat) (hop : op < 128) (hx : x < 2 ^ 21) (hp : pred < 8)
    (hn : pred ≠ 0 ∨ neg = false) (o : SlotOp)
    (h : (match cls with | 0 => decS op x | 1 => decV op x | 2 => decM op x | _ => decX op x) = .ok o) :
    decodeSlot cls (op * 2 ^ 25 + x + pred * 2 ^ 22 + b2n neg * 2 ^ 21) = .ok ⟨pred, neg, o⟩ := by
  have hb : b2n neg < 2 := by cases neg <;> decide
  have h1 : bits (op * 2 ^ 25 + x + pred * 2 ^ 22 + b2n neg * 2 ^ 21) 25 7 = op := by rw [bits_eq]; omega
  have h2 : bits (op * 2 ^ 25 + x + pred * 2 ^ 22 + b2n neg * 2 ^ 21) 0 21 = x := by rw [bits_eq]; omega
  have h3 : bits (op * 2 ^ 25 + x + pred * 2 ^ 22 + b2n neg * 2 ^ 21) 22 3 = pred := by rw [bits_eq]; omega
  have h4 : bits (op * 2 ^ 25 + x + pred * 2 ^ 22 + b2n neg * 2 ^ 21) 21 1 = b2n neg := by rw [bits_eq]; omega
  have hd : decOp cls (op * 2 ^ 25 + x + pred * 2 ^ 22 + b2n neg * 2 ^ 21) = .ok o := by
    unfold decOp
    simp only [h1, h2]
    exact h
  unfold decodeSlot
  simp only [hd, h3, h4]
  rw [if_neg]
  · cases neg <;> rfl
  · rintro ⟨hp0, hn1⟩
    rcases hn with hn | hn
    · exact hn hp0
    · rw [hn] at hn1; exact absurd hn1 (by decide)

/-- The checks of a slot's fields, as arithmetic. -/
theorem fieldsOk_true (b : Bool) (o : SlotOp) (h : b = true) : fieldsOk b o = .ok o := by rw [h]; rfl

theorem dec_alu (o : AluOp) (d : Nat) (a : Nat) (b : Nat) (hw : (SlotOp.alu o d a b).wf = true) :
    ∃ x, (SlotOp.alu o d a b).enc = 1 * 2 ^ 25 + x ∧ x < 2 ^ 21 ∧ decS 1 x = .ok (.alu o d a b) := by
  simp only [SlotOp.wf, SlotOp.wf.r1, SlotOp.wf.r3, SlotOp.wf.r4, SlotOp.wf.r5, SlotOp.wf.r6, ev, Bool.and_eq_true,
    Bool.or_eq_true, Bool.not_true, Bool.not_false, decide_eq_true_eq, beq_iff_eq, Bool.false_eq_true, false_or,
    true_or, and_true] at hw
  have hf := aluOf_fn o
  obtain ⟨x, hx⟩ : ∃ x, x = d * 2 ^ 16 + a * 2 ^ 11 + b * 2 ^ 6 + o.fn := ⟨_, rfl⟩
  refine ⟨x, by simp only [SlotOp.enc, encS, encI, encV, encM]; omega, by omega, ?_⟩
  have h0 : bits x 16 5 = d := by rw [bits_eq]; omega
  have h1 : bits x 11 5 = a := by rw [bits_eq]; omega
  have h2 : bits x 6 5 = b := by rw [bits_eq]; omega
  have h3 : bits x 0 6 = o.fn := by rw [bits_eq]; omega
  simp [decS, h0, h1, h2, h3, hf.1, fieldsOk, ev, hw]

theorem dec_imm_addi (d : Nat) (a : Nat) (i : Nat) (hw : (SlotOp.imm .addi d a i).wf = true) :
    ∃ x, (SlotOp.imm .addi d a i).enc = 2 * 2 ^ 25 + x ∧ x < 2 ^ 21 ∧ decS 2 x = .ok (.imm .addi d a i) := by
  simp only [SlotOp.wf, SlotOp.wf.r1, SlotOp.wf.r3, SlotOp.wf.r4, SlotOp.wf.r5, SlotOp.wf.r6, ev, Bool.and_eq_true,
    Bool.or_eq_true, Bool.not_true, Bool.not_false, decide_eq_true_eq, beq_iff_eq, Bool.false_eq_true, false_or,
    true_or, and_true] at hw
  obtain ⟨x, hx⟩ : ∃ x, x = d * 2 ^ 16 + a * 2 ^ 11 + i := ⟨_, rfl⟩
  refine ⟨x, by simp only [SlotOp.enc, encS, encI, encV, encM]; omega, by omega, ?_⟩
  have h0 : bits x 16 5 = d := by rw [bits_eq]; omega
  have h1 : bits x 11 5 = a := by rw [bits_eq]; omega
  have h2 : bits x 0 11 = i := by rw [bits_eq]; omega
  simp [decS, h0, h1, h2, fieldsOk, ev, hw]

theorem dec_imm_andi (d : Nat) (a : Nat) (i : Nat) (hw : (SlotOp.imm .andi d a i).wf = true) :
    ∃ x, (SlotOp.imm .andi d a i).enc = 3 * 2 ^ 25 + x ∧ x < 2 ^ 21 ∧ decS 3 x = .ok (.imm .andi d a i) := by
  simp only [SlotOp.wf, SlotOp.wf.r1, SlotOp.wf.r3, SlotOp.wf.r4, SlotOp.wf.r5, SlotOp.wf.r6, ev, Bool.and_eq_true,
    Bool.or_eq_true, Bool.not_true, Bool.not_false, decide_eq_true_eq, beq_iff_eq, Bool.false_eq_true, false_or,
    true_or, and_true] at hw
  obtain ⟨x, hx⟩ : ∃ x, x = d * 2 ^ 16 + a * 2 ^ 11 + i := ⟨_, rfl⟩
  refine ⟨x, by simp only [SlotOp.enc, encS, encI, encV, encM]; omega, by omega, ?_⟩
  have h0 : bits x 16 5 = d := by rw [bits_eq]; omega
  have h1 : bits x 11 5 = a := by rw [bits_eq]; omega
  have h2 : bits x 0 11 = i := by rw [bits_eq]; omega
  simp [decS, h0, h1, h2, fieldsOk, ev, hw]

theorem dec_imm_ori (d : Nat) (a : Nat) (i : Nat) (hw : (SlotOp.imm .ori d a i).wf = true) :
    ∃ x, (SlotOp.imm .ori d a i).enc = 4 * 2 ^ 25 + x ∧ x < 2 ^ 21 ∧ decS 4 x = .ok (.imm .ori d a i) := by
  simp only [SlotOp.wf, SlotOp.wf.r1, SlotOp.wf.r3, SlotOp.wf.r4, SlotOp.wf.r5, SlotOp.wf.r6, ev, Bool.and_eq_true,
    Bool.or_eq_true, Bool.not_true, Bool.not_false, decide_eq_true_eq, beq_iff_eq, Bool.false_eq_true, false_or,
    true_or, and_true] at hw
  obtain ⟨x, hx⟩ : ∃ x, x = d * 2 ^ 16 + a * 2 ^ 11 + i := ⟨_, rfl⟩
  refine ⟨x, by simp only [SlotOp.enc, encS, encI, encV, encM]; omega, by omega, ?_⟩
  have h0 : bits x 16 5 = d := by rw [bits_eq]; omega
  have h1 : bits x 11 5 = a := by rw [bits_eq]; omega
  have h2 : bits x 0 11 = i := by rw [bits_eq]; omega
  simp [decS, h0, h1, h2, fieldsOk, ev, hw]

theorem dec_imm_xori (d : Nat) (a : Nat) (i : Nat) (hw : (SlotOp.imm .xori d a i).wf = true) :
    ∃ x, (SlotOp.imm .xori d a i).enc = 5 * 2 ^ 25 + x ∧ x < 2 ^ 21 ∧ decS 5 x = .ok (.imm .xori d a i) := by
  simp only [SlotOp.wf, SlotOp.wf.r1, SlotOp.wf.r3, SlotOp.wf.r4, SlotOp.wf.r5, SlotOp.wf.r6, ev, Bool.and_eq_true,
    Bool.or_eq_true, Bool.not_true, Bool.not_false, decide_eq_true_eq, beq_iff_eq, Bool.false_eq_true, false_or,
    true_or, and_true] at hw
  obtain ⟨x, hx⟩ : ∃ x, x = d * 2 ^ 16 + a * 2 ^ 11 + i := ⟨_, rfl⟩
  refine ⟨x, by simp only [SlotOp.enc, encS, encI, encV, encM]; omega, by omega, ?_⟩
  have h0 : bits x 16 5 = d := by rw [bits_eq]; omega
  have h1 : bits x 11 5 = a := by rw [bits_eq]; omega
  have h2 : bits x 0 11 = i := by rw [bits_eq]; omega
  simp [decS, h0, h1, h2, fieldsOk, ev, hw]

theorem dec_imm_cati (d : Nat) (a : Nat) (i : Nat) (hw : (SlotOp.imm .cati d a i).wf = true) :
    ∃ x, (SlotOp.imm .cati d a i).enc = 7 * 2 ^ 25 + x ∧ x < 2 ^ 21 ∧ decS 7 x = .ok (.imm .cati d a i) := by
  simp only [SlotOp.wf, SlotOp.wf.r1, SlotOp.wf.r3, SlotOp.wf.r4, SlotOp.wf.r5, SlotOp.wf.r6, ev, Bool.and_eq_true,
    Bool.or_eq_true, Bool.not_true, Bool.not_false, decide_eq_true_eq, beq_iff_eq, Bool.false_eq_true, false_or,
    true_or, and_true] at hw
  obtain ⟨x, hx⟩ : ∃ x, x = d * 2 ^ 16 + a * 2 ^ 11 + i := ⟨_, rfl⟩
  refine ⟨x, by simp only [SlotOp.enc, encS, encI, encV, encM]; omega, by omega, ?_⟩
  have h0 : bits x 16 5 = d := by rw [bits_eq]; omega
  have h1 : bits x 11 5 = a := by rw [bits_eq]; omega
  have h2 : bits x 0 11 = i := by rw [bits_eq]; omega
  simp [decS, h0, h1, h2, fieldsOk, ev, hw]

theorem dec_shi_shl (d : Nat) (a : Nat) (sh : Nat) (hw : (SlotOp.shi .shl d a sh).wf = true) :
    ∃ x, (SlotOp.shi .shl d a sh).enc = 6 * 2 ^ 25 + x ∧ x < 2 ^ 21 ∧ decS 6 x = .ok (.shi .shl d a sh) := by
  simp only [SlotOp.wf, SlotOp.wf.r1, SlotOp.wf.r3, SlotOp.wf.r4, SlotOp.wf.r5, SlotOp.wf.r6, ev, Bool.and_eq_true,
    Bool.or_eq_true, Bool.not_true, Bool.not_false, decide_eq_true_eq, beq_iff_eq, Bool.false_eq_true, false_or,
    true_or, and_true] at hw
  have hq : sh / 32 = 0 := by omega
  have hr : sh % 32 = sh := by omega
  obtain ⟨x, hx⟩ : ∃ x, x = d * 2 ^ 16 + a * 2 ^ 11 + sh := ⟨_, rfl⟩
  refine ⟨x, by simp only [SlotOp.enc, encS, encI, encV, encM]; omega, by omega, ?_⟩
  have h0 : bits x 16 5 = d := by rw [bits_eq]; omega
  have h1 : bits x 11 5 = a := by rw [bits_eq]; omega
  have h2 : bits x 0 11 = sh := by rw [bits_eq]; omega
  simp [decS, h0, h1, h2, hq, hr, fieldsOk, ev, hw]

theorem dec_shi_shr (d : Nat) (a : Nat) (sh : Nat) (hw : (SlotOp.shi .shr d a sh).wf = true) :
    ∃ x, (SlotOp.shi .shr d a sh).enc = 6 * 2 ^ 25 + x ∧ x < 2 ^ 21 ∧ decS 6 x = .ok (.shi .shr d a sh) := by
  simp only [SlotOp.wf, SlotOp.wf.r1, SlotOp.wf.r3, SlotOp.wf.r4, SlotOp.wf.r5, SlotOp.wf.r6, ev, Bool.and_eq_true,
    Bool.or_eq_true, Bool.not_true, Bool.not_false, decide_eq_true_eq, beq_iff_eq, Bool.false_eq_true, false_or,
    true_or, and_true] at hw
  have hq : (32 + sh) / 32 = 1 := by omega
  have hr : (32 + sh) % 32 = sh := by omega
  obtain ⟨x, hx⟩ : ∃ x, x = d * 2 ^ 16 + a * 2 ^ 11 + (32 + sh) := ⟨_, rfl⟩
  refine ⟨x, by simp only [SlotOp.enc, encS, encI, encV, encM]; omega, by omega, ?_⟩
  have h0 : bits x 16 5 = d := by rw [bits_eq]; omega
  have h1 : bits x 11 5 = a := by rw [bits_eq]; omega
  have h2 : bits x 0 11 = (32 + sh) := by rw [bits_eq]; omega
  simp [decS, h0, h1, h2, hq, hr, fieldsOk, ev, hw]

theorem dec_shi_sra (d : Nat) (a : Nat) (sh : Nat) (hw : (SlotOp.shi .sra d a sh).wf = true) :
    ∃ x, (SlotOp.shi .sra d a sh).enc = 6 * 2 ^ 25 + x ∧ x < 2 ^ 21 ∧ decS 6 x = .ok (.shi .sra d a sh) := by
  simp only [SlotOp.wf, SlotOp.wf.r1, SlotOp.wf.r3, SlotOp.wf.r4, SlotOp.wf.r5, SlotOp.wf.r6, ev, Bool.and_eq_true,
    Bool.or_eq_true, Bool.not_true, Bool.not_false, decide_eq_true_eq, beq_iff_eq, Bool.false_eq_true, false_or,
    true_or, and_true] at hw
  have hq : (64 + sh) / 32 = 2 := by omega
  have hr : (64 + sh) % 32 = sh := by omega
  obtain ⟨x, hx⟩ : ∃ x, x = d * 2 ^ 16 + a * 2 ^ 11 + (64 + sh) := ⟨_, rfl⟩
  refine ⟨x, by simp only [SlotOp.enc, encS, encI, encV, encM]; omega, by omega, ?_⟩
  have h0 : bits x 16 5 = d := by rw [bits_eq]; omega
  have h1 : bits x 11 5 = a := by rw [bits_eq]; omega
  have h2 : bits x 0 11 = (64 + sh) := by rw [bits_eq]; omega
  simp [decS, h0, h1, h2, hq, hr, fieldsOk, ev, hw]

theorem dec_cmp (o : CmpOp) (d : Nat) (a : Nat) (b : Nat) (hw : (SlotOp.cmp o d a b).wf = true) :
    ∃ x, (SlotOp.cmp o d a b).enc = 9 * 2 ^ 25 + x ∧ x < 2 ^ 21 ∧ decS 9 x = .ok (.cmp o d a b) := by
  simp only [SlotOp.wf, SlotOp.wf.r1, SlotOp.wf.r3, SlotOp.wf.r4, SlotOp.wf.r5, SlotOp.wf.r6, ev, Bool.and_eq_true,
    Bool.or_eq_true, Bool.not_true, Bool.not_false, decide_eq_true_eq, beq_iff_eq, Bool.false_eq_true, false_or,
    true_or, and_true] at hw
  have hf := cmpOf_fn o
  obtain ⟨x, hx⟩ : ∃ x, x = d * 2 ^ 16 + a * 2 ^ 11 + b * 2 ^ 6 + o.fn := ⟨_, rfl⟩
  refine ⟨x, by simp only [SlotOp.enc, encS, encI, encV, encM]; omega, by omega, ?_⟩
  have h0 : bits x 16 5 = d := by rw [bits_eq]; omega
  have h1 : bits x 11 5 = a := by rw [bits_eq]; omega
  have h2 : bits x 6 5 = b := by rw [bits_eq]; omega
  have h3 : bits x 0 6 = o.fn := by rw [bits_eq]; omega
  simp [decS, h0, h1, h2, h3, hf.1, fieldsOk, ev, hw]

theorem dec_cmpi_eq (d : Nat) (a : Nat) (i : Nat) (hw : (SlotOp.cmpi .eq d a i).wf = true) :
    ∃ x, (SlotOp.cmpi .eq d a i).enc = 10 * 2 ^ 25 + x ∧ x < 2 ^ 21 ∧ decS 10 x = .ok (.cmpi .eq d a i) := by
  simp only [SlotOp.wf, SlotOp.wf.r1, SlotOp.wf.r3, SlotOp.wf.r4, SlotOp.wf.r5, SlotOp.wf.r6, ev, Bool.and_eq_true,
    Bool.or_eq_true, Bool.not_true, Bool.not_false, decide_eq_true_eq, beq_iff_eq, Bool.false_eq_true, false_or,
    true_or, and_true] at hw
  obtain ⟨x, hx⟩ : ∃ x, x = d * 2 ^ 16 + a * 2 ^ 11 + i := ⟨_, rfl⟩
  refine ⟨x, by simp only [SlotOp.enc, encS, encI, encV, encM]; omega, by omega, ?_⟩
  have h0 : bits x 16 5 = d := by rw [bits_eq]; omega
  have h1 : bits x 11 5 = a := by rw [bits_eq]; omega
  have h2 : bits x 0 11 = i := by rw [bits_eq]; omega
  simp [decS, h0, h1, h2, fieldsOk, ev, hw]

theorem dec_cmpi_lt (d : Nat) (a : Nat) (i : Nat) (hw : (SlotOp.cmpi .lt d a i).wf = true) :
    ∃ x, (SlotOp.cmpi .lt d a i).enc = 11 * 2 ^ 25 + x ∧ x < 2 ^ 21 ∧ decS 11 x = .ok (.cmpi .lt d a i) := by
  simp only [SlotOp.wf, SlotOp.wf.r1, SlotOp.wf.r3, SlotOp.wf.r4, SlotOp.wf.r5, SlotOp.wf.r6, ev, Bool.and_eq_true,
    Bool.or_eq_true, Bool.not_true, Bool.not_false, decide_eq_true_eq, beq_iff_eq, Bool.false_eq_true, false_or,
    true_or, and_true] at hw
  obtain ⟨x, hx⟩ : ∃ x, x = d * 2 ^ 16 + a * 2 ^ 11 + i := ⟨_, rfl⟩
  refine ⟨x, by simp only [SlotOp.enc, encS, encI, encV, encM]; omega, by omega, ?_⟩
  have h0 : bits x 16 5 = d := by rw [bits_eq]; omega
  have h1 : bits x 11 5 = a := by rw [bits_eq]; omega
  have h2 : bits x 0 11 = i := by rw [bits_eq]; omega
  simp [decS, h0, h1, h2, fieldsOk, ev, hw]

theorem dec_cmpi_ltu (d : Nat) (a : Nat) (i : Nat) (hw : (SlotOp.cmpi .ltu d a i).wf = true) :
    ∃ x, (SlotOp.cmpi .ltu d a i).enc = 12 * 2 ^ 25 + x ∧ x < 2 ^ 21 ∧ decS 12 x = .ok (.cmpi .ltu d a i) := by
  simp only [SlotOp.wf, SlotOp.wf.r1, SlotOp.wf.r3, SlotOp.wf.r4, SlotOp.wf.r5, SlotOp.wf.r6, ev, Bool.and_eq_true,
    Bool.or_eq_true, Bool.not_true, Bool.not_false, decide_eq_true_eq, beq_iff_eq, Bool.false_eq_true, false_or,
    true_or, and_true] at hw
  obtain ⟨x, hx⟩ : ∃ x, x = d * 2 ^ 16 + a * 2 ^ 11 + i := ⟨_, rfl⟩
  refine ⟨x, by simp only [SlotOp.enc, encS, encI, encV, encM]; omega, by omega, ?_⟩
  have h0 : bits x 16 5 = d := by rw [bits_eq]; omega
  have h1 : bits x 11 5 = a := by rw [bits_eq]; omega
  have h2 : bits x 0 11 = i := by rw [bits_eq]; omega
  simp [decS, h0, h1, h2, fieldsOk, ev, hw]

theorem dec_plog_and (d : Nat) (a : Nat) (b : Nat) (hw : (SlotOp.plog .and d a b).wf = true) :
    ∃ x, (SlotOp.plog .and d a b).enc = 13 * 2 ^ 25 + x ∧ x < 2 ^ 21 ∧ decS 13 x = .ok (.plog .and d a b) := by
  simp only [SlotOp.wf, SlotOp.wf.r1, SlotOp.wf.r3, SlotOp.wf.r4, SlotOp.wf.r5, SlotOp.wf.r6, ev, Bool.and_eq_true,
    Bool.or_eq_true, Bool.not_true, Bool.not_false, decide_eq_true_eq, beq_iff_eq, Bool.false_eq_true, false_or,
    true_or, and_true] at hw
  obtain ⟨x, hx⟩ : ∃ x, x = d * 2 ^ 16 + a * 2 ^ 11 + b * 2 ^ 6 + 0 := ⟨_, rfl⟩
  refine ⟨x, by simp only [SlotOp.enc, encS, encI, encV, encM]; omega, by omega, ?_⟩
  have h0 : bits x 16 5 = d := by rw [bits_eq]; omega
  have h1 : bits x 11 5 = a := by rw [bits_eq]; omega
  have h2 : bits x 6 5 = b := by rw [bits_eq]; omega
  have h3 : bits x 0 6 = 0 := by rw [bits_eq]; omega
  simp [decS, h0, h1, h2, h3, fieldsOk, ev, hw]

theorem dec_plog_or (d : Nat) (a : Nat) (b : Nat) (hw : (SlotOp.plog .or d a b).wf = true) :
    ∃ x, (SlotOp.plog .or d a b).enc = 13 * 2 ^ 25 + x ∧ x < 2 ^ 21 ∧ decS 13 x = .ok (.plog .or d a b) := by
  simp only [SlotOp.wf, SlotOp.wf.r1, SlotOp.wf.r3, SlotOp.wf.r4, SlotOp.wf.r5, SlotOp.wf.r6, ev, Bool.and_eq_true,
    Bool.or_eq_true, Bool.not_true, Bool.not_false, decide_eq_true_eq, beq_iff_eq, Bool.false_eq_true, false_or,
    true_or, and_true] at hw
  obtain ⟨x, hx⟩ : ∃ x, x = d * 2 ^ 16 + a * 2 ^ 11 + b * 2 ^ 6 + 1 := ⟨_, rfl⟩
  refine ⟨x, by simp only [SlotOp.enc, encS, encI, encV, encM]; omega, by omega, ?_⟩
  have h0 : bits x 16 5 = d := by rw [bits_eq]; omega
  have h1 : bits x 11 5 = a := by rw [bits_eq]; omega
  have h2 : bits x 6 5 = b := by rw [bits_eq]; omega
  have h3 : bits x 0 6 = 1 := by rw [bits_eq]; omega
  simp [decS, h0, h1, h2, h3, fieldsOk, ev, hw]

theorem dec_plog_xor (d : Nat) (a : Nat) (b : Nat) (hw : (SlotOp.plog .xor d a b).wf = true) :
    ∃ x, (SlotOp.plog .xor d a b).enc = 13 * 2 ^ 25 + x ∧ x < 2 ^ 21 ∧ decS 13 x = .ok (.plog .xor d a b) := by
  simp only [SlotOp.wf, SlotOp.wf.r1, SlotOp.wf.r3, SlotOp.wf.r4, SlotOp.wf.r5, SlotOp.wf.r6, ev, Bool.and_eq_true,
    Bool.or_eq_true, Bool.not_true, Bool.not_false, decide_eq_true_eq, beq_iff_eq, Bool.false_eq_true, false_or,
    true_or, and_true] at hw
  obtain ⟨x, hx⟩ : ∃ x, x = d * 2 ^ 16 + a * 2 ^ 11 + b * 2 ^ 6 + 2 := ⟨_, rfl⟩
  refine ⟨x, by simp only [SlotOp.enc, encS, encI, encV, encM]; omega, by omega, ?_⟩
  have h0 : bits x 16 5 = d := by rw [bits_eq]; omega
  have h1 : bits x 11 5 = a := by rw [bits_eq]; omega
  have h2 : bits x 6 5 = b := by rw [bits_eq]; omega
  have h3 : bits x 0 6 = 2 := by rw [bits_eq]; omega
  simp [decS, h0, h1, h2, h3, fieldsOk, ev, hw]

theorem dec_plog_andn (d : Nat) (a : Nat) (b : Nat) (hw : (SlotOp.plog .andn d a b).wf = true) :
    ∃ x, (SlotOp.plog .andn d a b).enc = 13 * 2 ^ 25 + x ∧ x < 2 ^ 21 ∧ decS 13 x = .ok (.plog .andn d a b) := by
  simp only [SlotOp.wf, SlotOp.wf.r1, SlotOp.wf.r3, SlotOp.wf.r4, SlotOp.wf.r5, SlotOp.wf.r6, ev, Bool.and_eq_true,
    Bool.or_eq_true, Bool.not_true, Bool.not_false, decide_eq_true_eq, beq_iff_eq, Bool.false_eq_true, false_or,
    true_or, and_true] at hw
  obtain ⟨x, hx⟩ : ∃ x, x = d * 2 ^ 16 + a * 2 ^ 11 + b * 2 ^ 6 + 3 := ⟨_, rfl⟩
  refine ⟨x, by simp only [SlotOp.enc, encS, encI, encV, encM]; omega, by omega, ?_⟩
  have h0 : bits x 16 5 = d := by rw [bits_eq]; omega
  have h1 : bits x 11 5 = a := by rw [bits_eq]; omega
  have h2 : bits x 6 5 = b := by rw [bits_eq]; omega
  have h3 : bits x 0 6 = 3 := by rw [bits_eq]; omega
  simp [decS, h0, h1, h2, h3, fieldsOk, ev, hw]

theorem dec_mem_ld (d : Nat) (a : Nat) (i : Nat) (hw : (SlotOp.mem .ld d a i).wf = true) :
    ∃ x, (SlotOp.mem .ld d a i).enc = 16 * 2 ^ 25 + x ∧ x < 2 ^ 21 ∧ decS 16 x = .ok (.mem .ld d a i) := by
  simp only [SlotOp.wf, SlotOp.wf.r1, SlotOp.wf.r3, SlotOp.wf.r4, SlotOp.wf.r5, SlotOp.wf.r6, ev, Bool.and_eq_true,
    Bool.or_eq_true, Bool.not_true, Bool.not_false, decide_eq_true_eq, beq_iff_eq, Bool.false_eq_true, false_or,
    true_or, and_true] at hw
  obtain ⟨x, hx⟩ : ∃ x, x = d * 2 ^ 16 + a * 2 ^ 11 + i := ⟨_, rfl⟩
  refine ⟨x, by simp only [SlotOp.enc, encS, encI, encV, encM]; omega, by omega, ?_⟩
  have h0 : bits x 16 5 = d := by rw [bits_eq]; omega
  have h1 : bits x 11 5 = a := by rw [bits_eq]; omega
  have h2 : bits x 0 11 = i := by rw [bits_eq]; omega
  simp [decS, h0, h1, h2, fieldsOk, ev, hw]

theorem dec_mem_st (d : Nat) (a : Nat) (i : Nat) (hw : (SlotOp.mem .st d a i).wf = true) :
    ∃ x, (SlotOp.mem .st d a i).enc = 17 * 2 ^ 25 + x ∧ x < 2 ^ 21 ∧ decS 17 x = .ok (.mem .st d a i) := by
  simp only [SlotOp.wf, SlotOp.wf.r1, SlotOp.wf.r3, SlotOp.wf.r4, SlotOp.wf.r5, SlotOp.wf.r6, ev, Bool.and_eq_true,
    Bool.or_eq_true, Bool.not_true, Bool.not_false, decide_eq_true_eq, beq_iff_eq, Bool.false_eq_true, false_or,
    true_or, and_true] at hw
  obtain ⟨x, hx⟩ : ∃ x, x = d * 2 ^ 16 + a * 2 ^ 11 + i := ⟨_, rfl⟩
  refine ⟨x, by simp only [SlotOp.enc, encS, encI, encV, encM]; omega, by omega, ?_⟩
  have h0 : bits x 16 5 = d := by rw [bits_eq]; omega
  have h1 : bits x 11 5 = a := by rw [bits_eq]; omega
  have h2 : bits x 0 11 = i := by rw [bits_eq]; omega
  simp [decS, h0, h1, h2, fieldsOk, ev, hw]

theorem dec_mem_ldh (d : Nat) (a : Nat) (i : Nat) (hw : (SlotOp.mem .ldh d a i).wf = true) :
    ∃ x, (SlotOp.mem .ldh d a i).enc = 18 * 2 ^ 25 + x ∧ x < 2 ^ 21 ∧ decS 18 x = .ok (.mem .ldh d a i) := by
  simp only [SlotOp.wf, SlotOp.wf.r1, SlotOp.wf.r3, SlotOp.wf.r4, SlotOp.wf.r5, SlotOp.wf.r6, ev, Bool.and_eq_true,
    Bool.or_eq_true, Bool.not_true, Bool.not_false, decide_eq_true_eq, beq_iff_eq, Bool.false_eq_true, false_or,
    true_or, and_true] at hw
  obtain ⟨x, hx⟩ : ∃ x, x = d * 2 ^ 16 + a * 2 ^ 11 + i := ⟨_, rfl⟩
  refine ⟨x, by simp only [SlotOp.enc, encS, encI, encV, encM]; omega, by omega, ?_⟩
  have h0 : bits x 16 5 = d := by rw [bits_eq]; omega
  have h1 : bits x 11 5 = a := by rw [bits_eq]; omega
  have h2 : bits x 0 11 = i := by rw [bits_eq]; omega
  simp [decS, h0, h1, h2, fieldsOk, ev, hw]

theorem dec_mem_sth (d : Nat) (a : Nat) (i : Nat) (hw : (SlotOp.mem .sth d a i).wf = true) :
    ∃ x, (SlotOp.mem .sth d a i).enc = 19 * 2 ^ 25 + x ∧ x < 2 ^ 21 ∧ decS 19 x = .ok (.mem .sth d a i) := by
  simp only [SlotOp.wf, SlotOp.wf.r1, SlotOp.wf.r3, SlotOp.wf.r4, SlotOp.wf.r5, SlotOp.wf.r6, ev, Bool.and_eq_true,
    Bool.or_eq_true, Bool.not_true, Bool.not_false, decide_eq_true_eq, beq_iff_eq, Bool.false_eq_true, false_or,
    true_or, and_true] at hw
  obtain ⟨x, hx⟩ : ∃ x, x = d * 2 ^ 16 + a * 2 ^ 11 + i := ⟨_, rfl⟩
  refine ⟨x, by simp only [SlotOp.enc, encS, encI, encV, encM]; omega, by omega, ?_⟩
  have h0 : bits x 16 5 = d := by rw [bits_eq]; omega
  have h1 : bits x 11 5 = a := by rw [bits_eq]; omega
  have h2 : bits x 0 11 = i := by rw [bits_eq]; omega
  simp [decS, h0, h1, h2, fieldsOk, ev, hw]

theorem dec_br (off : Nat) (hw : (SlotOp.br off).wf = true) :
    ∃ x, (SlotOp.br off).enc = 112 * 2 ^ 25 + x ∧ x < 2 ^ 21 ∧ decS 112 x = .ok (.br off) := by
  simp only [SlotOp.wf, SlotOp.wf.r1, SlotOp.wf.r3, SlotOp.wf.r4, SlotOp.wf.r5, SlotOp.wf.r6, ev, Bool.and_eq_true,
    Bool.or_eq_true, Bool.not_true, Bool.not_false, decide_eq_true_eq, beq_iff_eq, Bool.false_eq_true, false_or,
    true_or, and_true] at hw
  obtain ⟨x, hx⟩ : ∃ x, x = 0 * 2 ^ 16 + 0 * 2 ^ 11 + off := ⟨_, rfl⟩
  refine ⟨x, by simp only [SlotOp.enc, encS, encI, encV, encM]; omega, by omega, ?_⟩

  simp [decS, fieldsOk, ev, hw] <;> omega

theorem dec_brr (a : Nat) (hw : (SlotOp.brr a).wf = true) :
    ∃ x, (SlotOp.brr a).enc = 113 * 2 ^ 25 + x ∧ x < 2 ^ 21 ∧ decS 113 x = .ok (.brr a) := by
  simp only [SlotOp.wf, SlotOp.wf.r1, SlotOp.wf.r3, SlotOp.wf.r4, SlotOp.wf.r5, SlotOp.wf.r6, ev, Bool.and_eq_true,
    Bool.or_eq_true, Bool.not_true, Bool.not_false, decide_eq_true_eq, beq_iff_eq, Bool.false_eq_true, false_or,
    true_or, and_true] at hw
  obtain ⟨x, hx⟩ : ∃ x, x = 0 * 2 ^ 16 + a * 2 ^ 11 + 0 := ⟨_, rfl⟩
  refine ⟨x, by simp only [SlotOp.enc, encS, encI, encV, encM]; omega, by omega, ?_⟩
  have h0 : bits x 16 5 = 0 := by rw [bits_eq]; omega
  have h1 : bits x 11 5 = a := by rw [bits_eq]; omega
  have h2 : bits x 0 11 = 0 := by rw [bits_eq]; omega
  simp [decS, h0, h1, h2, fieldsOk, ev, hw]

theorem dec_loop (l : Nat) (a : Nat) (n : Nat) (hw : (SlotOp.loop l a n).wf = true) :
    ∃ x, (SlotOp.loop l a n).enc = 114 * 2 ^ 25 + x ∧ x < 2 ^ 21 ∧ decS 114 x = .ok (.loop l a n) := by
  simp only [SlotOp.wf, SlotOp.wf.r1, SlotOp.wf.r3, SlotOp.wf.r4, SlotOp.wf.r5, SlotOp.wf.r6, ev, Bool.and_eq_true,
    Bool.or_eq_true, Bool.not_true, Bool.not_false, decide_eq_true_eq, beq_iff_eq, Bool.false_eq_true, false_or,
    true_or, and_true] at hw
  obtain ⟨x, hx⟩ : ∃ x, x = 0 * 2 ^ 16 + 0 * 2 ^ 11 + (l * 2 ^ 20 + a * 2 ^ 15 + n) := ⟨_, rfl⟩
  refine ⟨x, by simp only [SlotOp.enc, encS, encI, encV, encM]; omega, by omega, ?_⟩
  have h0 : bits x 20 1 = l := by rw [bits_eq]; omega
  have h1 : bits x 15 5 = a := by rw [bits_eq]; omega
  have h2 : bits x 0 15 = n := by rw [bits_eq]; omega
  simp [decS, h0, h1, h2, fieldsOk, ev, hw]

theorem dec_endp  (hw : (SlotOp.endp).wf = true) :
    ∃ x, (SlotOp.endp).enc = 115 * 2 ^ 25 + x ∧ x < 2 ^ 21 ∧ decS 115 x = .ok (.endp) := by
  simp only [SlotOp.wf, SlotOp.wf.r1, SlotOp.wf.r3, SlotOp.wf.r4, SlotOp.wf.r5, SlotOp.wf.r6, ev, Bool.and_eq_true,
    Bool.or_eq_true, Bool.not_true, Bool.not_false, decide_eq_true_eq, beq_iff_eq, Bool.false_eq_true, false_or,
    true_or, and_true] at hw
  obtain ⟨x, hx⟩ : ∃ x, x = 0 * 2 ^ 16 + 0 * 2 ^ 11 + 0 := ⟨_, rfl⟩
  refine ⟨x, by simp only [SlotOp.enc, encS, encI, encV, encM]; omega, by omega, ?_⟩

  simp [decS, fieldsOk, ev, hw] <;> omega

theorem dec_rdspec (d : Nat) (sel : Nat) (hw : (SlotOp.rdspec d sel).wf = true) :
    ∃ x, (SlotOp.rdspec d sel).enc = 116 * 2 ^ 25 + x ∧ x < 2 ^ 21 ∧ decS 116 x = .ok (.rdspec d sel) := by
  simp only [SlotOp.wf, SlotOp.wf.r1, SlotOp.wf.r3, SlotOp.wf.r4, SlotOp.wf.r5, SlotOp.wf.r6, ev, Bool.and_eq_true,
    Bool.or_eq_true, Bool.not_true, Bool.not_false, decide_eq_true_eq, beq_iff_eq, Bool.false_eq_true, false_or,
    true_or, and_true] at hw
  obtain ⟨x, hx⟩ : ∃ x, x = d * 2 ^ 16 + 0 * 2 ^ 11 + sel := ⟨_, rfl⟩
  refine ⟨x, by simp only [SlotOp.enc, encS, encI, encV, encM]; omega, by omega, ?_⟩
  have h0 : bits x 16 5 = d := by rw [bits_eq]; omega
  have h1 : bits x 2 14 = 0 := by rw [bits_eq]; omega
  have h2 : bits x 0 5 = sel := by rw [bits_eq]; omega
  simp [decS, h0, h1, h2, fieldsOk, ev, hw]

theorem dec_vbf (o : FOp) (d : Nat) (a : Nat) (b : Nat) (c : Nat) (hw : (SlotOp.vbf o d a b c).wf = true) :
    ∃ x, (SlotOp.vbf o d a b c).enc = 1 * 2 ^ 25 + x ∧ x < 2 ^ 21 ∧ decV 1 x = .ok (.vbf o d a b c) := by
  simp only [SlotOp.wf, SlotOp.wf.r1, SlotOp.wf.r3, SlotOp.wf.r4, SlotOp.wf.r5, SlotOp.wf.r6, ev, Bool.and_eq_true,
    Bool.or_eq_true, Bool.not_true, Bool.not_false, decide_eq_true_eq, beq_iff_eq, Bool.false_eq_true, false_or,
    true_or, and_true] at hw
  have hf := fopOf_fn o
  obtain ⟨x, hx⟩ : ∃ x, x = d * 2 ^ 17 + a * 2 ^ 13 + b * 2 ^ 9 + c * 2 ^ 5 + o.fn := ⟨_, rfl⟩
  refine ⟨x, by simp only [SlotOp.enc, encS, encI, encV, encM]; omega, by omega, ?_⟩
  have h0 : bits x 17 4 = d := by rw [bits_eq]; omega
  have h1 : bits x 13 4 = a := by rw [bits_eq]; omega
  have h2 : bits x 9 4 = b := by rw [bits_eq]; omega
  have h3 : bits x 5 4 = c := by rw [bits_eq]; omega
  have h4 : bits x 0 5 = o.fn := by rw [bits_eq]; omega
  simp [decV, h0, h1, h2, h3, h4, hf.1, fieldsOk, ev, hw]

theorem dec_vf32_false (o : FOp) (d : Nat) (a : Nat) (b : Nat) (c : Nat) (hw : (SlotOp.vf32 o false d a b c).wf = true) :
    ∃ x, (SlotOp.vf32 o false d a b c).enc = 2 * 2 ^ 25 + x ∧ x < 2 ^ 21 ∧ decV 2 x = .ok (.vf32 o false d a b c) := by
  simp only [SlotOp.wf, SlotOp.wf.r1, SlotOp.wf.r3, SlotOp.wf.r4, SlotOp.wf.r5, SlotOp.wf.r6, ev, Bool.and_eq_true,
    Bool.or_eq_true, Bool.not_true, Bool.not_false, decide_eq_true_eq, beq_iff_eq, Bool.false_eq_true, false_or,
    true_or, and_true] at hw
  have hf := fopOf_fn o
  have hb : b2n false = 0 := rfl
  have hq : (2 * o.fn + b2n false) / 2 = o.fn := by omega
  have hr : (2 * o.fn + b2n false) % 2 = 0 := by omega
  obtain ⟨x, hx⟩ : ∃ x, x = d * 2 ^ 17 + a * 2 ^ 13 + b * 2 ^ 9 + c * 2 ^ 5 + (2 * o.fn + b2n false) := ⟨_, rfl⟩
  refine ⟨x, by simp only [SlotOp.enc, encS, encI, encV, encM]; omega, by omega, ?_⟩
  have h0 : bits x 17 4 = d := by rw [bits_eq]; omega
  have h1 : bits x 13 4 = a := by rw [bits_eq]; omega
  have h2 : bits x 9 4 = b := by rw [bits_eq]; omega
  have h3 : bits x 5 4 = c := by rw [bits_eq]; omega
  have h4 : bits x 0 5 = (2 * o.fn + b2n false) := by rw [bits_eq]; omega
  simp [decV, h0, h1, h2, h3, h4, hf.1, hq, hr, fieldsOk, ev, hw]

theorem dec_vf32_true (o : FOp) (d : Nat) (a : Nat) (b : Nat) (c : Nat) (hw : (SlotOp.vf32 o true d a b c).wf = true) :
    ∃ x, (SlotOp.vf32 o true d a b c).enc = 2 * 2 ^ 25 + x ∧ x < 2 ^ 21 ∧ decV 2 x = .ok (.vf32 o true d a b c) := by
  simp only [SlotOp.wf, SlotOp.wf.r1, SlotOp.wf.r3, SlotOp.wf.r4, SlotOp.wf.r5, SlotOp.wf.r6, ev, Bool.and_eq_true,
    Bool.or_eq_true, Bool.not_true, Bool.not_false, decide_eq_true_eq, beq_iff_eq, Bool.false_eq_true, false_or,
    true_or, and_true] at hw
  have hf := fopOf_fn o
  have hb : b2n true = 1 := rfl
  have hq : (2 * o.fn + b2n true) / 2 = o.fn := by omega
  have hr : (2 * o.fn + b2n true) % 2 = 1 := by omega
  obtain ⟨x, hx⟩ : ∃ x, x = d * 2 ^ 17 + a * 2 ^ 13 + b * 2 ^ 9 + c * 2 ^ 5 + (2 * o.fn + b2n true) := ⟨_, rfl⟩
  refine ⟨x, by simp only [SlotOp.enc, encS, encI, encV, encM]; omega, by omega, ?_⟩
  have h0 : bits x 17 4 = d := by rw [bits_eq]; omega
  have h1 : bits x 13 4 = a := by rw [bits_eq]; omega
  have h2 : bits x 9 4 = b := by rw [bits_eq]; omega
  have h3 : bits x 5 4 = c := by rw [bits_eq]; omega
  have h4 : bits x 0 5 = (2 * o.fn + b2n true) := by rw [bits_eq]; omega
  simp [decV, h0, h1, h2, h3, h4, hf.1, hq, hr, fieldsOk, ev, hw]

theorem dec_vcvt (fn : Nat) (d : Nat) (a : Nat) (hw : (SlotOp.vcvt fn d a).wf = true) :
    ∃ x, (SlotOp.vcvt fn d a).enc = 3 * 2 ^ 25 + x ∧ x < 2 ^ 21 ∧ decV 3 x = .ok (.vcvt fn d a) := by
  simp only [SlotOp.wf, SlotOp.wf.r1, SlotOp.wf.r3, SlotOp.wf.r4, SlotOp.wf.r5, SlotOp.wf.r6, ev, Bool.and_eq_true,
    Bool.or_eq_true, Bool.not_true, Bool.not_false, decide_eq_true_eq, beq_iff_eq, Bool.false_eq_true, false_or,
    true_or, and_true] at hw
  obtain ⟨x, hx⟩ : ∃ x, x = d * 2 ^ 17 + a * 2 ^ 13 + 0 * 2 ^ 9 + 0 * 2 ^ 5 + fn := ⟨_, rfl⟩
  refine ⟨x, by simp only [SlotOp.enc, encS, encI, encV, encM]; omega, by omega, ?_⟩
  have h0 : bits x 17 4 = d := by rw [bits_eq]; omega
  have h1 : bits x 13 4 = a := by rw [bits_eq]; omega
  have h2 : bits x 9 4 = 0 := by rw [bits_eq]; omega
  have h3 : bits x 5 4 = 0 := by rw [bits_eq]; omega
  have h4 : bits x 0 5 = fn := by rw [bits_eq]; omega
  simp [decV, h0, h1, h2, h3, h4, fieldsOk, ev, hw]

theorem dec_vfun_exp2 (d : Nat) (a : Nat) (hw : (SlotOp.vfun .exp2 d a).wf = true) :
    ∃ x, (SlotOp.vfun .exp2 d a).enc = 4 * 2 ^ 25 + x ∧ x < 2 ^ 21 ∧ decV 4 x = .ok (.vfun .exp2 d a) := by
  simp only [SlotOp.wf, SlotOp.wf.r1, SlotOp.wf.r3, SlotOp.wf.r4, SlotOp.wf.r5, SlotOp.wf.r6, ev, Bool.and_eq_true,
    Bool.or_eq_true, Bool.not_true, Bool.not_false, decide_eq_true_eq, beq_iff_eq, Bool.false_eq_true, false_or,
    true_or, and_true] at hw
  obtain ⟨x, hx⟩ : ∃ x, x = d * 2 ^ 17 + a * 2 ^ 13 + 0 * 2 ^ 9 + 0 * 2 ^ 5 + 0 := ⟨_, rfl⟩
  refine ⟨x, by simp only [SlotOp.enc, encS, encI, encV, encM]; omega, by omega, ?_⟩
  have h0 : bits x 17 4 = d := by rw [bits_eq]; omega
  have h1 : bits x 13 4 = a := by rw [bits_eq]; omega
  have h2 : bits x 9 4 = 0 := by rw [bits_eq]; omega
  have h3 : bits x 5 4 = 0 := by rw [bits_eq]; omega
  have h4 : bits x 0 5 = 0 := by rw [bits_eq]; omega
  simp [decV, h0, h1, h2, h3, h4, fieldsOk, ev, hw]

theorem dec_vfun_rcp (d : Nat) (a : Nat) (hw : (SlotOp.vfun .rcp d a).wf = true) :
    ∃ x, (SlotOp.vfun .rcp d a).enc = 4 * 2 ^ 25 + x ∧ x < 2 ^ 21 ∧ decV 4 x = .ok (.vfun .rcp d a) := by
  simp only [SlotOp.wf, SlotOp.wf.r1, SlotOp.wf.r3, SlotOp.wf.r4, SlotOp.wf.r5, SlotOp.wf.r6, ev, Bool.and_eq_true,
    Bool.or_eq_true, Bool.not_true, Bool.not_false, decide_eq_true_eq, beq_iff_eq, Bool.false_eq_true, false_or,
    true_or, and_true] at hw
  obtain ⟨x, hx⟩ : ∃ x, x = d * 2 ^ 17 + a * 2 ^ 13 + 0 * 2 ^ 9 + 0 * 2 ^ 5 + 1 := ⟨_, rfl⟩
  refine ⟨x, by simp only [SlotOp.enc, encS, encI, encV, encM]; omega, by omega, ?_⟩
  have h0 : bits x 17 4 = d := by rw [bits_eq]; omega
  have h1 : bits x 13 4 = a := by rw [bits_eq]; omega
  have h2 : bits x 9 4 = 0 := by rw [bits_eq]; omega
  have h3 : bits x 5 4 = 0 := by rw [bits_eq]; omega
  have h4 : bits x 0 5 = 1 := by rw [bits_eq]; omega
  simp [decV, h0, h1, h2, h3, h4, fieldsOk, ev, hw]

theorem dec_vfun_rsqrt (d : Nat) (a : Nat) (hw : (SlotOp.vfun .rsqrt d a).wf = true) :
    ∃ x, (SlotOp.vfun .rsqrt d a).enc = 4 * 2 ^ 25 + x ∧ x < 2 ^ 21 ∧ decV 4 x = .ok (.vfun .rsqrt d a) := by
  simp only [SlotOp.wf, SlotOp.wf.r1, SlotOp.wf.r3, SlotOp.wf.r4, SlotOp.wf.r5, SlotOp.wf.r6, ev, Bool.and_eq_true,
    Bool.or_eq_true, Bool.not_true, Bool.not_false, decide_eq_true_eq, beq_iff_eq, Bool.false_eq_true, false_or,
    true_or, and_true] at hw
  obtain ⟨x, hx⟩ : ∃ x, x = d * 2 ^ 17 + a * 2 ^ 13 + 0 * 2 ^ 9 + 0 * 2 ^ 5 + 2 := ⟨_, rfl⟩
  refine ⟨x, by simp only [SlotOp.enc, encS, encI, encV, encM]; omega, by omega, ?_⟩
  have h0 : bits x 17 4 = d := by rw [bits_eq]; omega
  have h1 : bits x 13 4 = a := by rw [bits_eq]; omega
  have h2 : bits x 9 4 = 0 := by rw [bits_eq]; omega
  have h3 : bits x 5 4 = 0 := by rw [bits_eq]; omega
  have h4 : bits x 0 5 = 2 := by rw [bits_eq]; omega
  simp [decV, h0, h1, h2, h3, h4, fieldsOk, ev, hw]

theorem dec_vred_sum (d : Nat) (a : Nat) (hw : (SlotOp.vred .sum d a).wf = true) :
    ∃ x, (SlotOp.vred .sum d a).enc = 5 * 2 ^ 25 + x ∧ x < 2 ^ 21 ∧ decV 5 x = .ok (.vred .sum d a) := by
  simp only [SlotOp.wf, SlotOp.wf.r1, SlotOp.wf.r3, SlotOp.wf.r4, SlotOp.wf.r5, SlotOp.wf.r6, ev, Bool.and_eq_true,
    Bool.or_eq_true, Bool.not_true, Bool.not_false, decide_eq_true_eq, beq_iff_eq, Bool.false_eq_true, false_or,
    true_or, and_true] at hw
  obtain ⟨x, hx⟩ : ∃ x, x = d * 2 ^ 17 + a * 2 ^ 13 + 0 * 2 ^ 9 + 0 * 2 ^ 5 + 0 := ⟨_, rfl⟩
  refine ⟨x, by simp only [SlotOp.enc, encS, encI, encV, encM]; omega, by omega, ?_⟩
  have h0 : bits x 17 4 = d := by rw [bits_eq]; omega
  have h1 : bits x 13 4 = a := by rw [bits_eq]; omega
  have h2 : bits x 9 4 = 0 := by rw [bits_eq]; omega
  have h3 : bits x 5 4 = 0 := by rw [bits_eq]; omega
  have h4 : bits x 0 5 = 0 := by rw [bits_eq]; omega
  simp [decV, h0, h1, h2, h3, h4, fieldsOk, ev, hw]

theorem dec_vred_max (d : Nat) (a : Nat) (hw : (SlotOp.vred .max d a).wf = true) :
    ∃ x, (SlotOp.vred .max d a).enc = 5 * 2 ^ 25 + x ∧ x < 2 ^ 21 ∧ decV 5 x = .ok (.vred .max d a) := by
  simp only [SlotOp.wf, SlotOp.wf.r1, SlotOp.wf.r3, SlotOp.wf.r4, SlotOp.wf.r5, SlotOp.wf.r6, ev, Bool.and_eq_true,
    Bool.or_eq_true, Bool.not_true, Bool.not_false, decide_eq_true_eq, beq_iff_eq, Bool.false_eq_true, false_or,
    true_or, and_true] at hw
  obtain ⟨x, hx⟩ : ∃ x, x = d * 2 ^ 17 + a * 2 ^ 13 + 0 * 2 ^ 9 + 0 * 2 ^ 5 + 1 := ⟨_, rfl⟩
  refine ⟨x, by simp only [SlotOp.enc, encS, encI, encV, encM]; omega, by omega, ?_⟩
  have h0 : bits x 17 4 = d := by rw [bits_eq]; omega
  have h1 : bits x 13 4 = a := by rw [bits_eq]; omega
  have h2 : bits x 9 4 = 0 := by rw [bits_eq]; omega
  have h3 : bits x 5 4 = 0 := by rw [bits_eq]; omega
  have h4 : bits x 0 5 = 1 := by rw [bits_eq]; omega
  simp [decV, h0, h1, h2, h3, h4, fieldsOk, ev, hw]

theorem dec_vred_min (d : Nat) (a : Nat) (hw : (SlotOp.vred .min d a).wf = true) :
    ∃ x, (SlotOp.vred .min d a).enc = 5 * 2 ^ 25 + x ∧ x < 2 ^ 21 ∧ decV 5 x = .ok (.vred .min d a) := by
  simp only [SlotOp.wf, SlotOp.wf.r1, SlotOp.wf.r3, SlotOp.wf.r4, SlotOp.wf.r5, SlotOp.wf.r6, ev, Bool.and_eq_true,
    Bool.or_eq_true, Bool.not_true, Bool.not_false, decide_eq_true_eq, beq_iff_eq, Bool.false_eq_true, false_or,
    true_or, and_true] at hw
  obtain ⟨x, hx⟩ : ∃ x, x = d * 2 ^ 17 + a * 2 ^ 13 + 0 * 2 ^ 9 + 0 * 2 ^ 5 + 2 := ⟨_, rfl⟩
  refine ⟨x, by simp only [SlotOp.enc, encS, encI, encV, encM]; omega, by omega, ?_⟩
  have h0 : bits x 17 4 = d := by rw [bits_eq]; omega
  have h1 : bits x 13 4 = a := by rw [bits_eq]; omega
  have h2 : bits x 9 4 = 0 := by rw [bits_eq]; omega
  have h3 : bits x 5 4 = 0 := by rw [bits_eq]; omega
  have h4 : bits x 0 5 = 2 := by rw [bits_eq]; omega
  simp [decV, h0, h1, h2, h3, h4, fieldsOk, ev, hw]

theorem dec_vred_any (d : Nat) (a : Nat) (hw : (SlotOp.vred .any d a).wf = true) :
    ∃ x, (SlotOp.vred .any d a).enc = 5 * 2 ^ 25 + x ∧ x < 2 ^ 21 ∧ decV 5 x = .ok (.vred .any d a) := by
  simp only [SlotOp.wf, SlotOp.wf.r1, SlotOp.wf.r3, SlotOp.wf.r4, SlotOp.wf.r5, SlotOp.wf.r6, ev, Bool.and_eq_true,
    Bool.or_eq_true, Bool.not_true, Bool.not_false, decide_eq_true_eq, beq_iff_eq, Bool.false_eq_true, false_or,
    true_or, and_true] at hw
  obtain ⟨x, hx⟩ : ∃ x, x = d * 2 ^ 17 + a * 2 ^ 13 + 0 * 2 ^ 9 + 0 * 2 ^ 5 + 3 := ⟨_, rfl⟩
  refine ⟨x, by simp only [SlotOp.enc, encS, encI, encV, encM]; omega, by omega, ?_⟩
  have h0 : bits x 17 4 = d := by rw [bits_eq]; omega
  have h1 : bits x 13 4 = a := by rw [bits_eq]; omega
  have h2 : bits x 9 4 = 0 := by rw [bits_eq]; omega
  have h3 : bits x 5 4 = 0 := by rw [bits_eq]; omega
  have h4 : bits x 0 5 = 3 := by rw [bits_eq]; omega
  simp [decV, h0, h1, h2, h3, h4, fieldsOk, ev, hw]

theorem dec_vred_all (d : Nat) (a : Nat) (hw : (SlotOp.vred .all d a).wf = true) :
    ∃ x, (SlotOp.vred .all d a).enc = 5 * 2 ^ 25 + x ∧ x < 2 ^ 21 ∧ decV 5 x = .ok (.vred .all d a) := by
  simp only [SlotOp.wf, SlotOp.wf.r1, SlotOp.wf.r3, SlotOp.wf.r4, SlotOp.wf.r5, SlotOp.wf.r6, ev, Bool.and_eq_true,
    Bool.or_eq_true, Bool.not_true, Bool.not_false, decide_eq_true_eq, beq_iff_eq, Bool.false_eq_true, false_or,
    true_or, and_true] at hw
  obtain ⟨x, hx⟩ : ∃ x, x = d * 2 ^ 17 + a * 2 ^ 13 + 0 * 2 ^ 9 + 0 * 2 ^ 5 + 4 := ⟨_, rfl⟩
  refine ⟨x, by simp only [SlotOp.enc, encS, encI, encV, encM]; omega, by omega, ?_⟩
  have h0 : bits x 17 4 = d := by rw [bits_eq]; omega
  have h1 : bits x 13 4 = a := by rw [bits_eq]; omega
  have h2 : bits x 9 4 = 0 := by rw [bits_eq]; omega
  have h3 : bits x 5 4 = 0 := by rw [bits_eq]; omega
  have h4 : bits x 0 5 = 4 := by rw [bits_eq]; omega
  simp [decV, h0, h1, h2, h3, h4, fieldsOk, ev, hw]

theorem dec_vld (d : Nat) (a : Nat) (off : Nat) (hw : (SlotOp.vld d a off).wf = true) :
    ∃ x, (SlotOp.vld d a off).enc = 6 * 2 ^ 25 + x ∧ x < 2 ^ 21 ∧ decV 6 x = .ok (.vld d a off) := by
  simp only [SlotOp.wf, SlotOp.wf.r1, SlotOp.wf.r3, SlotOp.wf.r4, SlotOp.wf.r5, SlotOp.wf.r6, ev, Bool.and_eq_true,
    Bool.or_eq_true, Bool.not_true, Bool.not_false, decide_eq_true_eq, beq_iff_eq, Bool.false_eq_true, false_or,
    true_or, and_true] at hw
  obtain ⟨x, hx⟩ : ∃ x, x = d * 2 ^ 17 + a * 2 ^ 13 + 0 * 2 ^ 9 + 0 * 2 ^ 5 + off := ⟨_, rfl⟩
  refine ⟨x, by simp only [SlotOp.enc, encS, encI, encV, encM]; omega, by omega, ?_⟩
  have h0 : bits x 17 4 = d := by rw [bits_eq]; omega
  have h1 : bits x 13 4 = a := by rw [bits_eq]; omega
  have h2 : bits x 0 13 = off := by rw [bits_eq]; omega
  simp [decV, h0, h1, h2, fieldsOk, ev, hw]

theorem dec_vst (d : Nat) (a : Nat) (off : Nat) (hw : (SlotOp.vst d a off).wf = true) :
    ∃ x, (SlotOp.vst d a off).enc = 7 * 2 ^ 25 + x ∧ x < 2 ^ 21 ∧ decV 7 x = .ok (.vst d a off) := by
  simp only [SlotOp.wf, SlotOp.wf.r1, SlotOp.wf.r3, SlotOp.wf.r4, SlotOp.wf.r5, SlotOp.wf.r6, ev, Bool.and_eq_true,
    Bool.or_eq_true, Bool.not_true, Bool.not_false, decide_eq_true_eq, beq_iff_eq, Bool.false_eq_true, false_or,
    true_or, and_true] at hw
  obtain ⟨x, hx⟩ : ∃ x, x = d * 2 ^ 17 + a * 2 ^ 13 + 0 * 2 ^ 9 + 0 * 2 ^ 5 + off := ⟨_, rfl⟩
  refine ⟨x, by simp only [SlotOp.enc, encS, encI, encV, encM]; omega, by omega, ?_⟩
  have h0 : bits x 17 4 = d := by rw [bits_eq]; omega
  have h1 : bits x 13 4 = a := by rw [bits_eq]; omega
  have h2 : bits x 0 13 = off := by rw [bits_eq]; omega
  simp [decV, h0, h1, h2, fieldsOk, ev, hw]

theorem dec_vbcast (d : Nat) (a : Nat) (hw : (SlotOp.vbcast d a).wf = true) :
    ∃ x, (SlotOp.vbcast d a).enc = 8 * 2 ^ 25 + x ∧ x < 2 ^ 21 ∧ decV 8 x = .ok (.vbcast d a) := by
  simp only [SlotOp.wf, SlotOp.wf.r1, SlotOp.wf.r3, SlotOp.wf.r4, SlotOp.wf.r5, SlotOp.wf.r6, ev, Bool.and_eq_true,
    Bool.or_eq_true, Bool.not_true, Bool.not_false, decide_eq_true_eq, beq_iff_eq, Bool.false_eq_true, false_or,
    true_or, and_true] at hw
  obtain ⟨x, hx⟩ : ∃ x, x = d * 2 ^ 17 + a * 2 ^ 13 + 0 * 2 ^ 9 + 0 * 2 ^ 5 + 0 := ⟨_, rfl⟩
  refine ⟨x, by simp only [SlotOp.enc, encS, encI, encV, encM]; omega, by omega, ?_⟩
  have h0 : bits x 17 4 = d := by rw [bits_eq]; omega
  have h1 : bits x 13 4 = a := by rw [bits_eq]; omega
  have h2 : bits x 9 4 = 0 := by rw [bits_eq]; omega
  have h3 : bits x 5 4 = 0 := by rw [bits_eq]; omega
  have h4 : bits x 0 5 = 0 := by rw [bits_eq]; omega
  simp [decV, h0, h1, h2, h3, h4, fieldsOk, ev, hw]

theorem dec_vq8_false (d : Nat) (a : Nat) (b : Nat) (h : Nat) (hw : (SlotOp.vq8 false d a b h).wf = true) :
    ∃ x, (SlotOp.vq8 false d a b h).enc = 9 * 2 ^ 25 + x ∧ x < 2 ^ 21 ∧ decV 9 x = .ok (.vq8 false d a b h) := by
  simp only [SlotOp.wf, SlotOp.wf.r1, SlotOp.wf.r3, SlotOp.wf.r4, SlotOp.wf.r5, SlotOp.wf.r6, ev, Bool.and_eq_true,
    Bool.or_eq_true, Bool.not_true, Bool.not_false, decide_eq_true_eq, beq_iff_eq, Bool.false_eq_true, false_or,
    true_or, and_true] at hw
  have hb : b2n false = 0 := rfl
  obtain ⟨x, hx⟩ : ∃ x, x = d * 2 ^ 17 + a * 2 ^ 13 + b * 2 ^ 9 + h * 2 ^ 5 + b2n false := ⟨_, rfl⟩
  refine ⟨x, by simp only [SlotOp.enc, encS, encI, encV, encM]; omega, by omega, ?_⟩
  have h0 : bits x 17 4 = d := by rw [bits_eq]; omega
  have h1 : bits x 13 4 = a := by rw [bits_eq]; omega
  have h2 : bits x 9 4 = b := by rw [bits_eq]; omega
  have h3 : bits x 5 4 = h := by rw [bits_eq]; omega
  have h4 : bits x 0 5 = 0 := by rw [bits_eq]; omega
  simp [decV, h0, h1, h2, h3, h4, fieldsOk, ev, hw]

theorem dec_vq8_true (d : Nat) (a : Nat) (b : Nat) (h : Nat) (hw : (SlotOp.vq8 true d a b h).wf = true) :
    ∃ x, (SlotOp.vq8 true d a b h).enc = 9 * 2 ^ 25 + x ∧ x < 2 ^ 21 ∧ decV 9 x = .ok (.vq8 true d a b h) := by
  simp only [SlotOp.wf, SlotOp.wf.r1, SlotOp.wf.r3, SlotOp.wf.r4, SlotOp.wf.r5, SlotOp.wf.r6, ev, Bool.and_eq_true,
    Bool.or_eq_true, Bool.not_true, Bool.not_false, decide_eq_true_eq, beq_iff_eq, Bool.false_eq_true, false_or,
    true_or, and_true] at hw
  have hb : b2n true = 1 := rfl
  obtain ⟨x, hx⟩ : ∃ x, x = d * 2 ^ 17 + a * 2 ^ 13 + b * 2 ^ 9 + h * 2 ^ 5 + b2n true := ⟨_, rfl⟩
  refine ⟨x, by simp only [SlotOp.enc, encS, encI, encV, encM]; omega, by omega, ?_⟩
  have h0 : bits x 17 4 = d := by rw [bits_eq]; omega
  have h1 : bits x 13 4 = a := by rw [bits_eq]; omega
  have h2 : bits x 9 4 = b := by rw [bits_eq]; omega
  have h3 : bits x 5 4 = h := by rw [bits_eq]; omega
  have h4 : bits x 0 5 = 1 := by rw [bits_eq]; omega
  simp [decV, h0, h1, h2, h3, h4, fieldsOk, ev, hw]

theorem dec_vdq8 (d : Nat) (a : Nat) (b : Nat) (h : Nat) (hw : (SlotOp.vdq8 d a b h).wf = true) :
    ∃ x, (SlotOp.vdq8 d a b h).enc = 10 * 2 ^ 25 + x ∧ x < 2 ^ 21 ∧ decV 10 x = .ok (.vdq8 d a b h) := by
  simp only [SlotOp.wf, SlotOp.wf.r1, SlotOp.wf.r3, SlotOp.wf.r4, SlotOp.wf.r5, SlotOp.wf.r6, ev, Bool.and_eq_true,
    Bool.or_eq_true, Bool.not_true, Bool.not_false, decide_eq_true_eq, beq_iff_eq, Bool.false_eq_true, false_or,
    true_or, and_true] at hw
  obtain ⟨x, hx⟩ : ∃ x, x = d * 2 ^ 17 + a * 2 ^ 13 + b * 2 ^ 9 + h * 2 ^ 5 + 0 := ⟨_, rfl⟩
  refine ⟨x, by simp only [SlotOp.enc, encS, encI, encV, encM]; omega, by omega, ?_⟩
  have h0 : bits x 17 4 = d := by rw [bits_eq]; omega
  have h1 : bits x 13 4 = a := by rw [bits_eq]; omega
  have h2 : bits x 9 4 = b := by rw [bits_eq]; omega
  have h3 : bits x 5 4 = h := by rw [bits_eq]; omega
  have h4 : bits x 0 5 = 0 := by rw [bits_eq]; omega
  simp [decV, h0, h1, h2, h3, h4, fieldsOk, ev, hw]

theorem dec_vrand (d : Nat) (hw : (SlotOp.vrand d).wf = true) :
    ∃ x, (SlotOp.vrand d).enc = 11 * 2 ^ 25 + x ∧ x < 2 ^ 21 ∧ decV 11 x = .ok (.vrand d) := by
  simp only [SlotOp.wf, SlotOp.wf.r1, SlotOp.wf.r3, SlotOp.wf.r4, SlotOp.wf.r5, SlotOp.wf.r6, ev, Bool.and_eq_true,
    Bool.or_eq_true, Bool.not_true, Bool.not_false, decide_eq_true_eq, beq_iff_eq, Bool.false_eq_true, false_or,
    true_or, and_true] at hw
  obtain ⟨x, hx⟩ : ∃ x, x = d * 2 ^ 17 + 0 * 2 ^ 13 + 0 * 2 ^ 9 + 0 * 2 ^ 5 + 0 := ⟨_, rfl⟩
  refine ⟨x, by simp only [SlotOp.enc, encS, encI, encV, encM]; omega, by omega, ?_⟩
  have h0 : bits x 17 4 = d := by rw [bits_eq]; omega
  have h1 : bits x 13 4 = 0 := by rw [bits_eq]; omega
  have h2 : bits x 9 4 = 0 := by rw [bits_eq]; omega
  have h3 : bits x 5 4 = 0 := by rw [bits_eq]; omega
  have h4 : bits x 0 5 = 0 := by rw [bits_eq]; omega
  simp [decV, h0, h1, h2, h3, h4, fieldsOk, ev, hw]

theorem dec_pack24_false (d : Nat) (a : Nat) (b : Nat) (c : Nat) (hw : (SlotOp.pack24 false d a b c).wf = true) :
    ∃ x, (SlotOp.pack24 false d a b c).enc = 12 * 2 ^ 25 + x ∧ x < 2 ^ 21 ∧ decV 12 x = .ok (.pack24 false d a b c) := by
  simp only [SlotOp.wf, SlotOp.wf.r1, SlotOp.wf.r3, SlotOp.wf.r4, SlotOp.wf.r5, SlotOp.wf.r6, ev, Bool.and_eq_true,
    Bool.or_eq_true, Bool.not_true, Bool.not_false, decide_eq_true_eq, beq_iff_eq, Bool.false_eq_true, false_or,
    true_or, and_true] at hw
  have hb : b2n false = 0 := rfl
  obtain ⟨x, hx⟩ : ∃ x, x = d * 2 ^ 17 + a * 2 ^ 13 + b * 2 ^ 9 + c * 2 ^ 5 + b2n false := ⟨_, rfl⟩
  refine ⟨x, by simp only [SlotOp.enc, encS, encI, encV, encM]; omega, by omega, ?_⟩
  have h0 : bits x 17 4 = d := by rw [bits_eq]; omega
  have h1 : bits x 13 4 = a := by rw [bits_eq]; omega
  have h2 : bits x 9 4 = b := by rw [bits_eq]; omega
  have h3 : bits x 5 4 = c := by rw [bits_eq]; omega
  have h4 : bits x 0 5 = 0 := by rw [bits_eq]; omega
  simp [decV, h0, h1, h2, h3, h4, fieldsOk, ev, hw]

theorem dec_pack24_true (d : Nat) (a : Nat) (b : Nat) (c : Nat) (hw : (SlotOp.pack24 true d a b c).wf = true) :
    ∃ x, (SlotOp.pack24 true d a b c).enc = 12 * 2 ^ 25 + x ∧ x < 2 ^ 21 ∧ decV 12 x = .ok (.pack24 true d a b c) := by
  simp only [SlotOp.wf, SlotOp.wf.r1, SlotOp.wf.r3, SlotOp.wf.r4, SlotOp.wf.r5, SlotOp.wf.r6, ev, Bool.and_eq_true,
    Bool.or_eq_true, Bool.not_true, Bool.not_false, decide_eq_true_eq, beq_iff_eq, Bool.false_eq_true, false_or,
    true_or, and_true] at hw
  have hb : b2n true = 1 := rfl
  obtain ⟨x, hx⟩ : ∃ x, x = d * 2 ^ 17 + a * 2 ^ 13 + b * 2 ^ 9 + c * 2 ^ 5 + b2n true := ⟨_, rfl⟩
  refine ⟨x, by simp only [SlotOp.enc, encS, encI, encV, encM]; omega, by omega, ?_⟩
  have h0 : bits x 17 4 = d := by rw [bits_eq]; omega
  have h1 : bits x 13 4 = a := by rw [bits_eq]; omega
  have h2 : bits x 9 4 = b := by rw [bits_eq]; omega
  have h3 : bits x 5 4 = c := by rw [bits_eq]; omega
  have h4 : bits x 0 5 = 1 := by rw [bits_eq]; omega
  simp [decV, h0, h1, h2, h3, h4, fieldsOk, ev, hw]

theorem dec_sv_hist0 (a : Nat) (hw : (SlotOp.sv .hist0 a).wf = true) :
    ∃ x, (SlotOp.sv .hist0 a).enc = 13 * 2 ^ 25 + x ∧ x < 2 ^ 21 ∧ decV 13 x = .ok (.sv .hist0 a) := by
  simp only [SlotOp.wf, SlotOp.wf.r1, SlotOp.wf.r3, SlotOp.wf.r4, SlotOp.wf.r5, SlotOp.wf.r6, ev, Bool.and_eq_true,
    Bool.or_eq_true, Bool.not_true, Bool.not_false, decide_eq_true_eq, beq_iff_eq, Bool.false_eq_true, false_or,
    true_or, and_true] at hw
  obtain ⟨x, hx⟩ : ∃ x, x = 0 * 2 ^ 17 + a * 2 ^ 13 + 0 * 2 ^ 9 + 0 * 2 ^ 5 + 0 := ⟨_, rfl⟩
  refine ⟨x, by simp only [SlotOp.enc, encS, encI, encV, encM]; omega, by omega, ?_⟩
  have h0 : bits x 17 4 = 0 := by rw [bits_eq]; omega
  have h1 : bits x 13 4 = a := by rw [bits_eq]; omega
  have h2 : bits x 9 4 = 0 := by rw [bits_eq]; omega
  have h3 : bits x 5 4 = 0 := by rw [bits_eq]; omega
  have h4 : bits x 0 5 = 0 := by rw [bits_eq]; omega
  simp [decV, h0, h1, h2, h3, h4, fieldsOk, ev, hw]

theorem dec_sv_hist1 (a : Nat) (hw : (SlotOp.sv .hist1 a).wf = true) :
    ∃ x, (SlotOp.sv .hist1 a).enc = 13 * 2 ^ 25 + x ∧ x < 2 ^ 21 ∧ decV 13 x = .ok (.sv .hist1 a) := by
  simp only [SlotOp.wf, SlotOp.wf.r1, SlotOp.wf.r3, SlotOp.wf.r4, SlotOp.wf.r5, SlotOp.wf.r6, ev, Bool.and_eq_true,
    Bool.or_eq_true, Bool.not_true, Bool.not_false, decide_eq_true_eq, beq_iff_eq, Bool.false_eq_true, false_or,
    true_or, and_true] at hw
  obtain ⟨x, hx⟩ : ∃ x, x = 0 * 2 ^ 17 + a * 2 ^ 13 + 0 * 2 ^ 9 + 0 * 2 ^ 5 + 1 := ⟨_, rfl⟩
  refine ⟨x, by simp only [SlotOp.enc, encS, encI, encV, encM]; omega, by omega, ?_⟩
  have h0 : bits x 17 4 = 0 := by rw [bits_eq]; omega
  have h1 : bits x 13 4 = a := by rw [bits_eq]; omega
  have h2 : bits x 9 4 = 0 := by rw [bits_eq]; omega
  have h3 : bits x 5 4 = 0 := by rw [bits_eq]; omega
  have h4 : bits x 0 5 = 1 := by rw [bits_eq]; omega
  simp [decV, h0, h1, h2, h3, h4, fieldsOk, ev, hw]

theorem dec_sv_cut0 (a : Nat) (hw : (SlotOp.sv .cut0 a).wf = true) :
    ∃ x, (SlotOp.sv .cut0 a).enc = 14 * 2 ^ 25 + x ∧ x < 2 ^ 21 ∧ decV 14 x = .ok (.sv .cut0 a) := by
  simp only [SlotOp.wf, SlotOp.wf.r1, SlotOp.wf.r3, SlotOp.wf.r4, SlotOp.wf.r5, SlotOp.wf.r6, ev, Bool.and_eq_true,
    Bool.or_eq_true, Bool.not_true, Bool.not_false, decide_eq_true_eq, beq_iff_eq, Bool.false_eq_true, false_or,
    true_or, and_true] at hw
  obtain ⟨x, hx⟩ : ∃ x, x = 0 * 2 ^ 17 + a * 2 ^ 13 + 0 * 2 ^ 9 + 0 * 2 ^ 5 + 0 := ⟨_, rfl⟩
  refine ⟨x, by simp only [SlotOp.enc, encS, encI, encV, encM]; omega, by omega, ?_⟩
  have h0 : bits x 17 4 = 0 := by rw [bits_eq]; omega
  have h1 : bits x 13 4 = a := by rw [bits_eq]; omega
  have h2 : bits x 9 4 = 0 := by rw [bits_eq]; omega
  have h3 : bits x 5 4 = 0 := by rw [bits_eq]; omega
  have h4 : bits x 0 5 = 0 := by rw [bits_eq]; omega
  simp [decV, h0, h1, h2, h3, h4, fieldsOk, ev, hw]

theorem dec_sv_cut1 (a : Nat) (hw : (SlotOp.sv .cut1 a).wf = true) :
    ∃ x, (SlotOp.sv .cut1 a).enc = 14 * 2 ^ 25 + x ∧ x < 2 ^ 21 ∧ decV 14 x = .ok (.sv .cut1 a) := by
  simp only [SlotOp.wf, SlotOp.wf.r1, SlotOp.wf.r3, SlotOp.wf.r4, SlotOp.wf.r5, SlotOp.wf.r6, ev, Bool.and_eq_true,
    Bool.or_eq_true, Bool.not_true, Bool.not_false, decide_eq_true_eq, beq_iff_eq, Bool.false_eq_true, false_or,
    true_or, and_true] at hw
  obtain ⟨x, hx⟩ : ∃ x, x = 0 * 2 ^ 17 + a * 2 ^ 13 + 0 * 2 ^ 9 + 0 * 2 ^ 5 + 1 := ⟨_, rfl⟩
  refine ⟨x, by simp only [SlotOp.enc, encS, encI, encV, encM]; omega, by omega, ?_⟩
  have h0 : bits x 17 4 = 0 := by rw [bits_eq]; omega
  have h1 : bits x 13 4 = a := by rw [bits_eq]; omega
  have h2 : bits x 9 4 = 0 := by rw [bits_eq]; omega
  have h3 : bits x 5 4 = 0 := by rw [bits_eq]; omega
  have h4 : bits x 0 5 = 1 := by rw [bits_eq]; omega
  simp [decV, h0, h1, h2, h3, h4, fieldsOk, ev, hw]

theorem dec_sv_cut2 (a : Nat) (hw : (SlotOp.sv .cut2 a).wf = true) :
    ∃ x, (SlotOp.sv .cut2 a).enc = 14 * 2 ^ 25 + x ∧ x < 2 ^ 21 ∧ decV 14 x = .ok (.sv .cut2 a) := by
  simp only [SlotOp.wf, SlotOp.wf.r1, SlotOp.wf.r3, SlotOp.wf.r4, SlotOp.wf.r5, SlotOp.wf.r6, ev, Bool.and_eq_true,
    Bool.or_eq_true, Bool.not_true, Bool.not_false, decide_eq_true_eq, beq_iff_eq, Bool.false_eq_true, false_or,
    true_or, and_true] at hw
  obtain ⟨x, hx⟩ : ∃ x, x = 0 * 2 ^ 17 + a * 2 ^ 13 + 0 * 2 ^ 9 + 0 * 2 ^ 5 + 2 := ⟨_, rfl⟩
  refine ⟨x, by simp only [SlotOp.enc, encS, encI, encV, encM]; omega, by omega, ?_⟩
  have h0 : bits x 17 4 = 0 := by rw [bits_eq]; omega
  have h1 : bits x 13 4 = a := by rw [bits_eq]; omega
  have h2 : bits x 9 4 = 0 := by rw [bits_eq]; omega
  have h3 : bits x 5 4 = 0 := by rw [bits_eq]; omega
  have h4 : bits x 0 5 = 2 := by rw [bits_eq]; omega
  simp [decV, h0, h1, h2, h3, h4, fieldsOk, ev, hw]

theorem dec_sv_draw (a : Nat) (hw : (SlotOp.sv .draw a).wf = true) :
    ∃ x, (SlotOp.sv .draw a).enc = 15 * 2 ^ 25 + x ∧ x < 2 ^ 21 ∧ decV 15 x = .ok (.sv .draw a) := by
  simp only [SlotOp.wf, SlotOp.wf.r1, SlotOp.wf.r3, SlotOp.wf.r4, SlotOp.wf.r5, SlotOp.wf.r6, ev, Bool.and_eq_true,
    Bool.or_eq_true, Bool.not_true, Bool.not_false, decide_eq_true_eq, beq_iff_eq, Bool.false_eq_true, false_or,
    true_or, and_true] at hw
  obtain ⟨x, hx⟩ : ∃ x, x = 0 * 2 ^ 17 + a * 2 ^ 13 + 0 * 2 ^ 9 + 0 * 2 ^ 5 + 0 := ⟨_, rfl⟩
  refine ⟨x, by simp only [SlotOp.enc, encS, encI, encV, encM]; omega, by omega, ?_⟩
  have h0 : bits x 17 4 = 0 := by rw [bits_eq]; omega
  have h1 : bits x 13 4 = a := by rw [bits_eq]; omega
  have h2 : bits x 9 4 = 0 := by rw [bits_eq]; omega
  have h3 : bits x 5 4 = 0 := by rw [bits_eq]; omega
  have h4 : bits x 0 5 = 0 := by rw [bits_eq]; omega
  simp [decV, h0, h1, h2, h3, h4, fieldsOk, ev, hw]

theorem dec_vmov (d : Nat) (a : Nat) (hw : (SlotOp.vmov d a).wf = true) :
    ∃ x, (SlotOp.vmov d a).enc = 16 * 2 ^ 25 + x ∧ x < 2 ^ 21 ∧ decV 16 x = .ok (.vmov d a) := by
  simp only [SlotOp.wf, SlotOp.wf.r1, SlotOp.wf.r3, SlotOp.wf.r4, SlotOp.wf.r5, SlotOp.wf.r6, ev, Bool.and_eq_true,
    Bool.or_eq_true, Bool.not_true, Bool.not_false, decide_eq_true_eq, beq_iff_eq, Bool.false_eq_true, false_or,
    true_or, and_true] at hw
  obtain ⟨x, hx⟩ : ∃ x, x = d * 2 ^ 17 + a * 2 ^ 13 + 0 * 2 ^ 9 + 0 * 2 ^ 5 + 0 := ⟨_, rfl⟩
  refine ⟨x, by simp only [SlotOp.enc, encS, encI, encV, encM]; omega, by omega, ?_⟩
  have h0 : bits x 17 4 = d := by rw [bits_eq]; omega
  have h1 : bits x 13 4 = a := by rw [bits_eq]; omega
  have h2 : bits x 9 4 = 0 := by rw [bits_eq]; omega
  have h3 : bits x 5 4 = 0 := by rw [bits_eq]; omega
  have h4 : bits x 0 5 = 0 := by rw [bits_eq]; omega
  simp [decV, h0, h1, h2, h3, h4, fieldsOk, ev, hw]

theorem dec_mzero_false (acc : Nat) (n : Nat) (hw : (SlotOp.mzero acc n false).wf = true) :
    ∃ x, (SlotOp.mzero acc n false).enc = 1 * 2 ^ 25 + x ∧ x < 2 ^ 21 ∧ decM 1 x = .ok (.mzero acc n false) := by
  simp only [SlotOp.wf, SlotOp.wf.r1, SlotOp.wf.r3, SlotOp.wf.r4, SlotOp.wf.r5, SlotOp.wf.r6, ev, Bool.and_eq_true,
    Bool.or_eq_true, Bool.not_true, Bool.not_false, decide_eq_true_eq, beq_iff_eq, Bool.false_eq_true, false_or,
    true_or, and_true] at hw
  have hb : b2n false = 0 := rfl
  obtain ⟨x, hx⟩ : ∃ x, x = 0 * 2 ^ 16 + (acc * 2 ^ 10 + n * 2 ^ 4 + b2n false * 8) := ⟨_, rfl⟩
  refine ⟨x, by simp only [SlotOp.enc, encS, encI, encV, encM]; omega, by omega, ?_⟩
  have h0 : bits x 16 5 = 0 := by rw [bits_eq]; omega
  have h1 : bits x 10 6 = acc := by rw [bits_eq]; omega
  have h2 : bits x 4 6 = n := by rw [bits_eq]; omega
  have h3 : bits x 3 1 = 0 := by rw [bits_eq]; omega
  have h4 : bits x 0 3 = 0 := by rw [bits_eq]; omega
  simp [decM, h0, h1, h2, h3, h4, fieldsOk, ev, hw]

theorem dec_mzero_true (acc : Nat) (n : Nat) (hw : (SlotOp.mzero acc n true).wf = true) :
    ∃ x, (SlotOp.mzero acc n true).enc = 1 * 2 ^ 25 + x ∧ x < 2 ^ 21 ∧ decM 1 x = .ok (.mzero acc n true) := by
  simp only [SlotOp.wf, SlotOp.wf.r1, SlotOp.wf.r3, SlotOp.wf.r4, SlotOp.wf.r5, SlotOp.wf.r6, ev, Bool.and_eq_true,
    Bool.or_eq_true, Bool.not_true, Bool.not_false, decide_eq_true_eq, beq_iff_eq, Bool.false_eq_true, false_or,
    true_or, and_true] at hw
  have hb : b2n true = 1 := rfl
  obtain ⟨x, hx⟩ : ∃ x, x = 0 * 2 ^ 16 + (acc * 2 ^ 10 + n * 2 ^ 4 + b2n true * 8) := ⟨_, rfl⟩
  refine ⟨x, by simp only [SlotOp.enc, encS, encI, encV, encM]; omega, by omega, ?_⟩
  have h0 : bits x 16 5 = 0 := by rw [bits_eq]; omega
  have h1 : bits x 10 6 = acc := by rw [bits_eq]; omega
  have h2 : bits x 4 6 = n := by rw [bits_eq]; omega
  have h3 : bits x 3 1 = 1 := by rw [bits_eq]; omega
  have h4 : bits x 0 3 = 0 := by rw [bits_eq]; omega
  simp [decM, h0, h1, h2, h3, h4, fieldsOk, ev, hw]

theorem dec_mldw_1 (a : Nat) (w : Nat) (hw : (SlotOp.mldw 1 a w).wf = true) :
    ∃ x, (SlotOp.mldw 1 a w).enc = 2 * 2 ^ 25 + x ∧ x < 2 ^ 21 ∧ decM 2 x = .ok (.mldw 1 a w) := by
  simp only [SlotOp.wf, SlotOp.wf.r1, SlotOp.wf.r3, SlotOp.wf.r4, SlotOp.wf.r5, SlotOp.wf.r6, ev, Bool.and_eq_true,
    Bool.or_eq_true, Bool.not_true, Bool.not_false, decide_eq_true_eq, beq_iff_eq, Bool.false_eq_true, false_or,
    true_or, and_true] at hw
  obtain ⟨x, hx⟩ : ∃ x, x = a * 2 ^ 16 + (w * 2 ^ 15) := ⟨_, rfl⟩
  refine ⟨x, by simp only [SlotOp.enc, encS, encI, encV, encM]; omega, by omega, ?_⟩
  have h0 : bits x 16 5 = a := by rw [bits_eq]; omega
  have h1 : bits x 15 1 = w := by rw [bits_eq]; omega
  have h2 : bits x 0 15 = 0 := by rw [bits_eq]; omega
  simp [decM, h0, h1, h2, fieldsOk, ev, hw]

theorem dec_mldw_2 (a : Nat) (w : Nat) (hw : (SlotOp.mldw 2 a w).wf = true) :
    ∃ x, (SlotOp.mldw 2 a w).enc = 3 * 2 ^ 25 + x ∧ x < 2 ^ 21 ∧ decM 3 x = .ok (.mldw 2 a w) := by
  simp only [SlotOp.wf, SlotOp.wf.r1, SlotOp.wf.r3, SlotOp.wf.r4, SlotOp.wf.r5, SlotOp.wf.r6, ev, Bool.and_eq_true,
    Bool.or_eq_true, Bool.not_true, Bool.not_false, decide_eq_true_eq, beq_iff_eq, Bool.false_eq_true, false_or,
    true_or, and_true] at hw
  obtain ⟨x, hx⟩ : ∃ x, x = a * 2 ^ 16 + (w * 2 ^ 15) := ⟨_, rfl⟩
  refine ⟨x, by simp only [SlotOp.enc, encS, encI, encV, encM]; omega, by omega, ?_⟩
  have h0 : bits x 16 5 = a := by rw [bits_eq]; omega
  have h1 : bits x 15 1 = w := by rw [bits_eq]; omega
  have h2 : bits x 0 15 = 0 := by rw [bits_eq]; omega
  simp [decM, h0, h1, h2, fieldsOk, ev, hw]

theorem dec_mldw_3 (a : Nat) (w : Nat) (hw : (SlotOp.mldw 3 a w).wf = true) :
    ∃ x, (SlotOp.mldw 3 a w).enc = 4 * 2 ^ 25 + x ∧ x < 2 ^ 21 ∧ decM 4 x = .ok (.mldw 3 a w) := by
  simp only [SlotOp.wf, SlotOp.wf.r1, SlotOp.wf.r3, SlotOp.wf.r4, SlotOp.wf.r5, SlotOp.wf.r6, ev, Bool.and_eq_true,
    Bool.or_eq_true, Bool.not_true, Bool.not_false, decide_eq_true_eq, beq_iff_eq, Bool.false_eq_true, false_or,
    true_or, and_true] at hw
  obtain ⟨x, hx⟩ : ∃ x, x = a * 2 ^ 16 + (w * 2 ^ 15) := ⟨_, rfl⟩
  refine ⟨x, by simp only [SlotOp.enc, encS, encI, encV, encM]; omega, by omega, ?_⟩
  have h0 : bits x 16 5 = a := by rw [bits_eq]; omega
  have h1 : bits x 15 1 = w := by rw [bits_eq]; omega
  have h2 : bits x 0 14 = 0 := by rw [bits_eq]; omega
  have h3 : bits x 14 1 = 0 := by rw [bits_eq]; omega
  simp [decM, h0, h1, h2, h3, fieldsOk, ev, hw]

theorem dec_mldw_4 (a : Nat) (w : Nat) (hw : (SlotOp.mldw 4 a w).wf = true) :
    ∃ x, (SlotOp.mldw 4 a w).enc = 4 * 2 ^ 25 + x ∧ x < 2 ^ 21 ∧ decM 4 x = .ok (.mldw 4 a w) := by
  simp only [SlotOp.wf, SlotOp.wf.r1, SlotOp.wf.r3, SlotOp.wf.r4, SlotOp.wf.r5, SlotOp.wf.r6, ev, Bool.and_eq_true,
    Bool.or_eq_true, Bool.not_true, Bool.not_false, decide_eq_true_eq, beq_iff_eq, Bool.false_eq_true, false_or,
    true_or, and_true] at hw
  obtain ⟨x, hx⟩ : ∃ x, x = a * 2 ^ 16 + (w * 2 ^ 15 + 2 ^ 14) := ⟨_, rfl⟩
  refine ⟨x, by simp only [SlotOp.enc, encS, encI, encV, encM]; omega, by omega, ?_⟩
  have h0 : bits x 16 5 = a := by rw [bits_eq]; omega
  have h1 : bits x 15 1 = w := by rw [bits_eq]; omega
  have h2 : bits x 0 14 = 0 := by rw [bits_eq]; omega
  have h3 : bits x 14 1 = 1 := by rw [bits_eq]; omega
  simp [decM, h0, h1, h2, h3, fieldsOk, ev, hw]

theorem dec_mrun (a : Nat) (acc : Nat) (n : Nat) (w : Nat) (hw : (SlotOp.mrun a acc n w).wf = true) :
    ∃ x, (SlotOp.mrun a acc n w).enc = 5 * 2 ^ 25 + x ∧ x < 2 ^ 21 ∧ decM 5 x = .ok (.mrun a acc n w) := by
  simp only [SlotOp.wf, SlotOp.wf.r1, SlotOp.wf.r3, SlotOp.wf.r4, SlotOp.wf.r5, SlotOp.wf.r6, ev, Bool.and_eq_true,
    Bool.or_eq_true, Bool.not_true, Bool.not_false, decide_eq_true_eq, beq_iff_eq, Bool.false_eq_true, false_or,
    true_or, and_true] at hw
  obtain ⟨x, hx⟩ : ∃ x, x = a * 2 ^ 16 + (acc * 2 ^ 10 + n * 2 ^ 4 + w * 8) := ⟨_, rfl⟩
  refine ⟨x, by simp only [SlotOp.enc, encS, encI, encV, encM]; omega, by omega, ?_⟩
  have h0 : bits x 16 5 = a := by rw [bits_eq]; omega
  have h1 : bits x 10 6 = acc := by rw [bits_eq]; omega
  have h2 : bits x 4 6 = n := by rw [bits_eq]; omega
  have h3 : bits x 3 1 = w := by rw [bits_eq]; omega
  have h4 : bits x 0 3 = 0 := by rw [bits_eq]; omega
  simp [decM, h0, h1, h2, h3, h4, fieldsOk, ev, hw]

theorem dec_mblk (a : Nat) (acc : Nat) (nrb : Nat) (half : Nat) (w : Nat) (hw : (SlotOp.mblk a acc nrb half w).wf = true) :
    ∃ x, (SlotOp.mblk a acc nrb half w).enc = 6 * 2 ^ 25 + x ∧ x < 2 ^ 21 ∧ decM 6 x = .ok (.mblk a acc nrb half w) := by
  simp only [SlotOp.wf, SlotOp.wf.r1, SlotOp.wf.r3, SlotOp.wf.r4, SlotOp.wf.r5, SlotOp.wf.r6, ev, Bool.and_eq_true,
    Bool.or_eq_true, Bool.not_true, Bool.not_false, decide_eq_true_eq, beq_iff_eq, Bool.false_eq_true, false_or,
    true_or, and_true] at hw
  have hc : acc % 32 = 0 := by omega
  obtain ⟨x, hx⟩ : ∃ x, x = a * 2 ^ 16 + (acc * 2 ^ 10 + nrb * 2 ^ 9 + half * 2 ^ 8 + w * 8) := ⟨_, rfl⟩
  refine ⟨x, by simp only [SlotOp.enc, encS, encI, encV, encM]; omega, by omega, ?_⟩
  have h0 : bits x 16 5 = a := by rw [bits_eq]; omega
  have h1 : bits x 10 6 = acc := by rw [bits_eq]; omega
  have h2 : bits x 9 1 = nrb := by rw [bits_eq]; omega
  have h3 : bits x 8 1 = half := by rw [bits_eq]; omega
  have h4 : bits x 3 1 = w := by rw [bits_eq]; omega
  have h5 : bits x 0 3 = 0 := by rw [bits_eq]; omega
  have h6 : bits x 4 4 = 0 := by rw [bits_eq]; omega
  simp [decM, h0, h1, h2, h3, h4, h5, h6, hc, fieldsOk, ev, hw]

theorem dec_mspill (a : Nat) (i : Nat) (hw : (SlotOp.mspill a i).wf = true) :
    ∃ x, (SlotOp.mspill a i).enc = 7 * 2 ^ 25 + x ∧ x < 2 ^ 21 ∧ decM 7 x = .ok (.mspill a i) := by
  simp only [SlotOp.wf, SlotOp.wf.r1, SlotOp.wf.r3, SlotOp.wf.r4, SlotOp.wf.r5, SlotOp.wf.r6, ev, Bool.and_eq_true,
    Bool.or_eq_true, Bool.not_true, Bool.not_false, decide_eq_true_eq, beq_iff_eq, Bool.false_eq_true, false_or,
    true_or, and_true] at hw
  obtain ⟨x, hx⟩ : ∃ x, x = a * 2 ^ 16 + (i * 2 ^ 9) := ⟨_, rfl⟩
  refine ⟨x, by simp only [SlotOp.enc, encS, encI, encV, encM]; omega, by omega, ?_⟩
  have h0 : bits x 16 5 = a := by rw [bits_eq]; omega
  have h1 : bits x 9 7 = i := by rw [bits_eq]; omega
  have h2 : bits x 0 9 = 0 := by rw [bits_eq]; omega
  simp [decM, h0, h1, h2, fieldsOk, ev, hw]

theorem dec_mepi (a : Nat) (op : Nat) (ef : Nat) (r : Nat) (hw : (SlotOp.mepi a op ef r).wf = true) :
    ∃ x, (SlotOp.mepi a op ef r).enc = 8 * 2 ^ 25 + x ∧ x < 2 ^ 21 ∧ decM 8 x = .ok (.mepi a op ef r) := by
  simp only [SlotOp.wf, SlotOp.wf.r1, SlotOp.wf.r3, SlotOp.wf.r4, SlotOp.wf.r5, SlotOp.wf.r6, ev, Bool.and_eq_true,
    Bool.or_eq_true, Bool.not_true, Bool.not_false, decide_eq_true_eq, beq_iff_eq, Bool.false_eq_true, false_or,
    true_or, and_true] at hw
  obtain ⟨x, hx⟩ : ∃ x, x = a * 2 ^ 16 + (op * 2 ^ 14 + ef * 2 ^ 13 + r * 2 ^ 11) := ⟨_, rfl⟩
  refine ⟨x, by simp only [SlotOp.enc, encS, encI, encV, encM]; omega, by omega, ?_⟩
  have h0 : bits x 16 5 = a := by rw [bits_eq]; omega
  have h1 : bits x 14 2 = op := by rw [bits_eq]; omega
  have h2 : bits x 13 1 = ef := by rw [bits_eq]; omega
  have h3 : bits x 11 2 = r := by rw [bits_eq]; omega
  have h4 : bits x 0 11 = 0 := by rw [bits_eq]; omega
  simp [decM, h0, h1, h2, h3, h4, fieldsOk, ev, hw] <;> omega

theorem dec_mout_false_false (a : Nat) (acc : Nat) (n : Nat) (hw : (SlotOp.mout a acc n false false).wf = true) :
    ∃ x, (SlotOp.mout a acc n false false).enc = 9 * 2 ^ 25 + x ∧ x < 2 ^ 21 ∧ decM 9 x = .ok (.mout a acc n false false) := by
  simp only [SlotOp.wf, SlotOp.wf.r1, SlotOp.wf.r3, SlotOp.wf.r4, SlotOp.wf.r5, SlotOp.wf.r6, ev, Bool.and_eq_true,
    Bool.or_eq_true, Bool.not_true, Bool.not_false, decide_eq_true_eq, beq_iff_eq, Bool.false_eq_true, false_or,
    true_or, and_true] at hw
  have hb : b2n false = 0 := rfl
  have hb1 : b2n true = 1 := rfl
  obtain ⟨x, hx⟩ : ∃ x, x = a * 2 ^ 16 + (acc * 2 ^ 10 + n * 2 ^ 4 + b2n false * 8 + b2n false * 4) := ⟨_, rfl⟩
  refine ⟨x, by simp only [SlotOp.enc, encS, encI, encV, encM]; omega, by omega, ?_⟩
  have h0 : bits x 16 5 = a := by rw [bits_eq]; omega
  have h1 : bits x 10 6 = acc := by rw [bits_eq]; omega
  have h2 : bits x 4 6 = n := by rw [bits_eq]; omega
  have h3 : bits x 3 1 = 0 := by rw [bits_eq]; omega
  have h4 : bits x 2 1 = 0 := by rw [bits_eq]; omega
  have h5 : bits x 0 2 = 0 := by rw [bits_eq]; omega
  simp [decM, h0, h1, h2, h3, h4, h5, fieldsOk, ev, hw]

theorem dec_mout_false_true (a : Nat) (acc : Nat) (n : Nat) (hw : (SlotOp.mout a acc n false true).wf = true) :
    ∃ x, (SlotOp.mout a acc n false true).enc = 9 * 2 ^ 25 + x ∧ x < 2 ^ 21 ∧ decM 9 x = .ok (.mout a acc n false true) := by
  simp only [SlotOp.wf, SlotOp.wf.r1, SlotOp.wf.r3, SlotOp.wf.r4, SlotOp.wf.r5, SlotOp.wf.r6, ev, Bool.and_eq_true,
    Bool.or_eq_true, Bool.not_true, Bool.not_false, decide_eq_true_eq, beq_iff_eq, Bool.false_eq_true, false_or,
    true_or, and_true] at hw
  have hb : b2n false = 0 := rfl
  have hb1 : b2n true = 1 := rfl
  obtain ⟨x, hx⟩ : ∃ x, x = a * 2 ^ 16 + (acc * 2 ^ 10 + n * 2 ^ 4 + b2n false * 8 + b2n true * 4) := ⟨_, rfl⟩
  refine ⟨x, by simp only [SlotOp.enc, encS, encI, encV, encM]; omega, by omega, ?_⟩
  have h0 : bits x 16 5 = a := by rw [bits_eq]; omega
  have h1 : bits x 10 6 = acc := by rw [bits_eq]; omega
  have h2 : bits x 4 6 = n := by rw [bits_eq]; omega
  have h3 : bits x 3 1 = 0 := by rw [bits_eq]; omega
  have h4 : bits x 2 1 = 1 := by rw [bits_eq]; omega
  have h5 : bits x 0 2 = 0 := by rw [bits_eq]; omega
  simp [decM, h0, h1, h2, h3, h4, h5, fieldsOk, ev, hw]

theorem dec_mout_true_false (a : Nat) (acc : Nat) (n : Nat) (hw : (SlotOp.mout a acc n true false).wf = true) :
    ∃ x, (SlotOp.mout a acc n true false).enc = 9 * 2 ^ 25 + x ∧ x < 2 ^ 21 ∧ decM 9 x = .ok (.mout a acc n true false) := by
  simp only [SlotOp.wf, SlotOp.wf.r1, SlotOp.wf.r3, SlotOp.wf.r4, SlotOp.wf.r5, SlotOp.wf.r6, ev, Bool.and_eq_true,
    Bool.or_eq_true, Bool.not_true, Bool.not_false, decide_eq_true_eq, beq_iff_eq, Bool.false_eq_true, false_or,
    true_or, and_true] at hw
  have hb : b2n false = 0 := rfl
  have hb1 : b2n true = 1 := rfl
  obtain ⟨x, hx⟩ : ∃ x, x = a * 2 ^ 16 + (acc * 2 ^ 10 + n * 2 ^ 4 + b2n true * 8 + b2n false * 4) := ⟨_, rfl⟩
  refine ⟨x, by simp only [SlotOp.enc, encS, encI, encV, encM]; omega, by omega, ?_⟩
  have h0 : bits x 16 5 = a := by rw [bits_eq]; omega
  have h1 : bits x 10 6 = acc := by rw [bits_eq]; omega
  have h2 : bits x 4 6 = n := by rw [bits_eq]; omega
  have h3 : bits x 3 1 = 1 := by rw [bits_eq]; omega
  have h4 : bits x 2 1 = 0 := by rw [bits_eq]; omega
  have h5 : bits x 0 2 = 0 := by rw [bits_eq]; omega
  simp [decM, h0, h1, h2, h3, h4, h5, fieldsOk, ev, hw]

theorem dec_mout_true_true (a : Nat) (acc : Nat) (n : Nat) (hw : (SlotOp.mout a acc n true true).wf = true) :
    ∃ x, (SlotOp.mout a acc n true true).enc = 9 * 2 ^ 25 + x ∧ x < 2 ^ 21 ∧ decM 9 x = .ok (.mout a acc n true true) := by
  simp only [SlotOp.wf, SlotOp.wf.r1, SlotOp.wf.r3, SlotOp.wf.r4, SlotOp.wf.r5, SlotOp.wf.r6, ev, Bool.and_eq_true,
    Bool.or_eq_true, Bool.not_true, Bool.not_false, decide_eq_true_eq, beq_iff_eq, Bool.false_eq_true, false_or,
    true_or, and_true] at hw
  have hb : b2n false = 0 := rfl
  have hb1 : b2n true = 1 := rfl
  obtain ⟨x, hx⟩ : ∃ x, x = a * 2 ^ 16 + (acc * 2 ^ 10 + n * 2 ^ 4 + b2n true * 8 + b2n true * 4) := ⟨_, rfl⟩
  refine ⟨x, by simp only [SlotOp.enc, encS, encI, encV, encM]; omega, by omega, ?_⟩
  have h0 : bits x 16 5 = a := by rw [bits_eq]; omega
  have h1 : bits x 10 6 = acc := by rw [bits_eq]; omega
  have h2 : bits x 4 6 = n := by rw [bits_eq]; omega
  have h3 : bits x 3 1 = 1 := by rw [bits_eq]; omega
  have h4 : bits x 2 1 = 1 := by rw [bits_eq]; omega
  have h5 : bits x 0 2 = 0 := by rw [bits_eq]; omega
  simp [decM, h0, h1, h2, h3, h4, h5, fieldsOk, ev, hw]

theorem dec_mrda (d : Nat) (acc : Nat) (hw : (SlotOp.mrda d acc).wf = true) :
    ∃ x, (SlotOp.mrda d acc).enc = 10 * 2 ^ 25 + x ∧ x < 2 ^ 21 ∧ decM 10 x = .ok (.mrda d acc) := by
  simp only [SlotOp.wf, SlotOp.wf.r1, SlotOp.wf.r3, SlotOp.wf.r4, SlotOp.wf.r5, SlotOp.wf.r6, ev, Bool.and_eq_true,
    Bool.or_eq_true, Bool.not_true, Bool.not_false, decide_eq_true_eq, beq_iff_eq, Bool.false_eq_true, false_or,
    true_or, and_true] at hw
  have hd : d % 2 = 0 := by omega
  obtain ⟨x, hx⟩ : ∃ x, x = 0 * 2 ^ 16 + (d * 2 ^ 17 + acc * 2 ^ 10) := ⟨_, rfl⟩
  refine ⟨x, by simp only [SlotOp.enc, encS, encI, encV, encM]; omega, by omega, ?_⟩
  have h0 : bits x 10 6 = acc := by rw [bits_eq]; omega
  have h1 : bits x 16 1 = 0 := by rw [bits_eq]; omega
  have h2 : bits x 17 4 = d := by rw [bits_eq]; omega
  have h3 : bits x 0 10 = 0 := by rw [bits_eq]; omega
  simp [decM, h0, h1, h2, h3, fieldsOk, ev, hw]

theorem dec_mlook (a : Nat) (acc : Nat) (n : Nat) (w : Nat) (hw : (SlotOp.mlook a acc n w).wf = true) :
    ∃ x, (SlotOp.mlook a acc n w).enc = 11 * 2 ^ 25 + x ∧ x < 2 ^ 21 ∧ decM 11 x = .ok (.mlook a acc n w) := by
  simp only [SlotOp.wf, SlotOp.wf.r1, SlotOp.wf.r3, SlotOp.wf.r4, SlotOp.wf.r5, SlotOp.wf.r6, ev, Bool.and_eq_true,
    Bool.or_eq_true, Bool.not_true, Bool.not_false, decide_eq_true_eq, beq_iff_eq, Bool.false_eq_true, false_or,
    true_or, and_true] at hw
  obtain ⟨x, hx⟩ : ∃ x, x = a * 2 ^ 16 + (acc * 2 ^ 10 + n * 2 ^ 4 + w * 8) := ⟨_, rfl⟩
  refine ⟨x, by simp only [SlotOp.enc, encS, encI, encV, encM]; omega, by omega, ?_⟩
  have h0 : bits x 16 5 = a := by rw [bits_eq]; omega
  have h1 : bits x 10 6 = acc := by rw [bits_eq]; omega
  have h2 : bits x 4 6 = n := by rw [bits_eq]; omega
  have h3 : bits x 3 1 = w := by rw [bits_eq]; omega
  have h4 : bits x 0 3 = 0 := by rw [bits_eq]; omega
  simp [decM, h0, h1, h2, h3, h4, fieldsOk, ev, hw]

theorem dec_xwait (a : Nat) (sl : Nat) (hw : (SlotOp.xwait a sl).wf = true) :
    ∃ x, (SlotOp.xwait a sl).enc = 1 * 2 ^ 25 + x ∧ x < 2 ^ 21 ∧ decX 1 x = .ok (.xwait a sl) := by
  simp only [SlotOp.wf, SlotOp.wf.r1, SlotOp.wf.r3, SlotOp.wf.r4, SlotOp.wf.r5, SlotOp.wf.r6, ev, Bool.and_eq_true,
    Bool.or_eq_true, Bool.not_true, Bool.not_false, decide_eq_true_eq, beq_iff_eq, Bool.false_eq_true, false_or,
    true_or, and_true] at hw
  obtain ⟨x, hx⟩ : ∃ x, x = a * 2 ^ 16 + (sl * 2 ^ 11) := ⟨_, rfl⟩
  refine ⟨x, by simp only [SlotOp.enc, encS, encI, encV, encM]; omega, by omega, ?_⟩
  have h0 : bits x 16 5 = a := by rw [bits_eq]; omega
  have h1 : bits x 11 5 = sl := by rw [bits_eq]; omega
  have h2 : bits x 0 11 = 0 := by rw [bits_eq]; omega
  simp [decX, h0, h1, h2, fieldsOk, ev, hw]

theorem dec_xtake (a : Nat) (sl : Nat) (hw : (SlotOp.xtake a sl).wf = true) :
    ∃ x, (SlotOp.xtake a sl).enc = 2 * 2 ^ 25 + x ∧ x < 2 ^ 21 ∧ decX 2 x = .ok (.xtake a sl) := by
  simp only [SlotOp.wf, SlotOp.wf.r1, SlotOp.wf.r3, SlotOp.wf.r4, SlotOp.wf.r5, SlotOp.wf.r6, ev, Bool.and_eq_true,
    Bool.or_eq_true, Bool.not_true, Bool.not_false, decide_eq_true_eq, beq_iff_eq, Bool.false_eq_true, false_or,
    true_or, and_true] at hw
  obtain ⟨x, hx⟩ : ∃ x, x = a * 2 ^ 16 + (sl * 2 ^ 11) := ⟨_, rfl⟩
  refine ⟨x, by simp only [SlotOp.enc, encS, encI, encV, encM]; omega, by omega, ?_⟩
  have h0 : bits x 16 5 = a := by rw [bits_eq]; omega
  have h1 : bits x 11 5 = sl := by rw [bits_eq]; omega
  have h2 : bits x 0 11 = 0 := by rw [bits_eq]; omega
  simp [decX, h0, h1, h2, fieldsOk, ev, hw]

theorem dec_xput (a : Nat) (sl : Nat) (hw : (SlotOp.xput a sl).wf = true) :
    ∃ x, (SlotOp.xput a sl).enc = 3 * 2 ^ 25 + x ∧ x < 2 ^ 21 ∧ decX 3 x = .ok (.xput a sl) := by
  simp only [SlotOp.wf, SlotOp.wf.r1, SlotOp.wf.r3, SlotOp.wf.r4, SlotOp.wf.r5, SlotOp.wf.r6, ev, Bool.and_eq_true,
    Bool.or_eq_true, Bool.not_true, Bool.not_false, decide_eq_true_eq, beq_iff_eq, Bool.false_eq_true, false_or,
    true_or, and_true] at hw
  obtain ⟨x, hx⟩ : ∃ x, x = a * 2 ^ 16 + (sl * 2 ^ 11) := ⟨_, rfl⟩
  refine ⟨x, by simp only [SlotOp.enc, encS, encI, encV, encM]; omega, by omega, ?_⟩
  have h0 : bits x 16 5 = a := by rw [bits_eq]; omega
  have h1 : bits x 11 5 = sl := by rw [bits_eq]; omega
  have h2 : bits x 0 11 = 0 := by rw [bits_eq]; omega
  simp [decX, h0, h1, h2, fieldsOk, ev, hw]

theorem dec_qpost (a : Nat) (hw : (SlotOp.qpost a).wf = true) :
    ∃ x, (SlotOp.qpost a).enc = 5 * 2 ^ 25 + x ∧ x < 2 ^ 21 ∧ decX 5 x = .ok (.qpost a) := by
  simp only [SlotOp.wf, SlotOp.wf.r1, SlotOp.wf.r3, SlotOp.wf.r4, SlotOp.wf.r5, SlotOp.wf.r6, ev, Bool.and_eq_true,
    Bool.or_eq_true, Bool.not_true, Bool.not_false, decide_eq_true_eq, beq_iff_eq, Bool.false_eq_true, false_or,
    true_or, and_true] at hw
  obtain ⟨x, hx⟩ : ∃ x, x = a * 2 ^ 16 + (0) := ⟨_, rfl⟩
  refine ⟨x, by simp only [SlotOp.enc, encS, encI, encV, encM]; omega, by omega, ?_⟩
  have h0 : bits x 16 5 = a := by rw [bits_eq]; omega
  have h1 : bits x 0 16 = 0 := by rw [bits_eq]; omega
  simp [decX, h0, h1, fieldsOk, ev, hw]

theorem dec_soadd (a : Nat) (o : Nat) (hw : (SlotOp.soadd a o).wf = true) :
    ∃ x, (SlotOp.soadd a o).enc = 8 * 2 ^ 25 + x ∧ x < 2 ^ 21 ∧ decX 8 x = .ok (.soadd a o) := by
  simp only [SlotOp.wf, SlotOp.wf.r1, SlotOp.wf.r3, SlotOp.wf.r4, SlotOp.wf.r5, SlotOp.wf.r6, ev, Bool.and_eq_true,
    Bool.or_eq_true, Bool.not_true, Bool.not_false, decide_eq_true_eq, beq_iff_eq, Bool.false_eq_true, false_or,
    true_or, and_true] at hw
  obtain ⟨x, hx⟩ : ∃ x, x = a * 2 ^ 16 + (o) := ⟨_, rfl⟩
  refine ⟨x, by simp only [SlotOp.enc, encS, encI, encV, encM]; omega, by omega, ?_⟩
  have h0 : bits x 16 5 = a := by rw [bits_eq]; omega
  have h1 : bits x 13 3 = 0 := by rw [bits_eq]; omega
  have h2 : bits x 0 13 = o := by rw [bits_eq]; omega
  simp [decX, h0, h1, h2, fieldsOk, ev, hw]

theorem dec_sowait (a : Nat) (o : Nat) (hw : (SlotOp.sowait a o).wf = true) :
    ∃ x, (SlotOp.sowait a o).enc = 9 * 2 ^ 25 + x ∧ x < 2 ^ 21 ∧ decX 9 x = .ok (.sowait a o) := by
  simp only [SlotOp.wf, SlotOp.wf.r1, SlotOp.wf.r3, SlotOp.wf.r4, SlotOp.wf.r5, SlotOp.wf.r6, ev, Bool.and_eq_true,
    Bool.or_eq_true, Bool.not_true, Bool.not_false, decide_eq_true_eq, beq_iff_eq, Bool.false_eq_true, false_or,
    true_or, and_true] at hw
  obtain ⟨x, hx⟩ : ∃ x, x = a * 2 ^ 16 + (o) := ⟨_, rfl⟩
  refine ⟨x, by simp only [SlotOp.enc, encS, encI, encV, encM]; omega, by omega, ?_⟩
  have h0 : bits x 16 5 = a := by rw [bits_eq]; omega
  have h1 : bits x 13 3 = 0 := by rw [bits_eq]; omega
  have h2 : bits x 0 13 = o := by rw [bits_eq]; omega
  simp [decX, h0, h1, h2, fieldsOk, ev, hw]

theorem dec_soset (a : Nat) (o : Nat) (hw : (SlotOp.soset a o).wf = true) :
    ∃ x, (SlotOp.soset a o).enc = 10 * 2 ^ 25 + x ∧ x < 2 ^ 21 ∧ decX 10 x = .ok (.soset a o) := by
  simp only [SlotOp.wf, SlotOp.wf.r1, SlotOp.wf.r3, SlotOp.wf.r4, SlotOp.wf.r5, SlotOp.wf.r6, ev, Bool.and_eq_true,
    Bool.or_eq_true, Bool.not_true, Bool.not_false, decide_eq_true_eq, beq_iff_eq, Bool.false_eq_true, false_or,
    true_or, and_true] at hw
  obtain ⟨x, hx⟩ : ∃ x, x = a * 2 ^ 16 + (o) := ⟨_, rfl⟩
  refine ⟨x, by simp only [SlotOp.enc, encS, encI, encV, encM]; omega, by omega, ?_⟩
  have h0 : bits x 16 5 = a := by rw [bits_eq]; omega
  have h1 : bits x 13 3 = 0 := by rw [bits_eq]; omega
  have h2 : bits x 0 13 = o := by rw [bits_eq]; omega
  simp [decX, h0, h1, h2, fieldsOk, ev, hw]

theorem dec_mf_post (a : Nat) (hw : (SlotOp.mf .post a).wf = true) :
    ∃ x, (SlotOp.mf .post a).enc = 12 * 2 ^ 25 + x ∧ x < 2 ^ 21 ∧ decX 12 x = .ok (.mf .post a) := by
  simp only [SlotOp.wf, SlotOp.wf.r1, SlotOp.wf.r3, SlotOp.wf.r4, SlotOp.wf.r5, SlotOp.wf.r6, ev, Bool.and_eq_true,
    Bool.or_eq_true, Bool.not_true, Bool.not_false, decide_eq_true_eq, beq_iff_eq, Bool.false_eq_true, false_or,
    true_or, and_true] at hw
  obtain ⟨x, hx⟩ : ∃ x, x = a * 2 ^ 16 + (0) := ⟨_, rfl⟩
  refine ⟨x, by simp only [SlotOp.enc, encS, encI, encV, encM]; omega, by omega, ?_⟩
  have h0 : bits x 16 5 = a := by rw [bits_eq]; omega
  have h1 : bits x 0 16 = 0 := by rw [bits_eq]; omega
  simp [decX, h0, h1, fieldsOk, ev, hw]

theorem dec_mf_samp (a : Nat) (hw : (SlotOp.mf .samp a).wf = true) :
    ∃ x, (SlotOp.mf .samp a).enc = 13 * 2 ^ 25 + x ∧ x < 2 ^ 21 ∧ decX 13 x = .ok (.mf .samp a) := by
  simp only [SlotOp.wf, SlotOp.wf.r1, SlotOp.wf.r3, SlotOp.wf.r4, SlotOp.wf.r5, SlotOp.wf.r6, ev, Bool.and_eq_true,
    Bool.or_eq_true, Bool.not_true, Bool.not_false, decide_eq_true_eq, beq_iff_eq, Bool.false_eq_true, false_or,
    true_or, and_true] at hw
  obtain ⟨x, hx⟩ : ∃ x, x = a * 2 ^ 16 + (0) := ⟨_, rfl⟩
  refine ⟨x, by simp only [SlotOp.enc, encS, encI, encV, encM]; omega, by omega, ?_⟩
  have h0 : bits x 16 5 = a := by rw [bits_eq]; omega
  have h1 : bits x 0 16 = 0 := by rw [bits_eq]; omega
  simp [decX, h0, h1, fieldsOk, ev, hw]

theorem dec_mf_rev (a : Nat) (hw : (SlotOp.mf .rev a).wf = true) :
    ∃ x, (SlotOp.mf .rev a).enc = 14 * 2 ^ 25 + x ∧ x < 2 ^ 21 ∧ decX 14 x = .ok (.mf .rev a) := by
  simp only [SlotOp.wf, SlotOp.wf.r1, SlotOp.wf.r3, SlotOp.wf.r4, SlotOp.wf.r5, SlotOp.wf.r6, ev, Bool.and_eq_true,
    Bool.or_eq_true, Bool.not_true, Bool.not_false, decide_eq_true_eq, beq_iff_eq, Bool.false_eq_true, false_or,
    true_or, and_true] at hw
  obtain ⟨x, hx⟩ : ∃ x, x = a * 2 ^ 16 + (0) := ⟨_, rfl⟩
  refine ⟨x, by simp only [SlotOp.enc, encS, encI, encV, encM]; omega, by omega, ?_⟩
  have h0 : bits x 16 5 = a := by rw [bits_eq]; omega
  have h1 : bits x 0 16 = 0 := by rw [bits_eq]; omega
  simp [decX, h0, h1, fieldsOk, ev, hw]

/-- Decoding an encoded operation gives it back. -/
theorem dec_op (o : SlotOp) (hw : o.wf = true) : ∃ op x, o.enc = op * 2 ^ 25 + x ∧ op < 128 ∧ x < 2 ^ 21 ∧
    (match o.cls with | 0 => decS op x | 1 => decV op x | 2 => decM op x | _ => decX op x) = .ok o := by
  cases o with
  | alu o d a b => obtain ⟨x, h1, h2, h3⟩ := dec_alu o d a b hw; exact ⟨1, x, h1, by decide, h2, h3⟩
  | imm q0 d a i =>
    cases q0
    · obtain ⟨x, h1, h2, h3⟩ := dec_imm_addi d a i hw; exact ⟨2, x, h1, by decide, h2, h3⟩
    · obtain ⟨x, h1, h2, h3⟩ := dec_imm_andi d a i hw; exact ⟨3, x, h1, by decide, h2, h3⟩
    · obtain ⟨x, h1, h2, h3⟩ := dec_imm_ori d a i hw; exact ⟨4, x, h1, by decide, h2, h3⟩
    · obtain ⟨x, h1, h2, h3⟩ := dec_imm_xori d a i hw; exact ⟨5, x, h1, by decide, h2, h3⟩
    · obtain ⟨x, h1, h2, h3⟩ := dec_imm_cati d a i hw; exact ⟨7, x, h1, by decide, h2, h3⟩
  | shi q0 d a sh =>
    cases q0
    · obtain ⟨x, h1, h2, h3⟩ := dec_shi_shl d a sh hw; exact ⟨6, x, h1, by decide, h2, h3⟩
    · obtain ⟨x, h1, h2, h3⟩ := dec_shi_shr d a sh hw; exact ⟨6, x, h1, by decide, h2, h3⟩
    · obtain ⟨x, h1, h2, h3⟩ := dec_shi_sra d a sh hw; exact ⟨6, x, h1, by decide, h2, h3⟩
  | cmp o d a b => obtain ⟨x, h1, h2, h3⟩ := dec_cmp o d a b hw; exact ⟨9, x, h1, by decide, h2, h3⟩
  | cmpi q0 d a i =>
    cases q0
    · obtain ⟨x, h1, h2, h3⟩ := dec_cmpi_eq d a i hw; exact ⟨10, x, h1, by decide, h2, h3⟩
    · obtain ⟨x, h1, h2, h3⟩ := dec_cmpi_lt d a i hw; exact ⟨11, x, h1, by decide, h2, h3⟩
    · obtain ⟨x, h1, h2, h3⟩ := dec_cmpi_ltu d a i hw; exact ⟨12, x, h1, by decide, h2, h3⟩
  | plog q0 d a b =>
    cases q0
    · obtain ⟨x, h1, h2, h3⟩ := dec_plog_and d a b hw; exact ⟨13, x, h1, by decide, h2, h3⟩
    · obtain ⟨x, h1, h2, h3⟩ := dec_plog_or d a b hw; exact ⟨13, x, h1, by decide, h2, h3⟩
    · obtain ⟨x, h1, h2, h3⟩ := dec_plog_xor d a b hw; exact ⟨13, x, h1, by decide, h2, h3⟩
    · obtain ⟨x, h1, h2, h3⟩ := dec_plog_andn d a b hw; exact ⟨13, x, h1, by decide, h2, h3⟩
  | mem q0 d a i =>
    cases q0
    · obtain ⟨x, h1, h2, h3⟩ := dec_mem_ld d a i hw; exact ⟨16, x, h1, by decide, h2, h3⟩
    · obtain ⟨x, h1, h2, h3⟩ := dec_mem_st d a i hw; exact ⟨17, x, h1, by decide, h2, h3⟩
    · obtain ⟨x, h1, h2, h3⟩ := dec_mem_ldh d a i hw; exact ⟨18, x, h1, by decide, h2, h3⟩
    · obtain ⟨x, h1, h2, h3⟩ := dec_mem_sth d a i hw; exact ⟨19, x, h1, by decide, h2, h3⟩
  | br off => obtain ⟨x, h1, h2, h3⟩ := dec_br off hw; exact ⟨112, x, h1, by decide, h2, h3⟩
  | brr a => obtain ⟨x, h1, h2, h3⟩ := dec_brr a hw; exact ⟨113, x, h1, by decide, h2, h3⟩
  | loop l a n => obtain ⟨x, h1, h2, h3⟩ := dec_loop l a n hw; exact ⟨114, x, h1, by decide, h2, h3⟩
  | endp => obtain ⟨x, h1, h2, h3⟩ := dec_endp  hw; exact ⟨115, x, h1, by decide, h2, h3⟩
  | rdspec d sel => obtain ⟨x, h1, h2, h3⟩ := dec_rdspec d sel hw; exact ⟨116, x, h1, by decide, h2, h3⟩
  | vbf o d a b c => obtain ⟨x, h1, h2, h3⟩ := dec_vbf o d a b c hw; exact ⟨1, x, h1, by decide, h2, h3⟩
  | vf32 o q1 d a b c =>
    cases q1
    · obtain ⟨x, h1, h2, h3⟩ := dec_vf32_false o d a b c hw; exact ⟨2, x, h1, by decide, h2, h3⟩
    · obtain ⟨x, h1, h2, h3⟩ := dec_vf32_true o d a b c hw; exact ⟨2, x, h1, by decide, h2, h3⟩
  | vcvt fn d a => obtain ⟨x, h1, h2, h3⟩ := dec_vcvt fn d a hw; exact ⟨3, x, h1, by decide, h2, h3⟩
  | vfun q0 d a =>
    cases q0
    · obtain ⟨x, h1, h2, h3⟩ := dec_vfun_exp2 d a hw; exact ⟨4, x, h1, by decide, h2, h3⟩
    · obtain ⟨x, h1, h2, h3⟩ := dec_vfun_rcp d a hw; exact ⟨4, x, h1, by decide, h2, h3⟩
    · obtain ⟨x, h1, h2, h3⟩ := dec_vfun_rsqrt d a hw; exact ⟨4, x, h1, by decide, h2, h3⟩
  | vred q0 d a =>
    cases q0
    · obtain ⟨x, h1, h2, h3⟩ := dec_vred_sum d a hw; exact ⟨5, x, h1, by decide, h2, h3⟩
    · obtain ⟨x, h1, h2, h3⟩ := dec_vred_max d a hw; exact ⟨5, x, h1, by decide, h2, h3⟩
    · obtain ⟨x, h1, h2, h3⟩ := dec_vred_min d a hw; exact ⟨5, x, h1, by decide, h2, h3⟩
    · obtain ⟨x, h1, h2, h3⟩ := dec_vred_any d a hw; exact ⟨5, x, h1, by decide, h2, h3⟩
    · obtain ⟨x, h1, h2, h3⟩ := dec_vred_all d a hw; exact ⟨5, x, h1, by decide, h2, h3⟩
  | vld d a off => obtain ⟨x, h1, h2, h3⟩ := dec_vld d a off hw; exact ⟨6, x, h1, by decide, h2, h3⟩
  | vst d a off => obtain ⟨x, h1, h2, h3⟩ := dec_vst d a off hw; exact ⟨7, x, h1, by decide, h2, h3⟩
  | vbcast d a => obtain ⟨x, h1, h2, h3⟩ := dec_vbcast d a hw; exact ⟨8, x, h1, by decide, h2, h3⟩
  | vq8 q0 d a b h =>
    cases q0
    · obtain ⟨x, h1, h2, h3⟩ := dec_vq8_false d a b h hw; exact ⟨9, x, h1, by decide, h2, h3⟩
    · obtain ⟨x, h1, h2, h3⟩ := dec_vq8_true d a b h hw; exact ⟨9, x, h1, by decide, h2, h3⟩
  | vdq8 d a b h => obtain ⟨x, h1, h2, h3⟩ := dec_vdq8 d a b h hw; exact ⟨10, x, h1, by decide, h2, h3⟩
  | vrand d => obtain ⟨x, h1, h2, h3⟩ := dec_vrand d hw; exact ⟨11, x, h1, by decide, h2, h3⟩
  | pack24 q0 d a b c =>
    cases q0
    · obtain ⟨x, h1, h2, h3⟩ := dec_pack24_false d a b c hw; exact ⟨12, x, h1, by decide, h2, h3⟩
    · obtain ⟨x, h1, h2, h3⟩ := dec_pack24_true d a b c hw; exact ⟨12, x, h1, by decide, h2, h3⟩
  | sv q0 a =>
    cases q0
    · obtain ⟨x, h1, h2, h3⟩ := dec_sv_hist0 a hw; exact ⟨13, x, h1, by decide, h2, h3⟩
    · obtain ⟨x, h1, h2, h3⟩ := dec_sv_hist1 a hw; exact ⟨13, x, h1, by decide, h2, h3⟩
    · obtain ⟨x, h1, h2, h3⟩ := dec_sv_cut0 a hw; exact ⟨14, x, h1, by decide, h2, h3⟩
    · obtain ⟨x, h1, h2, h3⟩ := dec_sv_cut1 a hw; exact ⟨14, x, h1, by decide, h2, h3⟩
    · obtain ⟨x, h1, h2, h3⟩ := dec_sv_cut2 a hw; exact ⟨14, x, h1, by decide, h2, h3⟩
    · obtain ⟨x, h1, h2, h3⟩ := dec_sv_draw a hw; exact ⟨15, x, h1, by decide, h2, h3⟩
  | vmov d a => obtain ⟨x, h1, h2, h3⟩ := dec_vmov d a hw; exact ⟨16, x, h1, by decide, h2, h3⟩
  | mzero acc n q2 =>
    cases q2
    · obtain ⟨x, h1, h2, h3⟩ := dec_mzero_false acc n hw; exact ⟨1, x, h1, by decide, h2, h3⟩
    · obtain ⟨x, h1, h2, h3⟩ := dec_mzero_true acc n hw; exact ⟨1, x, h1, by decide, h2, h3⟩
  | mldw fmt a w =>
    have hf : fmt = 1 ∨ fmt = 2 ∨ fmt = 3 ∨ fmt = 4 := by
      simp only [SlotOp.wf, Bool.and_eq_true, decide_eq_true_eq] at hw; omega
    rcases hf with rfl | rfl | rfl | rfl
    · obtain ⟨x, h1, h2, h3⟩ := dec_mldw_1 a w hw; exact ⟨2, x, h1, by decide, h2, h3⟩
    · obtain ⟨x, h1, h2, h3⟩ := dec_mldw_2 a w hw; exact ⟨3, x, h1, by decide, h2, h3⟩
    · obtain ⟨x, h1, h2, h3⟩ := dec_mldw_3 a w hw; exact ⟨4, x, h1, by decide, h2, h3⟩
    · obtain ⟨x, h1, h2, h3⟩ := dec_mldw_4 a w hw; exact ⟨4, x, h1, by decide, h2, h3⟩
  | mrun a acc n w => obtain ⟨x, h1, h2, h3⟩ := dec_mrun a acc n w hw; exact ⟨5, x, h1, by decide, h2, h3⟩
  | mblk a acc nrb half w => obtain ⟨x, h1, h2, h3⟩ := dec_mblk a acc nrb half w hw; exact ⟨6, x, h1, by decide, h2, h3⟩
  | mspill a i => obtain ⟨x, h1, h2, h3⟩ := dec_mspill a i hw; exact ⟨7, x, h1, by decide, h2, h3⟩
  | mepi a op ef r => obtain ⟨x, h1, h2, h3⟩ := dec_mepi a op ef r hw; exact ⟨8, x, h1, by decide, h2, h3⟩
  | mout a acc n q3 q4 =>
    cases q3 <;> cases q4
    · obtain ⟨x, h1, h2, h3⟩ := dec_mout_false_false a acc n hw; exact ⟨9, x, h1, by decide, h2, h3⟩
    · obtain ⟨x, h1, h2, h3⟩ := dec_mout_false_true a acc n hw; exact ⟨9, x, h1, by decide, h2, h3⟩
    · obtain ⟨x, h1, h2, h3⟩ := dec_mout_true_false a acc n hw; exact ⟨9, x, h1, by decide, h2, h3⟩
    · obtain ⟨x, h1, h2, h3⟩ := dec_mout_true_true a acc n hw; exact ⟨9, x, h1, by decide, h2, h3⟩
  | mrda d acc => obtain ⟨x, h1, h2, h3⟩ := dec_mrda d acc hw; exact ⟨10, x, h1, by decide, h2, h3⟩
  | mlook a acc n w => obtain ⟨x, h1, h2, h3⟩ := dec_mlook a acc n w hw; exact ⟨11, x, h1, by decide, h2, h3⟩
  | xwait a sl => obtain ⟨x, h1, h2, h3⟩ := dec_xwait a sl hw; exact ⟨1, x, h1, by decide, h2, h3⟩
  | xtake a sl => obtain ⟨x, h1, h2, h3⟩ := dec_xtake a sl hw; exact ⟨2, x, h1, by decide, h2, h3⟩
  | xput a sl => obtain ⟨x, h1, h2, h3⟩ := dec_xput a sl hw; exact ⟨3, x, h1, by decide, h2, h3⟩
  | qpost a => obtain ⟨x, h1, h2, h3⟩ := dec_qpost a hw; exact ⟨5, x, h1, by decide, h2, h3⟩
  | soadd a o => obtain ⟨x, h1, h2, h3⟩ := dec_soadd a o hw; exact ⟨8, x, h1, by decide, h2, h3⟩
  | sowait a o => obtain ⟨x, h1, h2, h3⟩ := dec_sowait a o hw; exact ⟨9, x, h1, by decide, h2, h3⟩
  | soset a o => obtain ⟨x, h1, h2, h3⟩ := dec_soset a o hw; exact ⟨10, x, h1, by decide, h2, h3⟩
  | mf q0 a =>
    cases q0
    · obtain ⟨x, h1, h2, h3⟩ := dec_mf_post a hw; exact ⟨12, x, h1, by decide, h2, h3⟩
    · obtain ⟨x, h1, h2, h3⟩ := dec_mf_samp a hw; exact ⟨13, x, h1, by decide, h2, h3⟩
    · obtain ⟨x, h1, h2, h3⟩ := dec_mf_rev a hw; exact ⟨14, x, h1, by decide, h2, h3⟩

/-- Decoding an encoded slot gives it back, and its encoding is 32 bits. -/
theorem decodeSlot_enc (sl : Slot) (hw : sl.wf = true) : decodeSlot sl.op.cls sl.enc = .ok sl := by
  obtain ⟨pred, neg, o⟩ := sl
  simp only [Slot.wf, Bool.and_eq_true, decide_eq_true_eq, Bool.or_eq_true, bne_iff_ne, Bool.not_eq_true'] at hw
  obtain ⟨op, x, h1, h2, h3, h4⟩ := dec_op o hw.2
  have := decodeSlot_parts op x pred neg o.cls h2 h3 hw.1.1 hw.1.2 o h4
  unfold Slot.enc
  rw [h1]
  exact this

end Sys2Proof.Machine
end

