-- ==== Sys2Proof/Laws/State.lean ====
section
/-! SUPPORT. One lemma per field of the state, and per read of a unit, for each elementary update: what it sets, and
that it leaves everything else alone. -/

namespace Sys2Proof.Machine

variable (s : State)

/-! ## wr -/

@[simp] theorem State.wr_stepping (f : Fld) (v u i : Nat) : (s.wr f v u i).stepping = s.stepping := by rfl
@[simp] theorem State.wr_mem (f : Fld) (v u i : Nat) : (s.wr f v u i).mem = s.mem := by rfl
@[simp] theorem State.wr_byte (f : Fld) (v u i : Nat) (x : Nat) : (s.wr f v u i).byte x = s.byte x := by rfl
@[simp] theorem State.wr_tiles (f : Fld) (v u i : Nat) : (s.wr f v u i).tiles = s.tiles := by rfl
@[simp] theorem State.wr_tile (f : Fld) (v u i : Nat) (x : Nat) : (s.wr f v u i).tile x = s.tile x := by rfl
@[simp] theorem State.wr_hub (f : Fld) (v u i : Nat) : (s.wr f v u i).hub = s.hub := by rfl
@[simp] theorem State.wr_quays (f : Fld) (v u i : Nat) : (s.wr f v u i).quays = s.quays := by rfl
@[simp] theorem State.wr_quay (f : Fld) (v u i : Nat) (x : Nat) : (s.wr f v u i).quay x = s.quay x := by rfl
@[simp] theorem State.wr_cores (f : Fld) (v u i : Nat) : (s.wr f v u i).cores = s.cores := by rfl
@[simp] theorem State.wr_core (f : Fld) (v u i : Nat) (x : Nat) : (s.wr f v u i).core x = s.core x := by rfl
@[simp] theorem State.wr_cache (f : Fld) (v u i : Nat) : (s.wr f v u i).cache = s.cache := by rfl
@[simp] theorem State.wr_roster (f : Fld) (v u i : Nat) : (s.wr f v u i).roster = s.roster := by rfl
@[simp] theorem State.wr_engs (f : Fld) (v u i : Nat) : (s.wr f v u i).engs = s.engs := by rfl
@[simp] theorem State.wr_eng (f : Fld) (v u i : Nat) (x : Nat) : (s.wr f v u i).eng x = s.eng x := by rfl
@[simp] theorem State.wr_ports (f : Fld) (v u i : Nat) : (s.wr f v u i).ports = s.ports := by rfl
@[simp] theorem State.wr_port (f : Fld) (v u i : Nat) (x : Nat) : (s.wr f v u i).port x = s.port x := by rfl
@[simp] theorem State.wr_fault (f : Fld) (v u i : Nat) : (s.wr f v u i).fault = s.fault := by rfl
@[simp] theorem State.wr_pins (f : Fld) (v u i : Nat) : (s.wr f v u i).pins = s.pins := by rfl
@[simp] theorem State.wr_power (f : Fld) (v u i : Nat) : (s.wr f v u i).power = s.power := by rfl
@[simp] theorem State.wr_ctl (f : Fld) (v u i : Nat) : (s.wr f v u i).ctl = s.ctl := by rfl
@[simp] theorem State.wr_boot (f : Fld) (v u i : Nat) : (s.wr f v u i).boot = s.boot := by rfl
@[simp] theorem State.wr_free (f : Fld) (v u i : Nat) : (s.wr f v u i).free = s.free := by rfl
@[simp] theorem State.wr_tc (f : Fld) (v u i : Nat) : (s.wr f v u i).tc = s.tc := by rfl
@[simp] theorem State.wr_tick (f : Fld) (v u i : Nat) : (s.wr f v u i).tick = s.tick := by rfl
@[simp] theorem State.wr_pending (f : Fld) (v u i : Nat) : (s.wr f v u i).pending = s.pending := by rfl

/-! ## dropRf -/

@[simp] theorem State.dropRf_stepping (p : Nat → Bool) : (s.dropRf p).stepping = s.stepping := by rfl
@[simp] theorem State.dropRf_mem (p : Nat → Bool) : (s.dropRf p).mem = s.mem := by rfl
@[simp] theorem State.dropRf_byte (p : Nat → Bool) (x : Nat) : (s.dropRf p).byte x = s.byte x := by rfl
@[simp] theorem State.dropRf_tiles (p : Nat → Bool) : (s.dropRf p).tiles = s.tiles := by rfl
@[simp] theorem State.dropRf_tile (p : Nat → Bool) (x : Nat) : (s.dropRf p).tile x = s.tile x := by rfl
@[simp] theorem State.dropRf_hub (p : Nat → Bool) : (s.dropRf p).hub = s.hub := by rfl
@[simp] theorem State.dropRf_quays (p : Nat → Bool) : (s.dropRf p).quays = s.quays := by rfl
@[simp] theorem State.dropRf_quay (p : Nat → Bool) (x : Nat) : (s.dropRf p).quay x = s.quay x := by rfl
@[simp] theorem State.dropRf_cores (p : Nat → Bool) : (s.dropRf p).cores = s.cores := by rfl
@[simp] theorem State.dropRf_core (p : Nat → Bool) (x : Nat) : (s.dropRf p).core x = s.core x := by rfl
@[simp] theorem State.dropRf_cache (p : Nat → Bool) : (s.dropRf p).cache = s.cache := by rfl
@[simp] theorem State.dropRf_roster (p : Nat → Bool) : (s.dropRf p).roster = s.roster := by rfl
@[simp] theorem State.dropRf_engs (p : Nat → Bool) : (s.dropRf p).engs = s.engs := by rfl
@[simp] theorem State.dropRf_eng (p : Nat → Bool) (x : Nat) : (s.dropRf p).eng x = s.eng x := by rfl
@[simp] theorem State.dropRf_ports (p : Nat → Bool) : (s.dropRf p).ports = s.ports := by rfl
@[simp] theorem State.dropRf_port (p : Nat → Bool) (x : Nat) : (s.dropRf p).port x = s.port x := by rfl
@[simp] theorem State.dropRf_fault (p : Nat → Bool) : (s.dropRf p).fault = s.fault := by rfl
@[simp] theorem State.dropRf_pins (p : Nat → Bool) : (s.dropRf p).pins = s.pins := by rfl
@[simp] theorem State.dropRf_power (p : Nat → Bool) : (s.dropRf p).power = s.power := by rfl
@[simp] theorem State.dropRf_ctl (p : Nat → Bool) : (s.dropRf p).ctl = s.ctl := by rfl
@[simp] theorem State.dropRf_boot (p : Nat → Bool) : (s.dropRf p).boot = s.boot := by rfl
@[simp] theorem State.dropRf_free (p : Nat → Bool) : (s.dropRf p).free = s.free := by rfl
@[simp] theorem State.dropRf_tc (p : Nat → Bool) : (s.dropRf p).tc = s.tc := by rfl
@[simp] theorem State.dropRf_tick (p : Nat → Bool) : (s.dropRf p).tick = s.tick := by rfl
@[simp] theorem State.dropRf_pending (p : Nat → Bool) : (s.dropRf p).pending = s.pending := by rfl

/-! ## setByte -/

@[simp] theorem State.setByte_stepping (a : Nat) (b : Byte) : (s.setByte a b).stepping = s.stepping := by rfl
@[simp] theorem State.setByte_rf (a : Nat) (b : Byte) : (s.setByte a b).rf = s.rf := by rfl
@[simp] theorem State.setByte_rd (a : Nat) (b : Byte) (g : Fld) (u' i' : Nat) : (s.setByte a b).rd g u' i' = s.rd g u' i' := by rfl
@[simp] theorem State.setByte_tiles (a : Nat) (b : Byte) : (s.setByte a b).tiles = s.tiles := by rfl
@[simp] theorem State.setByte_tile (a : Nat) (b : Byte) (x : Nat) : (s.setByte a b).tile x = s.tile x := by rfl
@[simp] theorem State.setByte_hub (a : Nat) (b : Byte) : (s.setByte a b).hub = s.hub := by rfl
@[simp] theorem State.setByte_quays (a : Nat) (b : Byte) : (s.setByte a b).quays = s.quays := by rfl
@[simp] theorem State.setByte_quay (a : Nat) (b : Byte) (x : Nat) : (s.setByte a b).quay x = s.quay x := by rfl
@[simp] theorem State.setByte_cores (a : Nat) (b : Byte) : (s.setByte a b).cores = s.cores := by rfl
@[simp] theorem State.setByte_core (a : Nat) (b : Byte) (x : Nat) : (s.setByte a b).core x = s.core x := by rfl
@[simp] theorem State.setByte_cache (a : Nat) (b : Byte) : (s.setByte a b).cache = s.cache := by rfl
@[simp] theorem State.setByte_roster (a : Nat) (b : Byte) : (s.setByte a b).roster = s.roster := by rfl
@[simp] theorem State.setByte_engs (a : Nat) (b : Byte) : (s.setByte a b).engs = s.engs := by rfl
@[simp] theorem State.setByte_eng (a : Nat) (b : Byte) (x : Nat) : (s.setByte a b).eng x = s.eng x := by rfl
@[simp] theorem State.setByte_ports (a : Nat) (b : Byte) : (s.setByte a b).ports = s.ports := by rfl
@[simp] theorem State.setByte_port (a : Nat) (b : Byte) (x : Nat) : (s.setByte a b).port x = s.port x := by rfl
@[simp] theorem State.setByte_fault (a : Nat) (b : Byte) : (s.setByte a b).fault = s.fault := by rfl
@[simp] theorem State.setByte_pins (a : Nat) (b : Byte) : (s.setByte a b).pins = s.pins := by rfl
@[simp] theorem State.setByte_power (a : Nat) (b : Byte) : (s.setByte a b).power = s.power := by rfl
@[simp] theorem State.setByte_ctl (a : Nat) (b : Byte) : (s.setByte a b).ctl = s.ctl := by rfl
@[simp] theorem State.setByte_boot (a : Nat) (b : Byte) : (s.setByte a b).boot = s.boot := by rfl
@[simp] theorem State.setByte_free (a : Nat) (b : Byte) : (s.setByte a b).free = s.free := by rfl
@[simp] theorem State.setByte_tc (a : Nat) (b : Byte) : (s.setByte a b).tc = s.tc := by rfl
@[simp] theorem State.setByte_tick (a : Nat) (b : Byte) : (s.setByte a b).tick = s.tick := by rfl
@[simp] theorem State.setByte_pending (a : Nat) (b : Byte) : (s.setByte a b).pending = s.pending := by rfl

/-! ## dropMem -/

@[simp] theorem State.dropMem_stepping (p : Nat → Bool) : (s.dropMem p).stepping = s.stepping := by rfl
@[simp] theorem State.dropMem_rf (p : Nat → Bool) : (s.dropMem p).rf = s.rf := by rfl
@[simp] theorem State.dropMem_rd (p : Nat → Bool) (g : Fld) (u' i' : Nat) : (s.dropMem p).rd g u' i' = s.rd g u' i' := by rfl
@[simp] theorem State.dropMem_tiles (p : Nat → Bool) : (s.dropMem p).tiles = s.tiles := by rfl
@[simp] theorem State.dropMem_tile (p : Nat → Bool) (x : Nat) : (s.dropMem p).tile x = s.tile x := by rfl
@[simp] theorem State.dropMem_hub (p : Nat → Bool) : (s.dropMem p).hub = s.hub := by rfl
@[simp] theorem State.dropMem_quays (p : Nat → Bool) : (s.dropMem p).quays = s.quays := by rfl
@[simp] theorem State.dropMem_quay (p : Nat → Bool) (x : Nat) : (s.dropMem p).quay x = s.quay x := by rfl
@[simp] theorem State.dropMem_cores (p : Nat → Bool) : (s.dropMem p).cores = s.cores := by rfl
@[simp] theorem State.dropMem_core (p : Nat → Bool) (x : Nat) : (s.dropMem p).core x = s.core x := by rfl
@[simp] theorem State.dropMem_cache (p : Nat → Bool) : (s.dropMem p).cache = s.cache := by rfl
@[simp] theorem State.dropMem_roster (p : Nat → Bool) : (s.dropMem p).roster = s.roster := by rfl
@[simp] theorem State.dropMem_engs (p : Nat → Bool) : (s.dropMem p).engs = s.engs := by rfl
@[simp] theorem State.dropMem_eng (p : Nat → Bool) (x : Nat) : (s.dropMem p).eng x = s.eng x := by rfl
@[simp] theorem State.dropMem_ports (p : Nat → Bool) : (s.dropMem p).ports = s.ports := by rfl
@[simp] theorem State.dropMem_port (p : Nat → Bool) (x : Nat) : (s.dropMem p).port x = s.port x := by rfl
@[simp] theorem State.dropMem_fault (p : Nat → Bool) : (s.dropMem p).fault = s.fault := by rfl
@[simp] theorem State.dropMem_pins (p : Nat → Bool) : (s.dropMem p).pins = s.pins := by rfl
@[simp] theorem State.dropMem_power (p : Nat → Bool) : (s.dropMem p).power = s.power := by rfl
@[simp] theorem State.dropMem_ctl (p : Nat → Bool) : (s.dropMem p).ctl = s.ctl := by rfl
@[simp] theorem State.dropMem_boot (p : Nat → Bool) : (s.dropMem p).boot = s.boot := by rfl
@[simp] theorem State.dropMem_free (p : Nat → Bool) : (s.dropMem p).free = s.free := by rfl
@[simp] theorem State.dropMem_tc (p : Nat → Bool) : (s.dropMem p).tc = s.tc := by rfl
@[simp] theorem State.dropMem_tick (p : Nat → Bool) : (s.dropMem p).tick = s.tick := by rfl
@[simp] theorem State.dropMem_pending (p : Nat → Bool) : (s.dropMem p).pending = s.pending := by rfl

/-! ## upTile -/

@[simp] theorem State.upTile_stepping (t : Nat) (f : TileX → TileX) : (s.upTile t f).stepping = s.stepping := by rfl
@[simp] theorem State.upTile_rf (t : Nat) (f : TileX → TileX) : (s.upTile t f).rf = s.rf := by rfl
@[simp] theorem State.upTile_rd (t : Nat) (f : TileX → TileX) (g : Fld) (u' i' : Nat) : (s.upTile t f).rd g u' i' = s.rd g u' i' := by rfl
@[simp] theorem State.upTile_mem (t : Nat) (f : TileX → TileX) : (s.upTile t f).mem = s.mem := by rfl
@[simp] theorem State.upTile_byte (t : Nat) (f : TileX → TileX) (x : Nat) : (s.upTile t f).byte x = s.byte x := by rfl
@[simp] theorem State.upTile_tiles (t : Nat) (f : TileX → TileX) : (s.upTile t f).tiles = aput {} s.tiles t (f (s.tile t)) := by rfl
@[simp] theorem State.upTile_hub (t : Nat) (f : TileX → TileX) : (s.upTile t f).hub = s.hub := by rfl
@[simp] theorem State.upTile_quays (t : Nat) (f : TileX → TileX) : (s.upTile t f).quays = s.quays := by rfl
@[simp] theorem State.upTile_quay (t : Nat) (f : TileX → TileX) (x : Nat) : (s.upTile t f).quay x = s.quay x := by rfl
@[simp] theorem State.upTile_cores (t : Nat) (f : TileX → TileX) : (s.upTile t f).cores = s.cores := by rfl
@[simp] theorem State.upTile_core (t : Nat) (f : TileX → TileX) (x : Nat) : (s.upTile t f).core x = s.core x := by rfl
@[simp] theorem State.upTile_cache (t : Nat) (f : TileX → TileX) : (s.upTile t f).cache = s.cache := by rfl
@[simp] theorem State.upTile_roster (t : Nat) (f : TileX → TileX) : (s.upTile t f).roster = s.roster := by rfl
@[simp] theorem State.upTile_engs (t : Nat) (f : TileX → TileX) : (s.upTile t f).engs = s.engs := by rfl
@[simp] theorem State.upTile_eng (t : Nat) (f : TileX → TileX) (x : Nat) : (s.upTile t f).eng x = s.eng x := by rfl
@[simp] theorem State.upTile_ports (t : Nat) (f : TileX → TileX) : (s.upTile t f).ports = s.ports := by rfl
@[simp] theorem State.upTile_port (t : Nat) (f : TileX → TileX) (x : Nat) : (s.upTile t f).port x = s.port x := by rfl
@[simp] theorem State.upTile_fault (t : Nat) (f : TileX → TileX) : (s.upTile t f).fault = s.fault := by rfl
@[simp] theorem State.upTile_pins (t : Nat) (f : TileX → TileX) : (s.upTile t f).pins = s.pins := by rfl
@[simp] theorem State.upTile_power (t : Nat) (f : TileX → TileX) : (s.upTile t f).power = s.power := by rfl
@[simp] theorem State.upTile_ctl (t : Nat) (f : TileX → TileX) : (s.upTile t f).ctl = s.ctl := by rfl
@[simp] theorem State.upTile_boot (t : Nat) (f : TileX → TileX) : (s.upTile t f).boot = s.boot := by rfl
@[simp] theorem State.upTile_free (t : Nat) (f : TileX → TileX) : (s.upTile t f).free = s.free := by rfl
@[simp] theorem State.upTile_tc (t : Nat) (f : TileX → TileX) : (s.upTile t f).tc = s.tc := by rfl
@[simp] theorem State.upTile_tick (t : Nat) (f : TileX → TileX) : (s.upTile t f).tick = s.tick := by rfl
@[simp] theorem State.upTile_pending (t : Nat) (f : TileX → TileX) : (s.upTile t f).pending = s.pending := by rfl

/-! ## mapTiles -/

@[simp] theorem State.mapTiles_stepping (f : Nat → TileX → TileX) : (s.mapTiles f).stepping = s.stepping := by rfl
@[simp] theorem State.mapTiles_rf (f : Nat → TileX → TileX) : (s.mapTiles f).rf = s.rf := by rfl
@[simp] theorem State.mapTiles_rd (f : Nat → TileX → TileX) (g : Fld) (u' i' : Nat) : (s.mapTiles f).rd g u' i' = s.rd g u' i' := by rfl
@[simp] theorem State.mapTiles_mem (f : Nat → TileX → TileX) : (s.mapTiles f).mem = s.mem := by rfl
@[simp] theorem State.mapTiles_byte (f : Nat → TileX → TileX) (x : Nat) : (s.mapTiles f).byte x = s.byte x := by rfl
@[simp] theorem State.mapTiles_hub (f : Nat → TileX → TileX) : (s.mapTiles f).hub = s.hub := by rfl
@[simp] theorem State.mapTiles_quays (f : Nat → TileX → TileX) : (s.mapTiles f).quays = s.quays := by rfl
@[simp] theorem State.mapTiles_quay (f : Nat → TileX → TileX) (x : Nat) : (s.mapTiles f).quay x = s.quay x := by rfl
@[simp] theorem State.mapTiles_cores (f : Nat → TileX → TileX) : (s.mapTiles f).cores = s.cores := by rfl
@[simp] theorem State.mapTiles_core (f : Nat → TileX → TileX) (x : Nat) : (s.mapTiles f).core x = s.core x := by rfl
@[simp] theorem State.mapTiles_cache (f : Nat → TileX → TileX) : (s.mapTiles f).cache = s.cache := by rfl
@[simp] theorem State.mapTiles_roster (f : Nat → TileX → TileX) : (s.mapTiles f).roster = s.roster := by rfl
@[simp] theorem State.mapTiles_engs (f : Nat → TileX → TileX) : (s.mapTiles f).engs = s.engs := by rfl
@[simp] theorem State.mapTiles_eng (f : Nat → TileX → TileX) (x : Nat) : (s.mapTiles f).eng x = s.eng x := by rfl
@[simp] theorem State.mapTiles_ports (f : Nat → TileX → TileX) : (s.mapTiles f).ports = s.ports := by rfl
@[simp] theorem State.mapTiles_port (f : Nat → TileX → TileX) (x : Nat) : (s.mapTiles f).port x = s.port x := by rfl
@[simp] theorem State.mapTiles_fault (f : Nat → TileX → TileX) : (s.mapTiles f).fault = s.fault := by rfl
@[simp] theorem State.mapTiles_pins (f : Nat → TileX → TileX) : (s.mapTiles f).pins = s.pins := by rfl
@[simp] theorem State.mapTiles_power (f : Nat → TileX → TileX) : (s.mapTiles f).power = s.power := by rfl
@[simp] theorem State.mapTiles_ctl (f : Nat → TileX → TileX) : (s.mapTiles f).ctl = s.ctl := by rfl
@[simp] theorem State.mapTiles_boot (f : Nat → TileX → TileX) : (s.mapTiles f).boot = s.boot := by rfl
@[simp] theorem State.mapTiles_free (f : Nat → TileX → TileX) : (s.mapTiles f).free = s.free := by rfl
@[simp] theorem State.mapTiles_tc (f : Nat → TileX → TileX) : (s.mapTiles f).tc = s.tc := by rfl
@[simp] theorem State.mapTiles_tick (f : Nat → TileX → TileX) : (s.mapTiles f).tick = s.tick := by rfl
@[simp] theorem State.mapTiles_pending (f : Nat → TileX → TileX) : (s.mapTiles f).pending = s.pending := by rfl

/-! ## upQuay -/

@[simp] theorem State.upQuay_stepping (q : Nat) (f : QuayX → QuayX) : (s.upQuay q f).stepping = s.stepping := by rfl
@[simp] theorem State.upQuay_rf (q : Nat) (f : QuayX → QuayX) : (s.upQuay q f).rf = s.rf := by rfl
@[simp] theorem State.upQuay_rd (q : Nat) (f : QuayX → QuayX) (g : Fld) (u' i' : Nat) : (s.upQuay q f).rd g u' i' = s.rd g u' i' := by rfl
@[simp] theorem State.upQuay_mem (q : Nat) (f : QuayX → QuayX) : (s.upQuay q f).mem = s.mem := by rfl
@[simp] theorem State.upQuay_byte (q : Nat) (f : QuayX → QuayX) (x : Nat) : (s.upQuay q f).byte x = s.byte x := by rfl
@[simp] theorem State.upQuay_tiles (q : Nat) (f : QuayX → QuayX) : (s.upQuay q f).tiles = s.tiles := by rfl
@[simp] theorem State.upQuay_tile (q : Nat) (f : QuayX → QuayX) (x : Nat) : (s.upQuay q f).tile x = s.tile x := by rfl
@[simp] theorem State.upQuay_hub (q : Nat) (f : QuayX → QuayX) : (s.upQuay q f).hub = s.hub := by rfl
@[simp] theorem State.upQuay_quays (q : Nat) (f : QuayX → QuayX) : (s.upQuay q f).quays = aput {} s.quays q (f (s.quay q)) := by rfl
@[simp] theorem State.upQuay_cores (q : Nat) (f : QuayX → QuayX) : (s.upQuay q f).cores = s.cores := by rfl
@[simp] theorem State.upQuay_core (q : Nat) (f : QuayX → QuayX) (x : Nat) : (s.upQuay q f).core x = s.core x := by rfl
@[simp] theorem State.upQuay_cache (q : Nat) (f : QuayX → QuayX) : (s.upQuay q f).cache = s.cache := by rfl
@[simp] theorem State.upQuay_roster (q : Nat) (f : QuayX → QuayX) : (s.upQuay q f).roster = s.roster := by rfl
@[simp] theorem State.upQuay_engs (q : Nat) (f : QuayX → QuayX) : (s.upQuay q f).engs = s.engs := by rfl
@[simp] theorem State.upQuay_eng (q : Nat) (f : QuayX → QuayX) (x : Nat) : (s.upQuay q f).eng x = s.eng x := by rfl
@[simp] theorem State.upQuay_ports (q : Nat) (f : QuayX → QuayX) : (s.upQuay q f).ports = s.ports := by rfl
@[simp] theorem State.upQuay_port (q : Nat) (f : QuayX → QuayX) (x : Nat) : (s.upQuay q f).port x = s.port x := by rfl
@[simp] theorem State.upQuay_fault (q : Nat) (f : QuayX → QuayX) : (s.upQuay q f).fault = s.fault := by rfl
@[simp] theorem State.upQuay_pins (q : Nat) (f : QuayX → QuayX) : (s.upQuay q f).pins = s.pins := by rfl
@[simp] theorem State.upQuay_power (q : Nat) (f : QuayX → QuayX) : (s.upQuay q f).power = s.power := by rfl
@[simp] theorem State.upQuay_ctl (q : Nat) (f : QuayX → QuayX) : (s.upQuay q f).ctl = s.ctl := by rfl
@[simp] theorem State.upQuay_boot (q : Nat) (f : QuayX → QuayX) : (s.upQuay q f).boot = s.boot := by rfl
@[simp] theorem State.upQuay_free (q : Nat) (f : QuayX → QuayX) : (s.upQuay q f).free = s.free := by rfl
@[simp] theorem State.upQuay_tc (q : Nat) (f : QuayX → QuayX) : (s.upQuay q f).tc = s.tc := by rfl
@[simp] theorem State.upQuay_tick (q : Nat) (f : QuayX → QuayX) : (s.upQuay q f).tick = s.tick := by rfl
@[simp] theorem State.upQuay_pending (q : Nat) (f : QuayX → QuayX) : (s.upQuay q f).pending = s.pending := by rfl

/-! ## upCore -/

@[simp] theorem State.upCore_stepping (c : Nat) (f : CoreX → CoreX) : (s.upCore c f).stepping = s.stepping := by rfl
@[simp] theorem State.upCore_rf (c : Nat) (f : CoreX → CoreX) : (s.upCore c f).rf = s.rf := by rfl
@[simp] theorem State.upCore_rd (c : Nat) (f : CoreX → CoreX) (g : Fld) (u' i' : Nat) : (s.upCore c f).rd g u' i' = s.rd g u' i' := by rfl
@[simp] theorem State.upCore_mem (c : Nat) (f : CoreX → CoreX) : (s.upCore c f).mem = s.mem := by rfl
@[simp] theorem State.upCore_byte (c : Nat) (f : CoreX → CoreX) (x : Nat) : (s.upCore c f).byte x = s.byte x := by rfl
@[simp] theorem State.upCore_tiles (c : Nat) (f : CoreX → CoreX) : (s.upCore c f).tiles = s.tiles := by rfl
@[simp] theorem State.upCore_tile (c : Nat) (f : CoreX → CoreX) (x : Nat) : (s.upCore c f).tile x = s.tile x := by rfl
@[simp] theorem State.upCore_hub (c : Nat) (f : CoreX → CoreX) : (s.upCore c f).hub = s.hub := by rfl
@[simp] theorem State.upCore_quays (c : Nat) (f : CoreX → CoreX) : (s.upCore c f).quays = s.quays := by rfl
@[simp] theorem State.upCore_quay (c : Nat) (f : CoreX → CoreX) (x : Nat) : (s.upCore c f).quay x = s.quay x := by rfl
@[simp] theorem State.upCore_cores (c : Nat) (f : CoreX → CoreX) : (s.upCore c f).cores = aput {} s.cores c (f (s.core c)) := by rfl
@[simp] theorem State.upCore_cache (c : Nat) (f : CoreX → CoreX) : (s.upCore c f).cache = s.cache := by rfl
@[simp] theorem State.upCore_roster (c : Nat) (f : CoreX → CoreX) : (s.upCore c f).roster = s.roster := by rfl
@[simp] theorem State.upCore_engs (c : Nat) (f : CoreX → CoreX) : (s.upCore c f).engs = s.engs := by rfl
@[simp] theorem State.upCore_eng (c : Nat) (f : CoreX → CoreX) (x : Nat) : (s.upCore c f).eng x = s.eng x := by rfl
@[simp] theorem State.upCore_ports (c : Nat) (f : CoreX → CoreX) : (s.upCore c f).ports = s.ports := by rfl
@[simp] theorem State.upCore_port (c : Nat) (f : CoreX → CoreX) (x : Nat) : (s.upCore c f).port x = s.port x := by rfl
@[simp] theorem State.upCore_fault (c : Nat) (f : CoreX → CoreX) : (s.upCore c f).fault = s.fault := by rfl
@[simp] theorem State.upCore_pins (c : Nat) (f : CoreX → CoreX) : (s.upCore c f).pins = s.pins := by rfl
@[simp] theorem State.upCore_power (c : Nat) (f : CoreX → CoreX) : (s.upCore c f).power = s.power := by rfl
@[simp] theorem State.upCore_ctl (c : Nat) (f : CoreX → CoreX) : (s.upCore c f).ctl = s.ctl := by rfl
@[simp] theorem State.upCore_boot (c : Nat) (f : CoreX → CoreX) : (s.upCore c f).boot = s.boot := by rfl
@[simp] theorem State.upCore_free (c : Nat) (f : CoreX → CoreX) : (s.upCore c f).free = s.free := by rfl
@[simp] theorem State.upCore_tc (c : Nat) (f : CoreX → CoreX) : (s.upCore c f).tc = s.tc := by rfl
@[simp] theorem State.upCore_tick (c : Nat) (f : CoreX → CoreX) : (s.upCore c f).tick = s.tick := by rfl
@[simp] theorem State.upCore_pending (c : Nat) (f : CoreX → CoreX) : (s.upCore c f).pending = s.pending := by rfl

/-! ## upEng -/

@[simp] theorem State.upEng_stepping (k : Nat) (f : EngX → EngX) : (s.upEng k f).stepping = s.stepping := by rfl
@[simp] theorem State.upEng_rf (k : Nat) (f : EngX → EngX) : (s.upEng k f).rf = s.rf := by rfl
@[simp] theorem State.upEng_rd (k : Nat) (f : EngX → EngX) (g : Fld) (u' i' : Nat) : (s.upEng k f).rd g u' i' = s.rd g u' i' := by rfl
@[simp] theorem State.upEng_mem (k : Nat) (f : EngX → EngX) : (s.upEng k f).mem = s.mem := by rfl
@[simp] theorem State.upEng_byte (k : Nat) (f : EngX → EngX) (x : Nat) : (s.upEng k f).byte x = s.byte x := by rfl
@[simp] theorem State.upEng_tiles (k : Nat) (f : EngX → EngX) : (s.upEng k f).tiles = s.tiles := by rfl
@[simp] theorem State.upEng_tile (k : Nat) (f : EngX → EngX) (x : Nat) : (s.upEng k f).tile x = s.tile x := by rfl
@[simp] theorem State.upEng_hub (k : Nat) (f : EngX → EngX) : (s.upEng k f).hub = s.hub := by rfl
@[simp] theorem State.upEng_quays (k : Nat) (f : EngX → EngX) : (s.upEng k f).quays = s.quays := by rfl
@[simp] theorem State.upEng_quay (k : Nat) (f : EngX → EngX) (x : Nat) : (s.upEng k f).quay x = s.quay x := by rfl
@[simp] theorem State.upEng_cores (k : Nat) (f : EngX → EngX) : (s.upEng k f).cores = s.cores := by rfl
@[simp] theorem State.upEng_core (k : Nat) (f : EngX → EngX) (x : Nat) : (s.upEng k f).core x = s.core x := by rfl
@[simp] theorem State.upEng_cache (k : Nat) (f : EngX → EngX) : (s.upEng k f).cache = s.cache := by rfl
@[simp] theorem State.upEng_roster (k : Nat) (f : EngX → EngX) : (s.upEng k f).roster = s.roster := by rfl
@[simp] theorem State.upEng_engs (k : Nat) (f : EngX → EngX) : (s.upEng k f).engs = aput {} s.engs k (f (s.eng k)) := by rfl
@[simp] theorem State.upEng_ports (k : Nat) (f : EngX → EngX) : (s.upEng k f).ports = s.ports := by rfl
@[simp] theorem State.upEng_port (k : Nat) (f : EngX → EngX) (x : Nat) : (s.upEng k f).port x = s.port x := by rfl
@[simp] theorem State.upEng_fault (k : Nat) (f : EngX → EngX) : (s.upEng k f).fault = s.fault := by rfl
@[simp] theorem State.upEng_pins (k : Nat) (f : EngX → EngX) : (s.upEng k f).pins = s.pins := by rfl
@[simp] theorem State.upEng_power (k : Nat) (f : EngX → EngX) : (s.upEng k f).power = s.power := by rfl
@[simp] theorem State.upEng_ctl (k : Nat) (f : EngX → EngX) : (s.upEng k f).ctl = s.ctl := by rfl
@[simp] theorem State.upEng_boot (k : Nat) (f : EngX → EngX) : (s.upEng k f).boot = s.boot := by rfl
@[simp] theorem State.upEng_free (k : Nat) (f : EngX → EngX) : (s.upEng k f).free = s.free := by rfl
@[simp] theorem State.upEng_tc (k : Nat) (f : EngX → EngX) : (s.upEng k f).tc = s.tc := by rfl
@[simp] theorem State.upEng_tick (k : Nat) (f : EngX → EngX) : (s.upEng k f).tick = s.tick := by rfl
@[simp] theorem State.upEng_pending (k : Nat) (f : EngX → EngX) : (s.upEng k f).pending = s.pending := by rfl

/-! ## upPort -/

@[simp] theorem State.upPort_stepping (k : Nat) (f : PortX → PortX) : (s.upPort k f).stepping = s.stepping := by rfl
@[simp] theorem State.upPort_rf (k : Nat) (f : PortX → PortX) : (s.upPort k f).rf = s.rf := by rfl
@[simp] theorem State.upPort_rd (k : Nat) (f : PortX → PortX) (g : Fld) (u' i' : Nat) : (s.upPort k f).rd g u' i' = s.rd g u' i' := by rfl
@[simp] theorem State.upPort_mem (k : Nat) (f : PortX → PortX) : (s.upPort k f).mem = s.mem := by rfl
@[simp] theorem State.upPort_byte (k : Nat) (f : PortX → PortX) (x : Nat) : (s.upPort k f).byte x = s.byte x := by rfl
@[simp] theorem State.upPort_tiles (k : Nat) (f : PortX → PortX) : (s.upPort k f).tiles = s.tiles := by rfl
@[simp] theorem State.upPort_tile (k : Nat) (f : PortX → PortX) (x : Nat) : (s.upPort k f).tile x = s.tile x := by rfl
@[simp] theorem State.upPort_hub (k : Nat) (f : PortX → PortX) : (s.upPort k f).hub = s.hub := by rfl
@[simp] theorem State.upPort_quays (k : Nat) (f : PortX → PortX) : (s.upPort k f).quays = s.quays := by rfl
@[simp] theorem State.upPort_quay (k : Nat) (f : PortX → PortX) (x : Nat) : (s.upPort k f).quay x = s.quay x := by rfl
@[simp] theorem State.upPort_cores (k : Nat) (f : PortX → PortX) : (s.upPort k f).cores = s.cores := by rfl
@[simp] theorem State.upPort_core (k : Nat) (f : PortX → PortX) (x : Nat) : (s.upPort k f).core x = s.core x := by rfl
@[simp] theorem State.upPort_cache (k : Nat) (f : PortX → PortX) : (s.upPort k f).cache = s.cache := by rfl
@[simp] theorem State.upPort_roster (k : Nat) (f : PortX → PortX) : (s.upPort k f).roster = s.roster := by rfl
@[simp] theorem State.upPort_engs (k : Nat) (f : PortX → PortX) : (s.upPort k f).engs = s.engs := by rfl
@[simp] theorem State.upPort_eng (k : Nat) (f : PortX → PortX) (x : Nat) : (s.upPort k f).eng x = s.eng x := by rfl
@[simp] theorem State.upPort_ports (k : Nat) (f : PortX → PortX) : (s.upPort k f).ports = aput {} s.ports k (f (s.port k)) := by rfl
@[simp] theorem State.upPort_fault (k : Nat) (f : PortX → PortX) : (s.upPort k f).fault = s.fault := by rfl
@[simp] theorem State.upPort_pins (k : Nat) (f : PortX → PortX) : (s.upPort k f).pins = s.pins := by rfl
@[simp] theorem State.upPort_power (k : Nat) (f : PortX → PortX) : (s.upPort k f).power = s.power := by rfl
@[simp] theorem State.upPort_ctl (k : Nat) (f : PortX → PortX) : (s.upPort k f).ctl = s.ctl := by rfl
@[simp] theorem State.upPort_boot (k : Nat) (f : PortX → PortX) : (s.upPort k f).boot = s.boot := by rfl
@[simp] theorem State.upPort_free (k : Nat) (f : PortX → PortX) : (s.upPort k f).free = s.free := by rfl
@[simp] theorem State.upPort_tc (k : Nat) (f : PortX → PortX) : (s.upPort k f).tc = s.tc := by rfl
@[simp] theorem State.upPort_tick (k : Nat) (f : PortX → PortX) : (s.upPort k f).tick = s.tick := by rfl
@[simp] theorem State.upPort_pending (k : Nat) (f : PortX → PortX) : (s.upPort k f).pending = s.pending := by rfl

/-! ## upHub -/

@[simp] theorem State.upHub_stepping (f : Hub → Hub) : (s.upHub f).stepping = s.stepping := by rfl
@[simp] theorem State.upHub_rf (f : Hub → Hub) : (s.upHub f).rf = s.rf := by rfl
@[simp] theorem State.upHub_rd (f : Hub → Hub) (g : Fld) (u' i' : Nat) : (s.upHub f).rd g u' i' = s.rd g u' i' := by rfl
@[simp] theorem State.upHub_mem (f : Hub → Hub) : (s.upHub f).mem = s.mem := by rfl
@[simp] theorem State.upHub_byte (f : Hub → Hub) (x : Nat) : (s.upHub f).byte x = s.byte x := by rfl
@[simp] theorem State.upHub_tiles (f : Hub → Hub) : (s.upHub f).tiles = s.tiles := by rfl
@[simp] theorem State.upHub_tile (f : Hub → Hub) (x : Nat) : (s.upHub f).tile x = s.tile x := by rfl
@[simp] theorem State.upHub_hub (f : Hub → Hub) : (s.upHub f).hub = f s.hub := by rfl
@[simp] theorem State.upHub_quays (f : Hub → Hub) : (s.upHub f).quays = s.quays := by rfl
@[simp] theorem State.upHub_quay (f : Hub → Hub) (x : Nat) : (s.upHub f).quay x = s.quay x := by rfl
@[simp] theorem State.upHub_cores (f : Hub → Hub) : (s.upHub f).cores = s.cores := by rfl
@[simp] theorem State.upHub_core (f : Hub → Hub) (x : Nat) : (s.upHub f).core x = s.core x := by rfl
@[simp] theorem State.upHub_cache (f : Hub → Hub) : (s.upHub f).cache = s.cache := by rfl
@[simp] theorem State.upHub_roster (f : Hub → Hub) : (s.upHub f).roster = s.roster := by rfl
@[simp] theorem State.upHub_engs (f : Hub → Hub) : (s.upHub f).engs = s.engs := by rfl
@[simp] theorem State.upHub_eng (f : Hub → Hub) (x : Nat) : (s.upHub f).eng x = s.eng x := by rfl
@[simp] theorem State.upHub_ports (f : Hub → Hub) : (s.upHub f).ports = s.ports := by rfl
@[simp] theorem State.upHub_port (f : Hub → Hub) (x : Nat) : (s.upHub f).port x = s.port x := by rfl
@[simp] theorem State.upHub_fault (f : Hub → Hub) : (s.upHub f).fault = s.fault := by rfl
@[simp] theorem State.upHub_pins (f : Hub → Hub) : (s.upHub f).pins = s.pins := by rfl
@[simp] theorem State.upHub_power (f : Hub → Hub) : (s.upHub f).power = s.power := by rfl
@[simp] theorem State.upHub_ctl (f : Hub → Hub) : (s.upHub f).ctl = s.ctl := by rfl
@[simp] theorem State.upHub_boot (f : Hub → Hub) : (s.upHub f).boot = s.boot := by rfl
@[simp] theorem State.upHub_free (f : Hub → Hub) : (s.upHub f).free = s.free := by rfl
@[simp] theorem State.upHub_tc (f : Hub → Hub) : (s.upHub f).tc = s.tc := by rfl
@[simp] theorem State.upHub_tick (f : Hub → Hub) : (s.upHub f).tick = s.tick := by rfl
@[simp] theorem State.upHub_pending (f : Hub → Hub) : (s.upHub f).pending = s.pending := by rfl

/-! ## upFault -/

@[simp] theorem State.upFault_stepping (f : FaultX → FaultX) : (s.upFault f).stepping = s.stepping := by rfl
@[simp] theorem State.upFault_rf (f : FaultX → FaultX) : (s.upFault f).rf = s.rf := by rfl
@[simp] theorem State.upFault_rd (f : FaultX → FaultX) (g : Fld) (u' i' : Nat) : (s.upFault f).rd g u' i' = s.rd g u' i' := by rfl
@[simp] theorem State.upFault_mem (f : FaultX → FaultX) : (s.upFault f).mem = s.mem := by rfl
@[simp] theorem State.upFault_byte (f : FaultX → FaultX) (x : Nat) : (s.upFault f).byte x = s.byte x := by rfl
@[simp] theorem State.upFault_tiles (f : FaultX → FaultX) : (s.upFault f).tiles = s.tiles := by rfl
@[simp] theorem State.upFault_tile (f : FaultX → FaultX) (x : Nat) : (s.upFault f).tile x = s.tile x := by rfl
@[simp] theorem State.upFault_hub (f : FaultX → FaultX) : (s.upFault f).hub = s.hub := by rfl
@[simp] theorem State.upFault_quays (f : FaultX → FaultX) : (s.upFault f).quays = s.quays := by rfl
@[simp] theorem State.upFault_quay (f : FaultX → FaultX) (x : Nat) : (s.upFault f).quay x = s.quay x := by rfl
@[simp] theorem State.upFault_cores (f : FaultX → FaultX) : (s.upFault f).cores = s.cores := by rfl
@[simp] theorem State.upFault_core (f : FaultX → FaultX) (x : Nat) : (s.upFault f).core x = s.core x := by rfl
@[simp] theorem State.upFault_cache (f : FaultX → FaultX) : (s.upFault f).cache = s.cache := by rfl
@[simp] theorem State.upFault_roster (f : FaultX → FaultX) : (s.upFault f).roster = s.roster := by rfl
@[simp] theorem State.upFault_engs (f : FaultX → FaultX) : (s.upFault f).engs = s.engs := by rfl
@[simp] theorem State.upFault_eng (f : FaultX → FaultX) (x : Nat) : (s.upFault f).eng x = s.eng x := by rfl
@[simp] theorem State.upFault_ports (f : FaultX → FaultX) : (s.upFault f).ports = s.ports := by rfl
@[simp] theorem State.upFault_port (f : FaultX → FaultX) (x : Nat) : (s.upFault f).port x = s.port x := by rfl
@[simp] theorem State.upFault_fault (f : FaultX → FaultX) : (s.upFault f).fault = f s.fault := by rfl
@[simp] theorem State.upFault_pins (f : FaultX → FaultX) : (s.upFault f).pins = s.pins := by rfl
@[simp] theorem State.upFault_power (f : FaultX → FaultX) : (s.upFault f).power = s.power := by rfl
@[simp] theorem State.upFault_ctl (f : FaultX → FaultX) : (s.upFault f).ctl = s.ctl := by rfl
@[simp] theorem State.upFault_boot (f : FaultX → FaultX) : (s.upFault f).boot = s.boot := by rfl
@[simp] theorem State.upFault_free (f : FaultX → FaultX) : (s.upFault f).free = s.free := by rfl
@[simp] theorem State.upFault_tc (f : FaultX → FaultX) : (s.upFault f).tc = s.tc := by rfl
@[simp] theorem State.upFault_tick (f : FaultX → FaultX) : (s.upFault f).tick = s.tick := by rfl
@[simp] theorem State.upFault_pending (f : FaultX → FaultX) : (s.upFault f).pending = s.pending := by rfl

/-! ## upPins -/

@[simp] theorem State.upPins_stepping (f : Pins → Pins) : (s.upPins f).stepping = s.stepping := by rfl
@[simp] theorem State.upPins_rf (f : Pins → Pins) : (s.upPins f).rf = s.rf := by rfl
@[simp] theorem State.upPins_rd (f : Pins → Pins) (g : Fld) (u' i' : Nat) : (s.upPins f).rd g u' i' = s.rd g u' i' := by rfl
@[simp] theorem State.upPins_mem (f : Pins → Pins) : (s.upPins f).mem = s.mem := by rfl
@[simp] theorem State.upPins_byte (f : Pins → Pins) (x : Nat) : (s.upPins f).byte x = s.byte x := by rfl
@[simp] theorem State.upPins_tiles (f : Pins → Pins) : (s.upPins f).tiles = s.tiles := by rfl
@[simp] theorem State.upPins_tile (f : Pins → Pins) (x : Nat) : (s.upPins f).tile x = s.tile x := by rfl
@[simp] theorem State.upPins_hub (f : Pins → Pins) : (s.upPins f).hub = s.hub := by rfl
@[simp] theorem State.upPins_quays (f : Pins → Pins) : (s.upPins f).quays = s.quays := by rfl
@[simp] theorem State.upPins_quay (f : Pins → Pins) (x : Nat) : (s.upPins f).quay x = s.quay x := by rfl
@[simp] theorem State.upPins_cores (f : Pins → Pins) : (s.upPins f).cores = s.cores := by rfl
@[simp] theorem State.upPins_core (f : Pins → Pins) (x : Nat) : (s.upPins f).core x = s.core x := by rfl
@[simp] theorem State.upPins_cache (f : Pins → Pins) : (s.upPins f).cache = s.cache := by rfl
@[simp] theorem State.upPins_roster (f : Pins → Pins) : (s.upPins f).roster = s.roster := by rfl
@[simp] theorem State.upPins_engs (f : Pins → Pins) : (s.upPins f).engs = s.engs := by rfl
@[simp] theorem State.upPins_eng (f : Pins → Pins) (x : Nat) : (s.upPins f).eng x = s.eng x := by rfl
@[simp] theorem State.upPins_ports (f : Pins → Pins) : (s.upPins f).ports = s.ports := by rfl
@[simp] theorem State.upPins_port (f : Pins → Pins) (x : Nat) : (s.upPins f).port x = s.port x := by rfl
@[simp] theorem State.upPins_fault (f : Pins → Pins) : (s.upPins f).fault = s.fault := by rfl
@[simp] theorem State.upPins_pins (f : Pins → Pins) : (s.upPins f).pins = f s.pins := by rfl
@[simp] theorem State.upPins_power (f : Pins → Pins) : (s.upPins f).power = s.power := by rfl
@[simp] theorem State.upPins_ctl (f : Pins → Pins) : (s.upPins f).ctl = s.ctl := by rfl
@[simp] theorem State.upPins_boot (f : Pins → Pins) : (s.upPins f).boot = s.boot := by rfl
@[simp] theorem State.upPins_free (f : Pins → Pins) : (s.upPins f).free = s.free := by rfl
@[simp] theorem State.upPins_tc (f : Pins → Pins) : (s.upPins f).tc = s.tc := by rfl
@[simp] theorem State.upPins_tick (f : Pins → Pins) : (s.upPins f).tick = s.tick := by rfl
@[simp] theorem State.upPins_pending (f : Pins → Pins) : (s.upPins f).pending = s.pending := by rfl

/-! ## upPower -/

@[simp] theorem State.upPower_stepping (f : PowerX → PowerX) : (s.upPower f).stepping = s.stepping := by rfl
@[simp] theorem State.upPower_rf (f : PowerX → PowerX) : (s.upPower f).rf = s.rf := by rfl
@[simp] theorem State.upPower_rd (f : PowerX → PowerX) (g : Fld) (u' i' : Nat) : (s.upPower f).rd g u' i' = s.rd g u' i' := by rfl
@[simp] theorem State.upPower_mem (f : PowerX → PowerX) : (s.upPower f).mem = s.mem := by rfl
@[simp] theorem State.upPower_byte (f : PowerX → PowerX) (x : Nat) : (s.upPower f).byte x = s.byte x := by rfl
@[simp] theorem State.upPower_tiles (f : PowerX → PowerX) : (s.upPower f).tiles = s.tiles := by rfl
@[simp] theorem State.upPower_tile (f : PowerX → PowerX) (x : Nat) : (s.upPower f).tile x = s.tile x := by rfl
@[simp] theorem State.upPower_hub (f : PowerX → PowerX) : (s.upPower f).hub = s.hub := by rfl
@[simp] theorem State.upPower_quays (f : PowerX → PowerX) : (s.upPower f).quays = s.quays := by rfl
@[simp] theorem State.upPower_quay (f : PowerX → PowerX) (x : Nat) : (s.upPower f).quay x = s.quay x := by rfl
@[simp] theorem State.upPower_cores (f : PowerX → PowerX) : (s.upPower f).cores = s.cores := by rfl
@[simp] theorem State.upPower_core (f : PowerX → PowerX) (x : Nat) : (s.upPower f).core x = s.core x := by rfl
@[simp] theorem State.upPower_cache (f : PowerX → PowerX) : (s.upPower f).cache = s.cache := by rfl
@[simp] theorem State.upPower_roster (f : PowerX → PowerX) : (s.upPower f).roster = s.roster := by rfl
@[simp] theorem State.upPower_engs (f : PowerX → PowerX) : (s.upPower f).engs = s.engs := by rfl
@[simp] theorem State.upPower_eng (f : PowerX → PowerX) (x : Nat) : (s.upPower f).eng x = s.eng x := by rfl
@[simp] theorem State.upPower_ports (f : PowerX → PowerX) : (s.upPower f).ports = s.ports := by rfl
@[simp] theorem State.upPower_port (f : PowerX → PowerX) (x : Nat) : (s.upPower f).port x = s.port x := by rfl
@[simp] theorem State.upPower_fault (f : PowerX → PowerX) : (s.upPower f).fault = s.fault := by rfl
@[simp] theorem State.upPower_pins (f : PowerX → PowerX) : (s.upPower f).pins = s.pins := by rfl
@[simp] theorem State.upPower_power (f : PowerX → PowerX) : (s.upPower f).power = f s.power := by rfl
@[simp] theorem State.upPower_ctl (f : PowerX → PowerX) : (s.upPower f).ctl = s.ctl := by rfl
@[simp] theorem State.upPower_boot (f : PowerX → PowerX) : (s.upPower f).boot = s.boot := by rfl
@[simp] theorem State.upPower_free (f : PowerX → PowerX) : (s.upPower f).free = s.free := by rfl
@[simp] theorem State.upPower_tc (f : PowerX → PowerX) : (s.upPower f).tc = s.tc := by rfl
@[simp] theorem State.upPower_tick (f : PowerX → PowerX) : (s.upPower f).tick = s.tick := by rfl
@[simp] theorem State.upPower_pending (f : PowerX → PowerX) : (s.upPower f).pending = s.pending := by rfl

/-! ## upCtl -/

@[simp] theorem State.upCtl_stepping (f : CtlX → CtlX) : (s.upCtl f).stepping = s.stepping := by rfl
@[simp] theorem State.upCtl_rf (f : CtlX → CtlX) : (s.upCtl f).rf = s.rf := by rfl
@[simp] theorem State.upCtl_rd (f : CtlX → CtlX) (g : Fld) (u' i' : Nat) : (s.upCtl f).rd g u' i' = s.rd g u' i' := by rfl
@[simp] theorem State.upCtl_mem (f : CtlX → CtlX) : (s.upCtl f).mem = s.mem := by rfl
@[simp] theorem State.upCtl_byte (f : CtlX → CtlX) (x : Nat) : (s.upCtl f).byte x = s.byte x := by rfl
@[simp] theorem State.upCtl_tiles (f : CtlX → CtlX) : (s.upCtl f).tiles = s.tiles := by rfl
@[simp] theorem State.upCtl_tile (f : CtlX → CtlX) (x : Nat) : (s.upCtl f).tile x = s.tile x := by rfl
@[simp] theorem State.upCtl_hub (f : CtlX → CtlX) : (s.upCtl f).hub = s.hub := by rfl
@[simp] theorem State.upCtl_quays (f : CtlX → CtlX) : (s.upCtl f).quays = s.quays := by rfl
@[simp] theorem State.upCtl_quay (f : CtlX → CtlX) (x : Nat) : (s.upCtl f).quay x = s.quay x := by rfl
@[simp] theorem State.upCtl_cores (f : CtlX → CtlX) : (s.upCtl f).cores = s.cores := by rfl
@[simp] theorem State.upCtl_core (f : CtlX → CtlX) (x : Nat) : (s.upCtl f).core x = s.core x := by rfl
@[simp] theorem State.upCtl_cache (f : CtlX → CtlX) : (s.upCtl f).cache = s.cache := by rfl
@[simp] theorem State.upCtl_roster (f : CtlX → CtlX) : (s.upCtl f).roster = s.roster := by rfl
@[simp] theorem State.upCtl_engs (f : CtlX → CtlX) : (s.upCtl f).engs = s.engs := by rfl
@[simp] theorem State.upCtl_eng (f : CtlX → CtlX) (x : Nat) : (s.upCtl f).eng x = s.eng x := by rfl
@[simp] theorem State.upCtl_ports (f : CtlX → CtlX) : (s.upCtl f).ports = s.ports := by rfl
@[simp] theorem State.upCtl_port (f : CtlX → CtlX) (x : Nat) : (s.upCtl f).port x = s.port x := by rfl
@[simp] theorem State.upCtl_fault (f : CtlX → CtlX) : (s.upCtl f).fault = s.fault := by rfl
@[simp] theorem State.upCtl_pins (f : CtlX → CtlX) : (s.upCtl f).pins = s.pins := by rfl
@[simp] theorem State.upCtl_power (f : CtlX → CtlX) : (s.upCtl f).power = s.power := by rfl
@[simp] theorem State.upCtl_ctl (f : CtlX → CtlX) : (s.upCtl f).ctl = f s.ctl := by rfl
@[simp] theorem State.upCtl_boot (f : CtlX → CtlX) : (s.upCtl f).boot = s.boot := by rfl
@[simp] theorem State.upCtl_free (f : CtlX → CtlX) : (s.upCtl f).free = s.free := by rfl
@[simp] theorem State.upCtl_tc (f : CtlX → CtlX) : (s.upCtl f).tc = s.tc := by rfl
@[simp] theorem State.upCtl_tick (f : CtlX → CtlX) : (s.upCtl f).tick = s.tick := by rfl
@[simp] theorem State.upCtl_pending (f : CtlX → CtlX) : (s.upCtl f).pending = s.pending := by rfl

/-! ## upBoot -/

@[simp] theorem State.upBoot_stepping (f : BootX → BootX) : (s.upBoot f).stepping = s.stepping := by rfl
@[simp] theorem State.upBoot_rf (f : BootX → BootX) : (s.upBoot f).rf = s.rf := by rfl
@[simp] theorem State.upBoot_rd (f : BootX → BootX) (g : Fld) (u' i' : Nat) : (s.upBoot f).rd g u' i' = s.rd g u' i' := by rfl
@[simp] theorem State.upBoot_mem (f : BootX → BootX) : (s.upBoot f).mem = s.mem := by rfl
@[simp] theorem State.upBoot_byte (f : BootX → BootX) (x : Nat) : (s.upBoot f).byte x = s.byte x := by rfl
@[simp] theorem State.upBoot_tiles (f : BootX → BootX) : (s.upBoot f).tiles = s.tiles := by rfl
@[simp] theorem State.upBoot_tile (f : BootX → BootX) (x : Nat) : (s.upBoot f).tile x = s.tile x := by rfl
@[simp] theorem State.upBoot_hub (f : BootX → BootX) : (s.upBoot f).hub = s.hub := by rfl
@[simp] theorem State.upBoot_quays (f : BootX → BootX) : (s.upBoot f).quays = s.quays := by rfl
@[simp] theorem State.upBoot_quay (f : BootX → BootX) (x : Nat) : (s.upBoot f).quay x = s.quay x := by rfl
@[simp] theorem State.upBoot_cores (f : BootX → BootX) : (s.upBoot f).cores = s.cores := by rfl
@[simp] theorem State.upBoot_core (f : BootX → BootX) (x : Nat) : (s.upBoot f).core x = s.core x := by rfl
@[simp] theorem State.upBoot_cache (f : BootX → BootX) : (s.upBoot f).cache = s.cache := by rfl
@[simp] theorem State.upBoot_roster (f : BootX → BootX) : (s.upBoot f).roster = s.roster := by rfl
@[simp] theorem State.upBoot_engs (f : BootX → BootX) : (s.upBoot f).engs = s.engs := by rfl
@[simp] theorem State.upBoot_eng (f : BootX → BootX) (x : Nat) : (s.upBoot f).eng x = s.eng x := by rfl
@[simp] theorem State.upBoot_ports (f : BootX → BootX) : (s.upBoot f).ports = s.ports := by rfl
@[simp] theorem State.upBoot_port (f : BootX → BootX) (x : Nat) : (s.upBoot f).port x = s.port x := by rfl
@[simp] theorem State.upBoot_fault (f : BootX → BootX) : (s.upBoot f).fault = s.fault := by rfl
@[simp] theorem State.upBoot_pins (f : BootX → BootX) : (s.upBoot f).pins = s.pins := by rfl
@[simp] theorem State.upBoot_power (f : BootX → BootX) : (s.upBoot f).power = s.power := by rfl
@[simp] theorem State.upBoot_ctl (f : BootX → BootX) : (s.upBoot f).ctl = s.ctl := by rfl
@[simp] theorem State.upBoot_boot (f : BootX → BootX) : (s.upBoot f).boot = f s.boot := by rfl
@[simp] theorem State.upBoot_free (f : BootX → BootX) : (s.upBoot f).free = s.free := by rfl
@[simp] theorem State.upBoot_tc (f : BootX → BootX) : (s.upBoot f).tc = s.tc := by rfl
@[simp] theorem State.upBoot_tick (f : BootX → BootX) : (s.upBoot f).tick = s.tick := by rfl
@[simp] theorem State.upBoot_pending (f : BootX → BootX) : (s.upBoot f).pending = s.pending := by rfl

/-! ## upRos -/

@[simp] theorem State.upRos_stepping (f : Roster → Roster) : (s.upRos f).stepping = s.stepping := by rfl
@[simp] theorem State.upRos_rf (f : Roster → Roster) : (s.upRos f).rf = s.rf := by rfl
@[simp] theorem State.upRos_rd (f : Roster → Roster) (g : Fld) (u' i' : Nat) : (s.upRos f).rd g u' i' = s.rd g u' i' := by rfl
@[simp] theorem State.upRos_mem (f : Roster → Roster) : (s.upRos f).mem = s.mem := by rfl
@[simp] theorem State.upRos_byte (f : Roster → Roster) (x : Nat) : (s.upRos f).byte x = s.byte x := by rfl
@[simp] theorem State.upRos_tiles (f : Roster → Roster) : (s.upRos f).tiles = s.tiles := by rfl
@[simp] theorem State.upRos_tile (f : Roster → Roster) (x : Nat) : (s.upRos f).tile x = s.tile x := by rfl
@[simp] theorem State.upRos_hub (f : Roster → Roster) : (s.upRos f).hub = s.hub := by rfl
@[simp] theorem State.upRos_quays (f : Roster → Roster) : (s.upRos f).quays = s.quays := by rfl
@[simp] theorem State.upRos_quay (f : Roster → Roster) (x : Nat) : (s.upRos f).quay x = s.quay x := by rfl
@[simp] theorem State.upRos_cores (f : Roster → Roster) : (s.upRos f).cores = s.cores := by rfl
@[simp] theorem State.upRos_core (f : Roster → Roster) (x : Nat) : (s.upRos f).core x = s.core x := by rfl
@[simp] theorem State.upRos_cache (f : Roster → Roster) : (s.upRos f).cache = s.cache := by rfl
@[simp] theorem State.upRos_roster (f : Roster → Roster) : (s.upRos f).roster = f s.roster := by rfl
@[simp] theorem State.upRos_engs (f : Roster → Roster) : (s.upRos f).engs = s.engs := by rfl
@[simp] theorem State.upRos_eng (f : Roster → Roster) (x : Nat) : (s.upRos f).eng x = s.eng x := by rfl
@[simp] theorem State.upRos_ports (f : Roster → Roster) : (s.upRos f).ports = s.ports := by rfl
@[simp] theorem State.upRos_port (f : Roster → Roster) (x : Nat) : (s.upRos f).port x = s.port x := by rfl
@[simp] theorem State.upRos_fault (f : Roster → Roster) : (s.upRos f).fault = s.fault := by rfl
@[simp] theorem State.upRos_pins (f : Roster → Roster) : (s.upRos f).pins = s.pins := by rfl
@[simp] theorem State.upRos_power (f : Roster → Roster) : (s.upRos f).power = s.power := by rfl
@[simp] theorem State.upRos_ctl (f : Roster → Roster) : (s.upRos f).ctl = s.ctl := by rfl
@[simp] theorem State.upRos_boot (f : Roster → Roster) : (s.upRos f).boot = s.boot := by rfl
@[simp] theorem State.upRos_free (f : Roster → Roster) : (s.upRos f).free = s.free := by rfl
@[simp] theorem State.upRos_tc (f : Roster → Roster) : (s.upRos f).tc = s.tc := by rfl
@[simp] theorem State.upRos_tick (f : Roster → Roster) : (s.upRos f).tick = s.tick := by rfl
@[simp] theorem State.upRos_pending (f : Roster → Roster) : (s.upRos f).pending = s.pending := by rfl

/-! ## drawn -/

@[simp] theorem State.drawn_stepping : (s.drawn).stepping = s.stepping := by rfl
@[simp] theorem State.drawn_rf : (s.drawn).rf = s.rf := by rfl
@[simp] theorem State.drawn_rd (g : Fld) (u' i' : Nat) : (s.drawn).rd g u' i' = s.rd g u' i' := by rfl
@[simp] theorem State.drawn_mem : (s.drawn).mem = s.mem := by rfl
@[simp] theorem State.drawn_byte (x : Nat) : (s.drawn).byte x = s.byte x := by rfl
@[simp] theorem State.drawn_tiles : (s.drawn).tiles = s.tiles := by rfl
@[simp] theorem State.drawn_tile (x : Nat) : (s.drawn).tile x = s.tile x := by rfl
@[simp] theorem State.drawn_hub : (s.drawn).hub = s.hub := by rfl
@[simp] theorem State.drawn_quays : (s.drawn).quays = s.quays := by rfl
@[simp] theorem State.drawn_quay (x : Nat) : (s.drawn).quay x = s.quay x := by rfl
@[simp] theorem State.drawn_cores : (s.drawn).cores = s.cores := by rfl
@[simp] theorem State.drawn_core (x : Nat) : (s.drawn).core x = s.core x := by rfl
@[simp] theorem State.drawn_cache : (s.drawn).cache = s.cache := by rfl
@[simp] theorem State.drawn_roster : (s.drawn).roster = s.roster := by rfl
@[simp] theorem State.drawn_engs : (s.drawn).engs = s.engs := by rfl
@[simp] theorem State.drawn_eng (x : Nat) : (s.drawn).eng x = s.eng x := by rfl
@[simp] theorem State.drawn_ports : (s.drawn).ports = s.ports := by rfl
@[simp] theorem State.drawn_port (x : Nat) : (s.drawn).port x = s.port x := by rfl
@[simp] theorem State.drawn_fault : (s.drawn).fault = s.fault := by rfl
@[simp] theorem State.drawn_pins : (s.drawn).pins = s.pins := by rfl
@[simp] theorem State.drawn_power : (s.drawn).power = s.power := by rfl
@[simp] theorem State.drawn_ctl : (s.drawn).ctl = s.ctl := by rfl
@[simp] theorem State.drawn_boot : (s.drawn).boot = s.boot := by rfl
@[simp] theorem State.drawn_free : (s.drawn).free = s.free + 1 := by rfl
@[simp] theorem State.drawn_tc : (s.drawn).tc = s.tc := by rfl
@[simp] theorem State.drawn_tick : (s.drawn).tick = s.tick := by rfl
@[simp] theorem State.drawn_pending : (s.drawn).pending = s.pending := by rfl

/-! ## choices -/

@[simp] theorem State.ite_stepping (c : Prop) {hc : Decidable c} (a b : State) : (if c then a else b).stepping = if c then a.stepping else b.stepping := by split <;> rfl
@[simp] theorem State.ite_rf (c : Prop) {hc : Decidable c} (a b : State) : (if c then a else b).rf = if c then a.rf else b.rf := by split <;> rfl
@[simp] theorem State.ite_rd (c : Prop) {hc : Decidable c} (a b : State) (g : Fld) (u' i' : Nat) : (if c then a else b).rd g u' i' = if c then a.rd g u' i' else b.rd g u' i' := by split <;> rfl
@[simp] theorem State.ite_mem (c : Prop) {hc : Decidable c} (a b : State) : (if c then a else b).mem = if c then a.mem else b.mem := by split <;> rfl
@[simp] theorem State.ite_byte (c : Prop) {hc : Decidable c} (a b : State) (x : Nat) : (if c then a else b).byte x = if c then a.byte x else b.byte x := by split <;> rfl
@[simp] theorem State.ite_tiles (c : Prop) {hc : Decidable c} (a b : State) : (if c then a else b).tiles = if c then a.tiles else b.tiles := by split <;> rfl
@[simp] theorem State.ite_tile (c : Prop) {hc : Decidable c} (a b : State) (x : Nat) : (if c then a else b).tile x = if c then a.tile x else b.tile x := by split <;> rfl
@[simp] theorem State.ite_hub (c : Prop) {hc : Decidable c} (a b : State) : (if c then a else b).hub = if c then a.hub else b.hub := by split <;> rfl
@[simp] theorem State.ite_quays (c : Prop) {hc : Decidable c} (a b : State) : (if c then a else b).quays = if c then a.quays else b.quays := by split <;> rfl
@[simp] theorem State.ite_quay (c : Prop) {hc : Decidable c} (a b : State) (x : Nat) : (if c then a else b).quay x = if c then a.quay x else b.quay x := by split <;> rfl
@[simp] theorem State.ite_cores (c : Prop) {hc : Decidable c} (a b : State) : (if c then a else b).cores = if c then a.cores else b.cores := by split <;> rfl
@[simp] theorem State.ite_core (c : Prop) {hc : Decidable c} (a b : State) (x : Nat) : (if c then a else b).core x = if c then a.core x else b.core x := by split <;> rfl
@[simp] theorem State.ite_cache (c : Prop) {hc : Decidable c} (a b : State) : (if c then a else b).cache = if c then a.cache else b.cache := by split <;> rfl
@[simp] theorem State.ite_roster (c : Prop) {hc : Decidable c} (a b : State) : (if c then a else b).roster = if c then a.roster else b.roster := by split <;> rfl
@[simp] theorem State.ite_engs (c : Prop) {hc : Decidable c} (a b : State) : (if c then a else b).engs = if c then a.engs else b.engs := by split <;> rfl
@[simp] theorem State.ite_eng (c : Prop) {hc : Decidable c} (a b : State) (x : Nat) : (if c then a else b).eng x = if c then a.eng x else b.eng x := by split <;> rfl
@[simp] theorem State.ite_ports (c : Prop) {hc : Decidable c} (a b : State) : (if c then a else b).ports = if c then a.ports else b.ports := by split <;> rfl
@[simp] theorem State.ite_port (c : Prop) {hc : Decidable c} (a b : State) (x : Nat) : (if c then a else b).port x = if c then a.port x else b.port x := by split <;> rfl
@[simp] theorem State.ite_fault (c : Prop) {hc : Decidable c} (a b : State) : (if c then a else b).fault = if c then a.fault else b.fault := by split <;> rfl
@[simp] theorem State.ite_pins (c : Prop) {hc : Decidable c} (a b : State) : (if c then a else b).pins = if c then a.pins else b.pins := by split <;> rfl
@[simp] theorem State.ite_power (c : Prop) {hc : Decidable c} (a b : State) : (if c then a else b).power = if c then a.power else b.power := by split <;> rfl
@[simp] theorem State.ite_ctl (c : Prop) {hc : Decidable c} (a b : State) : (if c then a else b).ctl = if c then a.ctl else b.ctl := by split <;> rfl
@[simp] theorem State.ite_boot (c : Prop) {hc : Decidable c} (a b : State) : (if c then a else b).boot = if c then a.boot else b.boot := by split <;> rfl
@[simp] theorem State.ite_free (c : Prop) {hc : Decidable c} (a b : State) : (if c then a else b).free = if c then a.free else b.free := by split <;> rfl
@[simp] theorem State.ite_tc (c : Prop) {hc : Decidable c} (a b : State) : (if c then a else b).tc = if c then a.tc else b.tc := by split <;> rfl
@[simp] theorem State.ite_tick (c : Prop) {hc : Decidable c} (a b : State) : (if c then a else b).tick = if c then a.tick else b.tick := by split <;> rfl
@[simp] theorem State.ite_pending (c : Prop) {hc : Decidable c} (a b : State) : (if c then a else b).pending = if c then a.pending else b.pending := by split <;> rfl

end Sys2Proof.Machine
end

