-- ==== Sys2Proof/Laws/Ops.lean ====
section
/-! SUPPORT. What the elementary operations on the sparse maps do: read after write, the bytes and fields left alone,
and that the canonical form is kept. -/

namespace Sys2Proof.Machine

/-! ## Sparse maps -/

section maps
variable {α : Type} (d : α)

@[simp] theorem aget_nil (x : Nat) : aget d [] x = d := rfl

theorem aget_append_left (m l : List (Nat × α)) (x : Nat) (h : ∀ e ∈ m, e.1 ≠ x) : aget d (m ++ l) x = aget d l x := by
  induction m with
  | nil => rfl
  | cons e r ih =>
    have he : x ≠ e.1 := fun he => h e (by simp) he.symm
    simp only [List.cons_append, aget, if_neg he]
    exact ih fun y hy => h y (by simp [hy])

/-- A filter on keys keeps what it keeps and reads the default elsewhere. -/
theorem aget_filter (p : Nat → Bool) (m : List (Nat × α)) (x : Nat) :
    aget d (m.filter fun e => p e.1) x = if p x then aget d m x else d := by
  induction m with
  | nil => simp [aget]
  | cons e r ih =>
    by_cases hx : x = e.1
    · subst hx
      by_cases hp : p e.1 <;> simp [aget, hp, ih]
    · by_cases hp : p e.1 <;> simp [aget, hp, ih, hx]

theorem aget_append_filter (p : Nat → Bool) (m l : List (Nat × α)) (x : Nat) (hp : p x = true) (hl : ∀ e ∈ l, e.1 ≠ x) :
    aget d ((m.filter fun e => p e.1) ++ l) x = aget d m x := by
  induction m with
  | nil => simpa [aget] using aget_append_left d l [] x hl
  | cons e r ih =>
    by_cases hx : x = e.1
    · subst hx
      simp [aget, hp]
    · by_cases he : p e.1 <;> simp [aget, he, ih, hx]

variable [DecidableEq α]

/-- Read after write of a sparse map. -/
@[simp] theorem aget_aput (m : List (Nat × α)) (x : Nat) (v : α) (y : Nat) :
    aget d (aput d m x v) y = if y = x then v else aget d m y := by
  unfold aput
  rcases Nat.lt_trichotomy y x with h | h | h
  · rw [List.append_assoc, aget_append_filter d (fun k => decide (k < x)) m _ y (by simpa using h)]
    · simp [Nat.ne_of_lt h]
    · intro e he
      simp only [List.mem_append, List.mem_filter, decide_eq_true_eq] at he
      rcases he with he | he
      · split at he <;> simp at he; subst he; simp; omega
      · omega
  · subst h
    rw [List.append_assoc, aget_append_left]
    · by_cases hv : v = d
      · simp [hv, aget_filter d (fun k => decide (y < k))]
      · simp [hv, aget]
    · intro e he
      simp only [List.mem_filter, decide_eq_true_eq] at he
      omega
  · rw [aget_append_left, aget_filter d (fun k => decide (x < k))]
    · simp [h, Nat.ne_of_gt h]
    · intro e he
      simp only [List.mem_append, List.mem_filter, decide_eq_true_eq] at he
      rcases he with he | he
      · omega
      · split at he <;> simp at he; subst he; simp; omega

theorem awfFrom_mono (m : List (Nat × α)) {a b : Nat} (hab : a ≤ b) (h : awfFrom d b m = true) : awfFrom d a m = true := by
  cases m with
  | nil => rfl
  | cons e r =>
    simp only [awfFrom, Bool.and_eq_true, decide_eq_true_eq] at h ⊢
    exact ⟨⟨by omega, h.1.2⟩, h.2⟩

/-- A filter keeps the canonical form. -/
theorem awfFrom_filter (p : Nat × α → Bool) (m : List (Nat × α)) (b : Nat) (h : awfFrom d b m = true) :
    awfFrom d b (m.filter p) = true := by
  induction m generalizing b with
  | nil => exact h
  | cons e r ih =>
    simp only [awfFrom, Bool.and_eq_true, decide_eq_true_eq] at h
    by_cases hp : p e
    · simp only [List.filter_cons, hp, if_true, awfFrom, Bool.and_eq_true, decide_eq_true_eq]
      exact ⟨h.1, ih _ h.2⟩
    · simp only [List.filter_cons, hp]
      exact awfFrom_mono d _ (by omega) (ih _ h.2)

/-- Keys of a canonical map lie above its bound. -/
theorem awfFrom_lower (m : List (Nat × α)) (b : Nat) (h : awfFrom d b m = true) : ∀ e ∈ m, b ≤ e.1 := by
  induction m generalizing b with
  | nil => simp
  | cons e r ih =>
    simp only [awfFrom, Bool.and_eq_true, decide_eq_true_eq] at h
    intro y hy
    rcases List.mem_cons.mp hy with rfl | hy
    · exact h.1.1
    · have := ih _ h.2 y hy
      omega

/-- Canonical pieces in order join to a canonical map. -/
theorem awfFrom_append (m l : List (Nat × α)) (b c : Nat) (hm : awfFrom d b m = true) (hl : awfFrom d c l = true)
    (hbc : b ≤ c) (h : ∀ e ∈ m, e.1 < c) : awfFrom d b (m ++ l) = true := by
  induction m generalizing b with
  | nil => exact awfFrom_mono d l hbc hl
  | cons e r ih =>
    simp only [awfFrom, Bool.and_eq_true, decide_eq_true_eq] at hm
    simp only [List.cons_append, awfFrom, Bool.and_eq_true, decide_eq_true_eq]
    exact ⟨hm.1, ih _ hm.2 (h e (by simp)) fun y hy => h y (by simp [hy])⟩

/-- A canonical map whose keys all lie above a bound is canonical from it. -/
theorem awfFrom_raise (m : List (Nat × α)) (b c : Nat) (hm : awfFrom d b m = true) (h : ∀ e ∈ m, c ≤ e.1) :
    awfFrom d c m = true := by
  cases m with
  | nil => rfl
  | cons e r =>
    simp only [awfFrom, Bool.and_eq_true, decide_eq_true_eq] at hm ⊢
    exact ⟨⟨h e (by simp), hm.1.2⟩, hm.2⟩

/-- A write keeps the canonical form. -/
theorem awf_aput (m : List (Nat × α)) (x : Nat) (v : α) (h : awf d m = true) : awf d (aput d m x v) = true := by
  unfold awf at *
  unfold aput
  rw [List.append_assoc]
  refine awfFrom_append d _ _ 0 x (awfFrom_filter d _ _ _ h) ?_ (by omega) ?_
  · by_cases hv : v = d
    · simp only [hv, if_true, List.nil_append]
      refine awfFrom_raise d _ 0 x (awfFrom_filter d _ _ _ h) ?_
      intro e he
      simp only [List.mem_filter, decide_eq_true_eq] at he
      omega
    · simp only [hv, if_false, List.cons_append, List.nil_append, awfFrom, Bool.and_eq_true, decide_eq_true_eq]
      refine ⟨⟨by omega, hv⟩, awfFrom_raise d _ 0 (x + 1) (awfFrom_filter d _ _ _ h) ?_⟩
      intro e he
      simp only [List.mem_filter, decide_eq_true_eq] at he
      omega
  · intro e he
    simp only [List.mem_filter, decide_eq_true_eq] at he
    omega

/-- Clearing entries keeps the canonical form. -/
theorem awf_filter (p : Nat × α → Bool) (m : List (Nat × α)) (h : awf d m = true) : awf d (m.filter p) = true :=
  awfFrom_filter d p m 0 h

end maps

/-! ## Register fields -/

/-- A field reads back what is written to any field at its key. -/
theorem State.rd_wr (s : State) (f g : Fld) (v u i u' i' : Nat) :
    (s.wr f v u i).rd g u' i'
      = if g.key u' i' = f.key u i then (((v % 2 ^ f.width) ^^^ f.rst) ^^^ g.rst) % 2 ^ g.width else s.rd g u' i' := by
  unfold State.rd State.wr
  simp only [aget_aput]
  split <;> rfl

/-- A field reads back what is written to it, as wide as it is. -/
@[simp] theorem State.rd_wr_self (s : State) (f : Fld) (v u i : Nat) : (s.wr f v u i).rd f u i = v % 2 ^ f.width := by
  rw [State.rd_wr, if_pos rfl, Nat.xor_assoc, Nat.xor_self, Nat.xor_zero, Nat.mod_mod]

/-- A write leaves every field at another key alone. -/
theorem State.rd_wr_ne (s : State) (f g : Fld) (v u i u' i' : Nat) (h : g.key u' i' ≠ f.key u i) :
    (s.wr f v u i).rd g u' i' = s.rd g u' i' := by
  rw [State.rd_wr, if_neg h]

/-- A field is as wide as it is. -/
theorem State.rd_lt (s : State) (f : Fld) (u i : Nat) : s.rd f u i < 2 ^ f.width :=
  Nat.mod_lt _ (Nat.two_pow_pos _)

/-- A write's effect on the map's keys. -/
theorem State.aget_wr (s : State) (f : Fld) (v u i k : Nat) :
    aget 0 (s.wr f v u i).rf k = if k = f.key u i then (v % 2 ^ f.width) ^^^ f.rst else aget 0 s.rf k := by
  unfold State.wr
  simp only [aget_aput]

/-! ## Memory -/

/-- Read after write of one byte. -/
@[simp] theorem State.byte_setByte (s : State) (a : Nat) (b : Byte) (x : Nat) :
    (s.setByte a b).byte x = if x = a then b else s.byte x := by
  unfold State.byte State.setByte
  simp only [aget_aput]

/-- A write of bytes leaves every address outside them alone, and each byte of them lands in its place. -/
theorem State.byte_setBytes (s : State) (l : List Byte) (a x : Nat) :
    (s.setBytes a l).byte x = if h : a ≤ x ∧ x < a + l.length then l[x - a]'(by omega) else s.byte x := by
  induction l generalizing s a with
  | nil =>
    have : ¬ (a ≤ x ∧ x < a + ([] : List Byte).length) := by simp
    rw [dif_neg this]; rfl
  | cons b r ih =>
    rw [State.setBytes, ih]
    by_cases h1 : a + 1 ≤ x ∧ x < a + 1 + r.length
    · have h2 : a ≤ x ∧ x < a + (b :: r).length := by simp; omega
      rw [dif_pos h1, dif_pos h2]
      have : x - a = (x - (a + 1)) + 1 := by omega
      simp [this]
    · rw [dif_neg h1, State.byte_setByte]
      by_cases h2 : x = a
      · subst h2; simp
      · have h3 : ¬ (a ≤ x ∧ x < a + (b :: r).length) := by simp; omega
        rw [dif_neg h3, if_neg h2]

/-- A write of bytes changes nothing but memory. -/
theorem State.setBytes_eq (s : State) (l : List Byte) (a : Nat) :
    s.setBytes a l = { s with mem := (s.setBytes a l).mem } := by
  induction l generalizing s a with
  | nil => rfl
  | cons b r ih => rw [State.setBytes, ih]; rfl

/-! ## The state as a whole -/

/-- Two states agree when every field does. -/
theorem State.ext_iff {a b : State} : a = b ↔ a.stepping = b.stepping ∧ a.rf = b.rf ∧ a.mem = b.mem ∧ a.tiles = b.tiles ∧
    a.hub = b.hub ∧ a.quays = b.quays ∧ a.cores = b.cores ∧ a.cache = b.cache ∧ a.roster = b.roster ∧ a.engs = b.engs ∧
    a.ports = b.ports ∧ a.fault = b.fault ∧ a.pins = b.pins ∧ a.power = b.power ∧ a.ctl = b.ctl ∧ a.boot = b.boot ∧
    a.free = b.free ∧ a.tc = b.tc ∧ a.tick = b.tick ∧ a.pending = b.pending := by
  cases a; cases b; simp only [State.mk.injEq]

/-- A fold keeps a relation that each of its operations keeps. -/
theorem foldl_rel {β : Type} (R : State → State → Prop) (hr : ∀ a, R a a) (ht : ∀ a b c, R a b → R b c → R a c)
    (f : State → β → State) (h : ∀ s b, R s (f s b)) (l : List β) (s : State) : R s (l.foldl f s) := by
  induction l generalizing s with
  | nil => exact hr s
  | cons b r ih => exact ht _ _ _ (h s b) (ih _)

/-- A fold of operations on registers alone changes nothing else. -/
theorem foldl_rf {β : Type} (f : State → β → State) (h : ∀ s b, ∃ x, f s b = { s with rf := x }) (l : List β) (s : State) :
    ∃ x, l.foldl f s = { s with rf := x } := by
  induction l generalizing s with
  | nil => exact ⟨_, rfl⟩
  | cons b r ih =>
    obtain ⟨x, hx⟩ := h s b
    obtain ⟨y, hy⟩ := ih (f s b)
    exact ⟨y, by rw [List.foldl_cons, hy, hx]⟩

/-! ## Units -/

@[simp] theorem State.tile_upTile (s : State) (t x : Nat) (f : TileX → TileX) :
    (s.upTile t f).tile x = if x = t then f (s.tile t) else s.tile x := by
  unfold State.tile State.upTile; simp only [aget_aput]; rfl
@[simp] theorem State.quay_upQuay (s : State) (t x : Nat) (f : QuayX → QuayX) :
    (s.upQuay t f).quay x = if x = t then f (s.quay t) else s.quay x := by
  unfold State.quay State.upQuay; simp only [aget_aput]; rfl
@[simp] theorem State.core_upCore (s : State) (t x : Nat) (f : CoreX → CoreX) :
    (s.upCore t f).core x = if x = t then f (s.core t) else s.core x := by
  unfold State.core State.upCore; simp only [aget_aput]; rfl
@[simp] theorem State.eng_upEng (s : State) (t x : Nat) (f : EngX → EngX) :
    (s.upEng t f).eng x = if x = t then f (s.eng t) else s.eng x := by
  unfold State.eng State.upEng; simp only [aget_aput]; rfl
@[simp] theorem State.port_upPort (s : State) (t x : Nat) (f : PortX → PortX) :
    (s.upPort t f).port x = if x = t then f (s.port t) else s.port x := by
  unfold State.port State.upPort; simp only [aget_aput]; rfl

/-! ## The canonical form -/

theorem Memory.wf_setByte (s : State) (a : Nat) (b : Byte) (h : Memory.wf s = true) : Memory.wf (s.setByte a b) = true :=
  awf_aput _ _ _ _ h

theorem Memory.wf_setBytes (s : State) (l : List Byte) (a : Nat) (h : Memory.wf s = true) :
    Memory.wf (s.setBytes a l) = true := by
  induction l generalizing s a with
  | nil => exact h
  | cons b r ih => exact ih _ _ (Memory.wf_setByte s a b h)

theorem Memory.wf_stn (s : State) (a n v : Nat) (h : Memory.wf s = true) : Memory.wf (s.stn a n v) = true :=
  Memory.wf_setBytes s _ a h

theorem Memory.wf_dropMem (s : State) (p : Nat → Bool) (h : Memory.wf s = true) : Memory.wf (s.dropMem p) = true :=
  awf_filter _ _ _ h

theorem Regs.wf_wr (s : State) (f : Fld) (v u i : Nat) (h : Regs.wf s = true) : Regs.wf (s.wr f v u i) = true :=
  awf_aput _ _ _ _ h

theorem Regs.wf_dropRf (s : State) (p : Nat → Bool) (h : Regs.wf s = true) : Regs.wf (s.dropRf p) = true :=
  awf_filter _ _ _ h

end Sys2Proof.Machine
end

