-- ==== Sys2Proof/Laws/Frames.lean ====
section
/-! SUPPORT. What each shared operation leaves alone, said once: its frame, and one lemma per field it does not touch. -/

namespace Sys2Proof.Machine

variable (s : State)

/-- inc changes nothing but rf. -/
theorem State.inc_frame (f : Fld) (n u i : Nat) : ∃ x0, s.inc f n u i = { s with rf := x0 } := by
  exact ⟨_, rfl⟩
@[simp] theorem State.inc_stepping (f : Fld) (n u i : Nat) : (s.inc f n u i).stepping = s.stepping := by
  obtain ⟨_, h⟩ := State.inc_frame s f n u i; rw [h]
@[simp] theorem State.inc_mem (f : Fld) (n u i : Nat) : (s.inc f n u i).mem = s.mem := by
  obtain ⟨_, h⟩ := State.inc_frame s f n u i; rw [h]
@[simp] theorem State.inc_byte (f : Fld) (n u i : Nat) (x : Nat) : (s.inc f n u i).byte x = s.byte x := by
  obtain ⟨_, h⟩ := State.inc_frame s f n u i; rw [h]; rfl
@[simp] theorem State.inc_tiles (f : Fld) (n u i : Nat) : (s.inc f n u i).tiles = s.tiles := by
  obtain ⟨_, h⟩ := State.inc_frame s f n u i; rw [h]
@[simp] theorem State.inc_tile (f : Fld) (n u i : Nat) (x : Nat) : (s.inc f n u i).tile x = s.tile x := by
  obtain ⟨_, h⟩ := State.inc_frame s f n u i; rw [h]; rfl
@[simp] theorem State.inc_hub (f : Fld) (n u i : Nat) : (s.inc f n u i).hub = s.hub := by
  obtain ⟨_, h⟩ := State.inc_frame s f n u i; rw [h]
@[simp] theorem State.inc_quays (f : Fld) (n u i : Nat) : (s.inc f n u i).quays = s.quays := by
  obtain ⟨_, h⟩ := State.inc_frame s f n u i; rw [h]
@[simp] theorem State.inc_quay (f : Fld) (n u i : Nat) (x : Nat) : (s.inc f n u i).quay x = s.quay x := by
  obtain ⟨_, h⟩ := State.inc_frame s f n u i; rw [h]; rfl
@[simp] theorem State.inc_cores (f : Fld) (n u i : Nat) : (s.inc f n u i).cores = s.cores := by
  obtain ⟨_, h⟩ := State.inc_frame s f n u i; rw [h]
@[simp] theorem State.inc_core (f : Fld) (n u i : Nat) (x : Nat) : (s.inc f n u i).core x = s.core x := by
  obtain ⟨_, h⟩ := State.inc_frame s f n u i; rw [h]; rfl
@[simp] theorem State.inc_cache (f : Fld) (n u i : Nat) : (s.inc f n u i).cache = s.cache := by
  obtain ⟨_, h⟩ := State.inc_frame s f n u i; rw [h]
@[simp] theorem State.inc_roster (f : Fld) (n u i : Nat) : (s.inc f n u i).roster = s.roster := by
  obtain ⟨_, h⟩ := State.inc_frame s f n u i; rw [h]
@[simp] theorem State.inc_engs (f : Fld) (n u i : Nat) : (s.inc f n u i).engs = s.engs := by
  obtain ⟨_, h⟩ := State.inc_frame s f n u i; rw [h]
@[simp] theorem State.inc_eng (f : Fld) (n u i : Nat) (x : Nat) : (s.inc f n u i).eng x = s.eng x := by
  obtain ⟨_, h⟩ := State.inc_frame s f n u i; rw [h]; rfl
@[simp] theorem State.inc_ports (f : Fld) (n u i : Nat) : (s.inc f n u i).ports = s.ports := by
  obtain ⟨_, h⟩ := State.inc_frame s f n u i; rw [h]
@[simp] theorem State.inc_port (f : Fld) (n u i : Nat) (x : Nat) : (s.inc f n u i).port x = s.port x := by
  obtain ⟨_, h⟩ := State.inc_frame s f n u i; rw [h]; rfl
@[simp] theorem State.inc_fault (f : Fld) (n u i : Nat) : (s.inc f n u i).fault = s.fault := by
  obtain ⟨_, h⟩ := State.inc_frame s f n u i; rw [h]
@[simp] theorem State.inc_pins (f : Fld) (n u i : Nat) : (s.inc f n u i).pins = s.pins := by
  obtain ⟨_, h⟩ := State.inc_frame s f n u i; rw [h]
@[simp] theorem State.inc_power (f : Fld) (n u i : Nat) : (s.inc f n u i).power = s.power := by
  obtain ⟨_, h⟩ := State.inc_frame s f n u i; rw [h]
@[simp] theorem State.inc_ctl (f : Fld) (n u i : Nat) : (s.inc f n u i).ctl = s.ctl := by
  obtain ⟨_, h⟩ := State.inc_frame s f n u i; rw [h]
@[simp] theorem State.inc_boot (f : Fld) (n u i : Nat) : (s.inc f n u i).boot = s.boot := by
  obtain ⟨_, h⟩ := State.inc_frame s f n u i; rw [h]
@[simp] theorem State.inc_free (f : Fld) (n u i : Nat) : (s.inc f n u i).free = s.free := by
  obtain ⟨_, h⟩ := State.inc_frame s f n u i; rw [h]
@[simp] theorem State.inc_tc (f : Fld) (n u i : Nat) : (s.inc f n u i).tc = s.tc := by
  obtain ⟨_, h⟩ := State.inc_frame s f n u i; rw [h]
@[simp] theorem State.inc_tick (f : Fld) (n u i : Nat) : (s.inc f n u i).tick = s.tick := by
  obtain ⟨_, h⟩ := State.inc_frame s f n u i; rw [h]
@[simp] theorem State.inc_pending (f : Fld) (n u i : Nat) : (s.inc f n u i).pending = s.pending := by
  obtain ⟨_, h⟩ := State.inc_frame s f n u i; rw [h]

/-- msix changes nothing but rf, ctl. -/
theorem State.msix_frame (v : Nat) : ∃ x0 x1, s.msix v = { s with rf := x0, ctl := x1 } := by
  refine ⟨(s.msix v).rf, (s.msix v).ctl, State.ext_iff.2 ⟨?_, ?_, ?_, ?_, ?_, ?_, ?_, ?_, ?_, ?_, ?_, ?_, ?_, ?_, ?_, ?_, ?_, ?_, ?_, ?_⟩⟩ <;> dsimp only <;>
    (rw [State.msix]; simp)
@[simp] theorem State.msix_stepping (v : Nat) : (s.msix v).stepping = s.stepping := by
  obtain ⟨_, _, h⟩ := State.msix_frame s v; rw [h]
@[simp] theorem State.msix_mem (v : Nat) : (s.msix v).mem = s.mem := by
  obtain ⟨_, _, h⟩ := State.msix_frame s v; rw [h]
@[simp] theorem State.msix_byte (v : Nat) (x : Nat) : (s.msix v).byte x = s.byte x := by
  obtain ⟨_, _, h⟩ := State.msix_frame s v; rw [h]; rfl
@[simp] theorem State.msix_tiles (v : Nat) : (s.msix v).tiles = s.tiles := by
  obtain ⟨_, _, h⟩ := State.msix_frame s v; rw [h]
@[simp] theorem State.msix_tile (v : Nat) (x : Nat) : (s.msix v).tile x = s.tile x := by
  obtain ⟨_, _, h⟩ := State.msix_frame s v; rw [h]; rfl
@[simp] theorem State.msix_hub (v : Nat) : (s.msix v).hub = s.hub := by
  obtain ⟨_, _, h⟩ := State.msix_frame s v; rw [h]
@[simp] theorem State.msix_quays (v : Nat) : (s.msix v).quays = s.quays := by
  obtain ⟨_, _, h⟩ := State.msix_frame s v; rw [h]
@[simp] theorem State.msix_quay (v : Nat) (x : Nat) : (s.msix v).quay x = s.quay x := by
  obtain ⟨_, _, h⟩ := State.msix_frame s v; rw [h]; rfl
@[simp] theorem State.msix_cores (v : Nat) : (s.msix v).cores = s.cores := by
  obtain ⟨_, _, h⟩ := State.msix_frame s v; rw [h]
@[simp] theorem State.msix_core (v : Nat) (x : Nat) : (s.msix v).core x = s.core x := by
  obtain ⟨_, _, h⟩ := State.msix_frame s v; rw [h]; rfl
@[simp] theorem State.msix_cache (v : Nat) : (s.msix v).cache = s.cache := by
  obtain ⟨_, _, h⟩ := State.msix_frame s v; rw [h]
@[simp] theorem State.msix_roster (v : Nat) : (s.msix v).roster = s.roster := by
  obtain ⟨_, _, h⟩ := State.msix_frame s v; rw [h]
@[simp] theorem State.msix_engs (v : Nat) : (s.msix v).engs = s.engs := by
  obtain ⟨_, _, h⟩ := State.msix_frame s v; rw [h]
@[simp] theorem State.msix_eng (v : Nat) (x : Nat) : (s.msix v).eng x = s.eng x := by
  obtain ⟨_, _, h⟩ := State.msix_frame s v; rw [h]; rfl
@[simp] theorem State.msix_ports (v : Nat) : (s.msix v).ports = s.ports := by
  obtain ⟨_, _, h⟩ := State.msix_frame s v; rw [h]
@[simp] theorem State.msix_port (v : Nat) (x : Nat) : (s.msix v).port x = s.port x := by
  obtain ⟨_, _, h⟩ := State.msix_frame s v; rw [h]; rfl
@[simp] theorem State.msix_fault (v : Nat) : (s.msix v).fault = s.fault := by
  obtain ⟨_, _, h⟩ := State.msix_frame s v; rw [h]
@[simp] theorem State.msix_pins (v : Nat) : (s.msix v).pins = s.pins := by
  obtain ⟨_, _, h⟩ := State.msix_frame s v; rw [h]
@[simp] theorem State.msix_power (v : Nat) : (s.msix v).power = s.power := by
  obtain ⟨_, _, h⟩ := State.msix_frame s v; rw [h]
@[simp] theorem State.msix_boot (v : Nat) : (s.msix v).boot = s.boot := by
  obtain ⟨_, _, h⟩ := State.msix_frame s v; rw [h]
@[simp] theorem State.msix_free (v : Nat) : (s.msix v).free = s.free := by
  obtain ⟨_, _, h⟩ := State.msix_frame s v; rw [h]
@[simp] theorem State.msix_tc (v : Nat) : (s.msix v).tc = s.tc := by
  obtain ⟨_, _, h⟩ := State.msix_frame s v; rw [h]
@[simp] theorem State.msix_tick (v : Nat) : (s.msix v).tick = s.tick := by
  obtain ⟨_, _, h⟩ := State.msix_frame s v; rw [h]
@[simp] theorem State.msix_pending (v : Nat) : (s.msix v).pending = s.pending := by
  obtain ⟨_, _, h⟩ := State.msix_frame s v; rw [h]

/-- cpEvent changes nothing but rf, ctl. -/
theorem State.cpEvent_frame (n : Nat) : ∃ x0 x1, s.cpEvent n = { s with rf := x0, ctl := x1 } := by
  refine ⟨(s.cpEvent n).rf, (s.cpEvent n).ctl, State.ext_iff.2 ⟨?_, ?_, ?_, ?_, ?_, ?_, ?_, ?_, ?_, ?_, ?_, ?_, ?_, ?_, ?_, ?_, ?_, ?_, ?_, ?_⟩⟩ <;> dsimp only <;>
    (rw [State.cpEvent]; simp)
@[simp] theorem State.cpEvent_stepping (n : Nat) : (s.cpEvent n).stepping = s.stepping := by
  obtain ⟨_, _, h⟩ := State.cpEvent_frame s n; rw [h]
@[simp] theorem State.cpEvent_mem (n : Nat) : (s.cpEvent n).mem = s.mem := by
  obtain ⟨_, _, h⟩ := State.cpEvent_frame s n; rw [h]
@[simp] theorem State.cpEvent_byte (n : Nat) (x : Nat) : (s.cpEvent n).byte x = s.byte x := by
  obtain ⟨_, _, h⟩ := State.cpEvent_frame s n; rw [h]; rfl
@[simp] theorem State.cpEvent_tiles (n : Nat) : (s.cpEvent n).tiles = s.tiles := by
  obtain ⟨_, _, h⟩ := State.cpEvent_frame s n; rw [h]
@[simp] theorem State.cpEvent_tile (n : Nat) (x : Nat) : (s.cpEvent n).tile x = s.tile x := by
  obtain ⟨_, _, h⟩ := State.cpEvent_frame s n; rw [h]; rfl
@[simp] theorem State.cpEvent_hub (n : Nat) : (s.cpEvent n).hub = s.hub := by
  obtain ⟨_, _, h⟩ := State.cpEvent_frame s n; rw [h]
@[simp] theorem State.cpEvent_quays (n : Nat) : (s.cpEvent n).quays = s.quays := by
  obtain ⟨_, _, h⟩ := State.cpEvent_frame s n; rw [h]
@[simp] theorem State.cpEvent_quay (n : Nat) (x : Nat) : (s.cpEvent n).quay x = s.quay x := by
  obtain ⟨_, _, h⟩ := State.cpEvent_frame s n; rw [h]; rfl
@[simp] theorem State.cpEvent_cores (n : Nat) : (s.cpEvent n).cores = s.cores := by
  obtain ⟨_, _, h⟩ := State.cpEvent_frame s n; rw [h]
@[simp] theorem State.cpEvent_core (n : Nat) (x : Nat) : (s.cpEvent n).core x = s.core x := by
  obtain ⟨_, _, h⟩ := State.cpEvent_frame s n; rw [h]; rfl
@[simp] theorem State.cpEvent_cache (n : Nat) : (s.cpEvent n).cache = s.cache := by
  obtain ⟨_, _, h⟩ := State.cpEvent_frame s n; rw [h]
@[simp] theorem State.cpEvent_roster (n : Nat) : (s.cpEvent n).roster = s.roster := by
  obtain ⟨_, _, h⟩ := State.cpEvent_frame s n; rw [h]
@[simp] theorem State.cpEvent_engs (n : Nat) : (s.cpEvent n).engs = s.engs := by
  obtain ⟨_, _, h⟩ := State.cpEvent_frame s n; rw [h]
@[simp] theorem State.cpEvent_eng (n : Nat) (x : Nat) : (s.cpEvent n).eng x = s.eng x := by
  obtain ⟨_, _, h⟩ := State.cpEvent_frame s n; rw [h]; rfl
@[simp] theorem State.cpEvent_ports (n : Nat) : (s.cpEvent n).ports = s.ports := by
  obtain ⟨_, _, h⟩ := State.cpEvent_frame s n; rw [h]
@[simp] theorem State.cpEvent_port (n : Nat) (x : Nat) : (s.cpEvent n).port x = s.port x := by
  obtain ⟨_, _, h⟩ := State.cpEvent_frame s n; rw [h]; rfl
@[simp] theorem State.cpEvent_fault (n : Nat) : (s.cpEvent n).fault = s.fault := by
  obtain ⟨_, _, h⟩ := State.cpEvent_frame s n; rw [h]
@[simp] theorem State.cpEvent_pins (n : Nat) : (s.cpEvent n).pins = s.pins := by
  obtain ⟨_, _, h⟩ := State.cpEvent_frame s n; rw [h]
@[simp] theorem State.cpEvent_power (n : Nat) : (s.cpEvent n).power = s.power := by
  obtain ⟨_, _, h⟩ := State.cpEvent_frame s n; rw [h]
@[simp] theorem State.cpEvent_boot (n : Nat) : (s.cpEvent n).boot = s.boot := by
  obtain ⟨_, _, h⟩ := State.cpEvent_frame s n; rw [h]
@[simp] theorem State.cpEvent_free (n : Nat) : (s.cpEvent n).free = s.free := by
  obtain ⟨_, _, h⟩ := State.cpEvent_frame s n; rw [h]
@[simp] theorem State.cpEvent_tc (n : Nat) : (s.cpEvent n).tc = s.tc := by
  obtain ⟨_, _, h⟩ := State.cpEvent_frame s n; rw [h]
@[simp] theorem State.cpEvent_tick (n : Nat) : (s.cpEvent n).tick = s.tick := by
  obtain ⟨_, _, h⟩ := State.cpEvent_frame s n; rw [h]
@[simp] theorem State.cpEvent_pending (n : Nat) : (s.cpEvent n).pending = s.pending := by
  obtain ⟨_, _, h⟩ := State.cpEvent_frame s n; rw [h]

/-- alertSync changes nothing but pins. -/
theorem State.alertSync_frame : ∃ x0, s.alertSync = { s with pins := x0 } := by
  refine ⟨(s.alertSync).pins, State.ext_iff.2 ⟨?_, ?_, ?_, ?_, ?_, ?_, ?_, ?_, ?_, ?_, ?_, ?_, ?_, ?_, ?_, ?_, ?_, ?_, ?_, ?_⟩⟩ <;> dsimp only <;>
    (rw [State.alertSync]; simp)
@[simp] theorem State.alertSync_stepping : (s.alertSync).stepping = s.stepping := by
  obtain ⟨_, h⟩ := State.alertSync_frame s; rw [h]
@[simp] theorem State.alertSync_rf : (s.alertSync).rf = s.rf := by
  obtain ⟨_, h⟩ := State.alertSync_frame s; rw [h]
@[simp] theorem State.alertSync_rd  (g : Fld) (u' i' : Nat) : (s.alertSync).rd g u' i' = s.rd g u' i' := by
  obtain ⟨_, h⟩ := State.alertSync_frame s; rw [h]; rfl
@[simp] theorem State.alertSync_mem : (s.alertSync).mem = s.mem := by
  obtain ⟨_, h⟩ := State.alertSync_frame s; rw [h]
@[simp] theorem State.alertSync_byte  (x : Nat) : (s.alertSync).byte x = s.byte x := by
  obtain ⟨_, h⟩ := State.alertSync_frame s; rw [h]; rfl
@[simp] theorem State.alertSync_tiles : (s.alertSync).tiles = s.tiles := by
  obtain ⟨_, h⟩ := State.alertSync_frame s; rw [h]
@[simp] theorem State.alertSync_tile  (x : Nat) : (s.alertSync).tile x = s.tile x := by
  obtain ⟨_, h⟩ := State.alertSync_frame s; rw [h]; rfl
@[simp] theorem State.alertSync_hub : (s.alertSync).hub = s.hub := by
  obtain ⟨_, h⟩ := State.alertSync_frame s; rw [h]
@[simp] theorem State.alertSync_quays : (s.alertSync).quays = s.quays := by
  obtain ⟨_, h⟩ := State.alertSync_frame s; rw [h]
@[simp] theorem State.alertSync_quay  (x : Nat) : (s.alertSync).quay x = s.quay x := by
  obtain ⟨_, h⟩ := State.alertSync_frame s; rw [h]; rfl
@[simp] theorem State.alertSync_cores : (s.alertSync).cores = s.cores := by
  obtain ⟨_, h⟩ := State.alertSync_frame s; rw [h]
@[simp] theorem State.alertSync_core  (x : Nat) : (s.alertSync).core x = s.core x := by
  obtain ⟨_, h⟩ := State.alertSync_frame s; rw [h]; rfl
@[simp] theorem State.alertSync_cache : (s.alertSync).cache = s.cache := by
  obtain ⟨_, h⟩ := State.alertSync_frame s; rw [h]
@[simp] theorem State.alertSync_roster : (s.alertSync).roster = s.roster := by
  obtain ⟨_, h⟩ := State.alertSync_frame s; rw [h]
@[simp] theorem State.alertSync_engs : (s.alertSync).engs = s.engs := by
  obtain ⟨_, h⟩ := State.alertSync_frame s; rw [h]
@[simp] theorem State.alertSync_eng  (x : Nat) : (s.alertSync).eng x = s.eng x := by
  obtain ⟨_, h⟩ := State.alertSync_frame s; rw [h]; rfl
@[simp] theorem State.alertSync_ports : (s.alertSync).ports = s.ports := by
  obtain ⟨_, h⟩ := State.alertSync_frame s; rw [h]
@[simp] theorem State.alertSync_port  (x : Nat) : (s.alertSync).port x = s.port x := by
  obtain ⟨_, h⟩ := State.alertSync_frame s; rw [h]; rfl
@[simp] theorem State.alertSync_fault : (s.alertSync).fault = s.fault := by
  obtain ⟨_, h⟩ := State.alertSync_frame s; rw [h]
@[simp] theorem State.alertSync_power : (s.alertSync).power = s.power := by
  obtain ⟨_, h⟩ := State.alertSync_frame s; rw [h]
@[simp] theorem State.alertSync_ctl : (s.alertSync).ctl = s.ctl := by
  obtain ⟨_, h⟩ := State.alertSync_frame s; rw [h]
@[simp] theorem State.alertSync_boot : (s.alertSync).boot = s.boot := by
  obtain ⟨_, h⟩ := State.alertSync_frame s; rw [h]
@[simp] theorem State.alertSync_free : (s.alertSync).free = s.free := by
  obtain ⟨_, h⟩ := State.alertSync_frame s; rw [h]
@[simp] theorem State.alertSync_tc : (s.alertSync).tc = s.tc := by
  obtain ⟨_, h⟩ := State.alertSync_frame s; rw [h]
@[simp] theorem State.alertSync_tick : (s.alertSync).tick = s.tick := by
  obtain ⟨_, h⟩ := State.alertSync_frame s; rw [h]
@[simp] theorem State.alertSync_pending : (s.alertSync).pending = s.pending := by
  obtain ⟨_, h⟩ := State.alertSync_frame s; rw [h]

/-- logRec changes nothing but rf, fault, pins, ctl. -/
theorem State.logRec_frame (e : Event) (a : Nat) : ∃ x0 x1 x2 x3, s.logRec e a = { s with rf := x0, fault := x1, pins := x2, ctl := x3 } := by
  refine ⟨(s.logRec e a).rf, (s.logRec e a).fault, (s.logRec e a).pins, (s.logRec e a).ctl, State.ext_iff.2 ⟨?_, ?_, ?_, ?_, ?_, ?_, ?_, ?_, ?_, ?_, ?_, ?_, ?_, ?_, ?_, ?_, ?_, ?_, ?_, ?_⟩⟩ <;> dsimp only <;>
    (rw [State.logRec]; simp)
@[simp] theorem State.logRec_stepping (e : Event) (a : Nat) : (s.logRec e a).stepping = s.stepping := by
  obtain ⟨_, _, _, _, h⟩ := State.logRec_frame s e a; rw [h]
@[simp] theorem State.logRec_mem (e : Event) (a : Nat) : (s.logRec e a).mem = s.mem := by
  obtain ⟨_, _, _, _, h⟩ := State.logRec_frame s e a; rw [h]
@[simp] theorem State.logRec_byte (e : Event) (a : Nat) (x : Nat) : (s.logRec e a).byte x = s.byte x := by
  obtain ⟨_, _, _, _, h⟩ := State.logRec_frame s e a; rw [h]; rfl
@[simp] theorem State.logRec_tiles (e : Event) (a : Nat) : (s.logRec e a).tiles = s.tiles := by
  obtain ⟨_, _, _, _, h⟩ := State.logRec_frame s e a; rw [h]
@[simp] theorem State.logRec_tile (e : Event) (a : Nat) (x : Nat) : (s.logRec e a).tile x = s.tile x := by
  obtain ⟨_, _, _, _, h⟩ := State.logRec_frame s e a; rw [h]; rfl
@[simp] theorem State.logRec_hub (e : Event) (a : Nat) : (s.logRec e a).hub = s.hub := by
  obtain ⟨_, _, _, _, h⟩ := State.logRec_frame s e a; rw [h]
@[simp] theorem State.logRec_quays (e : Event) (a : Nat) : (s.logRec e a).quays = s.quays := by
  obtain ⟨_, _, _, _, h⟩ := State.logRec_frame s e a; rw [h]
@[simp] theorem State.logRec_quay (e : Event) (a : Nat) (x : Nat) : (s.logRec e a).quay x = s.quay x := by
  obtain ⟨_, _, _, _, h⟩ := State.logRec_frame s e a; rw [h]; rfl
@[simp] theorem State.logRec_cores (e : Event) (a : Nat) : (s.logRec e a).cores = s.cores := by
  obtain ⟨_, _, _, _, h⟩ := State.logRec_frame s e a; rw [h]
@[simp] theorem State.logRec_core (e : Event) (a : Nat) (x : Nat) : (s.logRec e a).core x = s.core x := by
  obtain ⟨_, _, _, _, h⟩ := State.logRec_frame s e a; rw [h]; rfl
@[simp] theorem State.logRec_cache (e : Event) (a : Nat) : (s.logRec e a).cache = s.cache := by
  obtain ⟨_, _, _, _, h⟩ := State.logRec_frame s e a; rw [h]
@[simp] theorem State.logRec_roster (e : Event) (a : Nat) : (s.logRec e a).roster = s.roster := by
  obtain ⟨_, _, _, _, h⟩ := State.logRec_frame s e a; rw [h]
@[simp] theorem State.logRec_engs (e : Event) (a : Nat) : (s.logRec e a).engs = s.engs := by
  obtain ⟨_, _, _, _, h⟩ := State.logRec_frame s e a; rw [h]
@[simp] theorem State.logRec_eng (e : Event) (a : Nat) (x : Nat) : (s.logRec e a).eng x = s.eng x := by
  obtain ⟨_, _, _, _, h⟩ := State.logRec_frame s e a; rw [h]; rfl
@[simp] theorem State.logRec_ports (e : Event) (a : Nat) : (s.logRec e a).ports = s.ports := by
  obtain ⟨_, _, _, _, h⟩ := State.logRec_frame s e a; rw [h]
@[simp] theorem State.logRec_port (e : Event) (a : Nat) (x : Nat) : (s.logRec e a).port x = s.port x := by
  obtain ⟨_, _, _, _, h⟩ := State.logRec_frame s e a; rw [h]; rfl
@[simp] theorem State.logRec_power (e : Event) (a : Nat) : (s.logRec e a).power = s.power := by
  obtain ⟨_, _, _, _, h⟩ := State.logRec_frame s e a; rw [h]
@[simp] theorem State.logRec_boot (e : Event) (a : Nat) : (s.logRec e a).boot = s.boot := by
  obtain ⟨_, _, _, _, h⟩ := State.logRec_frame s e a; rw [h]
@[simp] theorem State.logRec_free (e : Event) (a : Nat) : (s.logRec e a).free = s.free := by
  obtain ⟨_, _, _, _, h⟩ := State.logRec_frame s e a; rw [h]
@[simp] theorem State.logRec_tc (e : Event) (a : Nat) : (s.logRec e a).tc = s.tc := by
  obtain ⟨_, _, _, _, h⟩ := State.logRec_frame s e a; rw [h]
@[simp] theorem State.logRec_tick (e : Event) (a : Nat) : (s.logRec e a).tick = s.tick := by
  obtain ⟨_, _, _, _, h⟩ := State.logRec_frame s e a; rw [h]
@[simp] theorem State.logRec_pending (e : Event) (a : Nat) : (s.logRec e a).pending = s.pending := by
  obtain ⟨_, _, _, _, h⟩ := State.logRec_frame s e a; rw [h]

/-- event changes nothing but rf, fault, pins, ctl. -/
theorem State.event_frame (a b c d e f : Nat) : ∃ x0 x1 x2 x3, s.event a b c d e f = { s with rf := x0, fault := x1, pins := x2, ctl := x3 } := by
  refine ⟨(s.event a b c d e f).rf, (s.event a b c d e f).fault, (s.event a b c d e f).pins, (s.event a b c d e f).ctl, State.ext_iff.2 ⟨?_, ?_, ?_, ?_, ?_, ?_, ?_, ?_, ?_, ?_, ?_, ?_, ?_, ?_, ?_, ?_, ?_, ?_, ?_, ?_⟩⟩ <;> dsimp only <;>
    (rw [State.event]; simp)
@[simp] theorem State.event_stepping (a b c d e f : Nat) : (s.event a b c d e f).stepping = s.stepping := by
  obtain ⟨_, _, _, _, h⟩ := State.event_frame s a b c d e f; rw [h]
@[simp] theorem State.event_mem (a b c d e f : Nat) : (s.event a b c d e f).mem = s.mem := by
  obtain ⟨_, _, _, _, h⟩ := State.event_frame s a b c d e f; rw [h]
@[simp] theorem State.event_byte (a b c d e f : Nat) (x : Nat) : (s.event a b c d e f).byte x = s.byte x := by
  obtain ⟨_, _, _, _, h⟩ := State.event_frame s a b c d e f; rw [h]; rfl
@[simp] theorem State.event_tiles (a b c d e f : Nat) : (s.event a b c d e f).tiles = s.tiles := by
  obtain ⟨_, _, _, _, h⟩ := State.event_frame s a b c d e f; rw [h]
@[simp] theorem State.event_tile (a b c d e f : Nat) (x : Nat) : (s.event a b c d e f).tile x = s.tile x := by
  obtain ⟨_, _, _, _, h⟩ := State.event_frame s a b c d e f; rw [h]; rfl
@[simp] theorem State.event_hub (a b c d e f : Nat) : (s.event a b c d e f).hub = s.hub := by
  obtain ⟨_, _, _, _, h⟩ := State.event_frame s a b c d e f; rw [h]
@[simp] theorem State.event_quays (a b c d e f : Nat) : (s.event a b c d e f).quays = s.quays := by
  obtain ⟨_, _, _, _, h⟩ := State.event_frame s a b c d e f; rw [h]
@[simp] theorem State.event_quay (a b c d e f : Nat) (x : Nat) : (s.event a b c d e f).quay x = s.quay x := by
  obtain ⟨_, _, _, _, h⟩ := State.event_frame s a b c d e f; rw [h]; rfl
@[simp] theorem State.event_cores (a b c d e f : Nat) : (s.event a b c d e f).cores = s.cores := by
  obtain ⟨_, _, _, _, h⟩ := State.event_frame s a b c d e f; rw [h]
@[simp] theorem State.event_core (a b c d e f : Nat) (x : Nat) : (s.event a b c d e f).core x = s.core x := by
  obtain ⟨_, _, _, _, h⟩ := State.event_frame s a b c d e f; rw [h]; rfl
@[simp] theorem State.event_cache (a b c d e f : Nat) : (s.event a b c d e f).cache = s.cache := by
  obtain ⟨_, _, _, _, h⟩ := State.event_frame s a b c d e f; rw [h]
@[simp] theorem State.event_roster (a b c d e f : Nat) : (s.event a b c d e f).roster = s.roster := by
  obtain ⟨_, _, _, _, h⟩ := State.event_frame s a b c d e f; rw [h]
@[simp] theorem State.event_engs (a b c d e f : Nat) : (s.event a b c d e f).engs = s.engs := by
  obtain ⟨_, _, _, _, h⟩ := State.event_frame s a b c d e f; rw [h]
@[simp] theorem State.event_eng (a b c d e f : Nat) (x : Nat) : (s.event a b c d e f).eng x = s.eng x := by
  obtain ⟨_, _, _, _, h⟩ := State.event_frame s a b c d e f; rw [h]; rfl
@[simp] theorem State.event_ports (a b c d e f : Nat) : (s.event a b c d e f).ports = s.ports := by
  obtain ⟨_, _, _, _, h⟩ := State.event_frame s a b c d e f; rw [h]
@[simp] theorem State.event_port (a b c d e f : Nat) (x : Nat) : (s.event a b c d e f).port x = s.port x := by
  obtain ⟨_, _, _, _, h⟩ := State.event_frame s a b c d e f; rw [h]; rfl
@[simp] theorem State.event_power (a b c d e f : Nat) : (s.event a b c d e f).power = s.power := by
  obtain ⟨_, _, _, _, h⟩ := State.event_frame s a b c d e f; rw [h]
@[simp] theorem State.event_boot (a b c d e f : Nat) : (s.event a b c d e f).boot = s.boot := by
  obtain ⟨_, _, _, _, h⟩ := State.event_frame s a b c d e f; rw [h]
@[simp] theorem State.event_free (a b c d e f : Nat) : (s.event a b c d e f).free = s.free := by
  obtain ⟨_, _, _, _, h⟩ := State.event_frame s a b c d e f; rw [h]
@[simp] theorem State.event_tc (a b c d e f : Nat) : (s.event a b c d e f).tc = s.tc := by
  obtain ⟨_, _, _, _, h⟩ := State.event_frame s a b c d e f; rw [h]
@[simp] theorem State.event_tick (a b c d e f : Nat) : (s.event a b c d e f).tick = s.tick := by
  obtain ⟨_, _, _, _, h⟩ := State.event_frame s a b c d e f; rw [h]
@[simp] theorem State.event_pending (a b c d e f : Nat) : (s.event a b c d e f).pending = s.pending := by
  obtain ⟨_, _, _, _, h⟩ := State.event_frame s a b c d e f; rw [h]

/-- cpFields changes nothing but rf. -/
theorem State.cpFields_frame : ∃ x0, s.cpFields = { s with rf := x0 } := by
  obtain ⟨x, h⟩ := foldl_rf (fun s p =>
    let s := s.wr (partFld F.CP_STATE_LOADED p) (if (s.curImage p).isSome then 1 else 0)
    let s := s.wr (partFld F.CP_STATE_SWITCHING p) (s.rd F.PT_PART_A_SWITCHING 0 p)
    s.wr (partFld F.CP_STATE_ROAST p) (bits (s.rd F.PW_ROAST_ROAST) (2 * p) 2)) (fun s p => ⟨_, rfl⟩) (List.range 4) s
  exact ⟨_, by rw [State.cpFields, h]; rfl⟩
@[simp] theorem State.cpFields_stepping : (s.cpFields).stepping = s.stepping := by
  obtain ⟨_, h⟩ := State.cpFields_frame s; rw [h]
@[simp] theorem State.cpFields_mem : (s.cpFields).mem = s.mem := by
  obtain ⟨_, h⟩ := State.cpFields_frame s; rw [h]
@[simp] theorem State.cpFields_byte  (x : Nat) : (s.cpFields).byte x = s.byte x := by
  obtain ⟨_, h⟩ := State.cpFields_frame s; rw [h]; rfl
@[simp] theorem State.cpFields_tiles : (s.cpFields).tiles = s.tiles := by
  obtain ⟨_, h⟩ := State.cpFields_frame s; rw [h]
@[simp] theorem State.cpFields_tile  (x : Nat) : (s.cpFields).tile x = s.tile x := by
  obtain ⟨_, h⟩ := State.cpFields_frame s; rw [h]; rfl
@[simp] theorem State.cpFields_hub : (s.cpFields).hub = s.hub := by
  obtain ⟨_, h⟩ := State.cpFields_frame s; rw [h]
@[simp] theorem State.cpFields_quays : (s.cpFields).quays = s.quays := by
  obtain ⟨_, h⟩ := State.cpFields_frame s; rw [h]
@[simp] theorem State.cpFields_quay  (x : Nat) : (s.cpFields).quay x = s.quay x := by
  obtain ⟨_, h⟩ := State.cpFields_frame s; rw [h]; rfl
@[simp] theorem State.cpFields_cores : (s.cpFields).cores = s.cores := by
  obtain ⟨_, h⟩ := State.cpFields_frame s; rw [h]
@[simp] theorem State.cpFields_core  (x : Nat) : (s.cpFields).core x = s.core x := by
  obtain ⟨_, h⟩ := State.cpFields_frame s; rw [h]; rfl
@[simp] theorem State.cpFields_cache : (s.cpFields).cache = s.cache := by
  obtain ⟨_, h⟩ := State.cpFields_frame s; rw [h]
@[simp] theorem State.cpFields_roster : (s.cpFields).roster = s.roster := by
  obtain ⟨_, h⟩ := State.cpFields_frame s; rw [h]
@[simp] theorem State.cpFields_engs : (s.cpFields).engs = s.engs := by
  obtain ⟨_, h⟩ := State.cpFields_frame s; rw [h]
@[simp] theorem State.cpFields_eng  (x : Nat) : (s.cpFields).eng x = s.eng x := by
  obtain ⟨_, h⟩ := State.cpFields_frame s; rw [h]; rfl
@[simp] theorem State.cpFields_ports : (s.cpFields).ports = s.ports := by
  obtain ⟨_, h⟩ := State.cpFields_frame s; rw [h]
@[simp] theorem State.cpFields_port  (x : Nat) : (s.cpFields).port x = s.port x := by
  obtain ⟨_, h⟩ := State.cpFields_frame s; rw [h]; rfl
@[simp] theorem State.cpFields_fault : (s.cpFields).fault = s.fault := by
  obtain ⟨_, h⟩ := State.cpFields_frame s; rw [h]
@[simp] theorem State.cpFields_pins : (s.cpFields).pins = s.pins := by
  obtain ⟨_, h⟩ := State.cpFields_frame s; rw [h]
@[simp] theorem State.cpFields_power : (s.cpFields).power = s.power := by
  obtain ⟨_, h⟩ := State.cpFields_frame s; rw [h]
@[simp] theorem State.cpFields_ctl : (s.cpFields).ctl = s.ctl := by
  obtain ⟨_, h⟩ := State.cpFields_frame s; rw [h]
@[simp] theorem State.cpFields_boot : (s.cpFields).boot = s.boot := by
  obtain ⟨_, h⟩ := State.cpFields_frame s; rw [h]
@[simp] theorem State.cpFields_free : (s.cpFields).free = s.free := by
  obtain ⟨_, h⟩ := State.cpFields_frame s; rw [h]
@[simp] theorem State.cpFields_tc : (s.cpFields).tc = s.tc := by
  obtain ⟨_, h⟩ := State.cpFields_frame s; rw [h]
@[simp] theorem State.cpFields_tick : (s.cpFields).tick = s.tick := by
  obtain ⟨_, h⟩ := State.cpFields_frame s; rw [h]
@[simp] theorem State.cpFields_pending : (s.cpFields).pending = s.pending := by
  obtain ⟨_, h⟩ := State.cpFields_frame s; rw [h]

/-- settle changes nothing but rf, pins, ctl. -/
theorem State.settle_frame (old : State) : ∃ x0 x1 x2, s.settle old = { s with rf := x0, pins := x1, ctl := x2 } := by
  refine ⟨(s.settle old).rf, (s.settle old).pins, (s.settle old).ctl, State.ext_iff.2 ⟨?_, ?_, ?_, ?_, ?_, ?_, ?_, ?_, ?_, ?_, ?_, ?_, ?_, ?_, ?_, ?_, ?_, ?_, ?_, ?_⟩⟩ <;> dsimp only <;>
    (rw [State.settle]; simp)
@[simp] theorem State.settle_stepping (old : State) : (s.settle old).stepping = s.stepping := by
  obtain ⟨_, _, _, h⟩ := State.settle_frame s old; rw [h]
@[simp] theorem State.settle_mem (old : State) : (s.settle old).mem = s.mem := by
  obtain ⟨_, _, _, h⟩ := State.settle_frame s old; rw [h]
@[simp] theorem State.settle_byte (old : State) (x : Nat) : (s.settle old).byte x = s.byte x := by
  obtain ⟨_, _, _, h⟩ := State.settle_frame s old; rw [h]; rfl
@[simp] theorem State.settle_tiles (old : State) : (s.settle old).tiles = s.tiles := by
  obtain ⟨_, _, _, h⟩ := State.settle_frame s old; rw [h]
@[simp] theorem State.settle_tile (old : State) (x : Nat) : (s.settle old).tile x = s.tile x := by
  obtain ⟨_, _, _, h⟩ := State.settle_frame s old; rw [h]; rfl
@[simp] theorem State.settle_hub (old : State) : (s.settle old).hub = s.hub := by
  obtain ⟨_, _, _, h⟩ := State.settle_frame s old; rw [h]
@[simp] theorem State.settle_quays (old : State) : (s.settle old).quays = s.quays := by
  obtain ⟨_, _, _, h⟩ := State.settle_frame s old; rw [h]
@[simp] theorem State.settle_quay (old : State) (x : Nat) : (s.settle old).quay x = s.quay x := by
  obtain ⟨_, _, _, h⟩ := State.settle_frame s old; rw [h]; rfl
@[simp] theorem State.settle_cores (old : State) : (s.settle old).cores = s.cores := by
  obtain ⟨_, _, _, h⟩ := State.settle_frame s old; rw [h]
@[simp] theorem State.settle_core (old : State) (x : Nat) : (s.settle old).core x = s.core x := by
  obtain ⟨_, _, _, h⟩ := State.settle_frame s old; rw [h]; rfl
@[simp] theorem State.settle_cache (old : State) : (s.settle old).cache = s.cache := by
  obtain ⟨_, _, _, h⟩ := State.settle_frame s old; rw [h]
@[simp] theorem State.settle_roster (old : State) : (s.settle old).roster = s.roster := by
  obtain ⟨_, _, _, h⟩ := State.settle_frame s old; rw [h]
@[simp] theorem State.settle_engs (old : State) : (s.settle old).engs = s.engs := by
  obtain ⟨_, _, _, h⟩ := State.settle_frame s old; rw [h]
@[simp] theorem State.settle_eng (old : State) (x : Nat) : (s.settle old).eng x = s.eng x := by
  obtain ⟨_, _, _, h⟩ := State.settle_frame s old; rw [h]; rfl
@[simp] theorem State.settle_ports (old : State) : (s.settle old).ports = s.ports := by
  obtain ⟨_, _, _, h⟩ := State.settle_frame s old; rw [h]
@[simp] theorem State.settle_port (old : State) (x : Nat) : (s.settle old).port x = s.port x := by
  obtain ⟨_, _, _, h⟩ := State.settle_frame s old; rw [h]; rfl
@[simp] theorem State.settle_fault (old : State) : (s.settle old).fault = s.fault := by
  obtain ⟨_, _, _, h⟩ := State.settle_frame s old; rw [h]
@[simp] theorem State.settle_power (old : State) : (s.settle old).power = s.power := by
  obtain ⟨_, _, _, h⟩ := State.settle_frame s old; rw [h]
@[simp] theorem State.settle_boot (old : State) : (s.settle old).boot = s.boot := by
  obtain ⟨_, _, _, h⟩ := State.settle_frame s old; rw [h]
@[simp] theorem State.settle_free (old : State) : (s.settle old).free = s.free := by
  obtain ⟨_, _, _, h⟩ := State.settle_frame s old; rw [h]
@[simp] theorem State.settle_tc (old : State) : (s.settle old).tc = s.tc := by
  obtain ⟨_, _, _, h⟩ := State.settle_frame s old; rw [h]
@[simp] theorem State.settle_tick (old : State) : (s.settle old).tick = s.tick := by
  obtain ⟨_, _, _, h⟩ := State.settle_frame s old; rw [h]
@[simp] theorem State.settle_pending (old : State) : (s.settle old).pending = s.pending := by
  obtain ⟨_, _, _, h⟩ := State.settle_frame s old; rw [h]

/-- grantSync changes nothing but rf, ctl. -/
theorem State.grantSync_frame : ∃ x0 x1, s.grantSync = { s with rf := x0, ctl := x1 } := by
  refine ⟨(s.grantSync).rf, (s.grantSync).ctl, State.ext_iff.2 ⟨?_, ?_, ?_, ?_, ?_, ?_, ?_, ?_, ?_, ?_, ?_, ?_, ?_, ?_, ?_, ?_, ?_, ?_, ?_, ?_⟩⟩ <;> dsimp only <;>
    (rw [State.grantSync]; simp)
@[simp] theorem State.grantSync_stepping : (s.grantSync).stepping = s.stepping := by
  obtain ⟨_, _, h⟩ := State.grantSync_frame s; rw [h]
@[simp] theorem State.grantSync_mem : (s.grantSync).mem = s.mem := by
  obtain ⟨_, _, h⟩ := State.grantSync_frame s; rw [h]
@[simp] theorem State.grantSync_byte  (x : Nat) : (s.grantSync).byte x = s.byte x := by
  obtain ⟨_, _, h⟩ := State.grantSync_frame s; rw [h]; rfl
@[simp] theorem State.grantSync_tiles : (s.grantSync).tiles = s.tiles := by
  obtain ⟨_, _, h⟩ := State.grantSync_frame s; rw [h]
@[simp] theorem State.grantSync_tile  (x : Nat) : (s.grantSync).tile x = s.tile x := by
  obtain ⟨_, _, h⟩ := State.grantSync_frame s; rw [h]; rfl
@[simp] theorem State.grantSync_hub : (s.grantSync).hub = s.hub := by
  obtain ⟨_, _, h⟩ := State.grantSync_frame s; rw [h]
@[simp] theorem State.grantSync_quays : (s.grantSync).quays = s.quays := by
  obtain ⟨_, _, h⟩ := State.grantSync_frame s; rw [h]
@[simp] theorem State.grantSync_quay  (x : Nat) : (s.grantSync).quay x = s.quay x := by
  obtain ⟨_, _, h⟩ := State.grantSync_frame s; rw [h]; rfl
@[simp] theorem State.grantSync_cores : (s.grantSync).cores = s.cores := by
  obtain ⟨_, _, h⟩ := State.grantSync_frame s; rw [h]
@[simp] theorem State.grantSync_core  (x : Nat) : (s.grantSync).core x = s.core x := by
  obtain ⟨_, _, h⟩ := State.grantSync_frame s; rw [h]; rfl
@[simp] theorem State.grantSync_cache : (s.grantSync).cache = s.cache := by
  obtain ⟨_, _, h⟩ := State.grantSync_frame s; rw [h]
@[simp] theorem State.grantSync_roster : (s.grantSync).roster = s.roster := by
  obtain ⟨_, _, h⟩ := State.grantSync_frame s; rw [h]
@[simp] theorem State.grantSync_engs : (s.grantSync).engs = s.engs := by
  obtain ⟨_, _, h⟩ := State.grantSync_frame s; rw [h]
@[simp] theorem State.grantSync_eng  (x : Nat) : (s.grantSync).eng x = s.eng x := by
  obtain ⟨_, _, h⟩ := State.grantSync_frame s; rw [h]; rfl
@[simp] theorem State.grantSync_ports : (s.grantSync).ports = s.ports := by
  obtain ⟨_, _, h⟩ := State.grantSync_frame s; rw [h]
@[simp] theorem State.grantSync_port  (x : Nat) : (s.grantSync).port x = s.port x := by
  obtain ⟨_, _, h⟩ := State.grantSync_frame s; rw [h]; rfl
@[simp] theorem State.grantSync_fault : (s.grantSync).fault = s.fault := by
  obtain ⟨_, _, h⟩ := State.grantSync_frame s; rw [h]
@[simp] theorem State.grantSync_pins : (s.grantSync).pins = s.pins := by
  obtain ⟨_, _, h⟩ := State.grantSync_frame s; rw [h]
@[simp] theorem State.grantSync_power : (s.grantSync).power = s.power := by
  obtain ⟨_, _, h⟩ := State.grantSync_frame s; rw [h]
@[simp] theorem State.grantSync_boot : (s.grantSync).boot = s.boot := by
  obtain ⟨_, _, h⟩ := State.grantSync_frame s; rw [h]
@[simp] theorem State.grantSync_free : (s.grantSync).free = s.free := by
  obtain ⟨_, _, h⟩ := State.grantSync_frame s; rw [h]
@[simp] theorem State.grantSync_tc : (s.grantSync).tc = s.tc := by
  obtain ⟨_, _, h⟩ := State.grantSync_frame s; rw [h]
@[simp] theorem State.grantSync_tick : (s.grantSync).tick = s.tick := by
  obtain ⟨_, _, h⟩ := State.grantSync_frame s; rw [h]
@[simp] theorem State.grantSync_pending : (s.grantSync).pending = s.pending := by
  obtain ⟨_, _, h⟩ := State.grantSync_frame s; rw [h]

/-- addIdle changes nothing but rf. -/
theorem State.addIdle_frame (t c n : Nat) : ∃ x0, s.addIdle t c n = { s with rf := x0 } := by
  refine ⟨(s.addIdle t c n).rf, State.ext_iff.2 ⟨?_, ?_, ?_, ?_, ?_, ?_, ?_, ?_, ?_, ?_, ?_, ?_, ?_, ?_, ?_, ?_, ?_, ?_, ?_, ?_⟩⟩ <;> dsimp only <;>
    (rw [State.addIdle]; simp)
@[simp] theorem State.addIdle_stepping (t c n : Nat) : (s.addIdle t c n).stepping = s.stepping := by
  obtain ⟨_, h⟩ := State.addIdle_frame s t c n; rw [h]
@[simp] theorem State.addIdle_mem (t c n : Nat) : (s.addIdle t c n).mem = s.mem := by
  obtain ⟨_, h⟩ := State.addIdle_frame s t c n; rw [h]
@[simp] theorem State.addIdle_byte (t c n : Nat) (x : Nat) : (s.addIdle t c n).byte x = s.byte x := by
  obtain ⟨_, h⟩ := State.addIdle_frame s t c n; rw [h]; rfl
@[simp] theorem State.addIdle_tiles (t c n : Nat) : (s.addIdle t c n).tiles = s.tiles := by
  obtain ⟨_, h⟩ := State.addIdle_frame s t c n; rw [h]
@[simp] theorem State.addIdle_tile (t c n : Nat) (x : Nat) : (s.addIdle t c n).tile x = s.tile x := by
  obtain ⟨_, h⟩ := State.addIdle_frame s t c n; rw [h]; rfl
@[simp] theorem State.addIdle_hub (t c n : Nat) : (s.addIdle t c n).hub = s.hub := by
  obtain ⟨_, h⟩ := State.addIdle_frame s t c n; rw [h]
@[simp] theorem State.addIdle_quays (t c n : Nat) : (s.addIdle t c n).quays = s.quays := by
  obtain ⟨_, h⟩ := State.addIdle_frame s t c n; rw [h]
@[simp] theorem State.addIdle_quay (t c n : Nat) (x : Nat) : (s.addIdle t c n).quay x = s.quay x := by
  obtain ⟨_, h⟩ := State.addIdle_frame s t c n; rw [h]; rfl
@[simp] theorem State.addIdle_cores (t c n : Nat) : (s.addIdle t c n).cores = s.cores := by
  obtain ⟨_, h⟩ := State.addIdle_frame s t c n; rw [h]
@[simp] theorem State.addIdle_core (t c n : Nat) (x : Nat) : (s.addIdle t c n).core x = s.core x := by
  obtain ⟨_, h⟩ := State.addIdle_frame s t c n; rw [h]; rfl
@[simp] theorem State.addIdle_cache (t c n : Nat) : (s.addIdle t c n).cache = s.cache := by
  obtain ⟨_, h⟩ := State.addIdle_frame s t c n; rw [h]
@[simp] theorem State.addIdle_roster (t c n : Nat) : (s.addIdle t c n).roster = s.roster := by
  obtain ⟨_, h⟩ := State.addIdle_frame s t c n; rw [h]
@[simp] theorem State.addIdle_engs (t c n : Nat) : (s.addIdle t c n).engs = s.engs := by
  obtain ⟨_, h⟩ := State.addIdle_frame s t c n; rw [h]
@[simp] theorem State.addIdle_eng (t c n : Nat) (x : Nat) : (s.addIdle t c n).eng x = s.eng x := by
  obtain ⟨_, h⟩ := State.addIdle_frame s t c n; rw [h]; rfl
@[simp] theorem State.addIdle_ports (t c n : Nat) : (s.addIdle t c n).ports = s.ports := by
  obtain ⟨_, h⟩ := State.addIdle_frame s t c n; rw [h]
@[simp] theorem State.addIdle_port (t c n : Nat) (x : Nat) : (s.addIdle t c n).port x = s.port x := by
  obtain ⟨_, h⟩ := State.addIdle_frame s t c n; rw [h]; rfl
@[simp] theorem State.addIdle_fault (t c n : Nat) : (s.addIdle t c n).fault = s.fault := by
  obtain ⟨_, h⟩ := State.addIdle_frame s t c n; rw [h]
@[simp] theorem State.addIdle_pins (t c n : Nat) : (s.addIdle t c n).pins = s.pins := by
  obtain ⟨_, h⟩ := State.addIdle_frame s t c n; rw [h]
@[simp] theorem State.addIdle_power (t c n : Nat) : (s.addIdle t c n).power = s.power := by
  obtain ⟨_, h⟩ := State.addIdle_frame s t c n; rw [h]
@[simp] theorem State.addIdle_ctl (t c n : Nat) : (s.addIdle t c n).ctl = s.ctl := by
  obtain ⟨_, h⟩ := State.addIdle_frame s t c n; rw [h]
@[simp] theorem State.addIdle_boot (t c n : Nat) : (s.addIdle t c n).boot = s.boot := by
  obtain ⟨_, h⟩ := State.addIdle_frame s t c n; rw [h]
@[simp] theorem State.addIdle_free (t c n : Nat) : (s.addIdle t c n).free = s.free := by
  obtain ⟨_, h⟩ := State.addIdle_frame s t c n; rw [h]
@[simp] theorem State.addIdle_tc (t c n : Nat) : (s.addIdle t c n).tc = s.tc := by
  obtain ⟨_, h⟩ := State.addIdle_frame s t c n; rw [h]
@[simp] theorem State.addIdle_tick (t c n : Nat) : (s.addIdle t c n).tick = s.tick := by
  obtain ⟨_, h⟩ := State.addIdle_frame s t c n; rw [h]
@[simp] theorem State.addIdle_pending (t c n : Nat) : (s.addIdle t c n).pending = s.pending := by
  obtain ⟨_, h⟩ := State.addIdle_frame s t c n; rw [h]

/-- creditBar changes nothing but rf. -/
theorem State.creditBar_frame (t c : Nat) : ∃ x0, s.creditBar t c = { s with rf := x0 } := by
  refine ⟨(s.creditBar t c).rf, State.ext_iff.2 ⟨?_, ?_, ?_, ?_, ?_, ?_, ?_, ?_, ?_, ?_, ?_, ?_, ?_, ?_, ?_, ?_, ?_, ?_, ?_, ?_⟩⟩ <;> dsimp only <;>
    (rw [State.creditBar]; simp)
@[simp] theorem State.creditBar_stepping (t c : Nat) : (s.creditBar t c).stepping = s.stepping := by
  obtain ⟨_, h⟩ := State.creditBar_frame s t c; rw [h]
@[simp] theorem State.creditBar_mem (t c : Nat) : (s.creditBar t c).mem = s.mem := by
  obtain ⟨_, h⟩ := State.creditBar_frame s t c; rw [h]
@[simp] theorem State.creditBar_byte (t c : Nat) (x : Nat) : (s.creditBar t c).byte x = s.byte x := by
  obtain ⟨_, h⟩ := State.creditBar_frame s t c; rw [h]; rfl
@[simp] theorem State.creditBar_tiles (t c : Nat) : (s.creditBar t c).tiles = s.tiles := by
  obtain ⟨_, h⟩ := State.creditBar_frame s t c; rw [h]
@[simp] theorem State.creditBar_tile (t c : Nat) (x : Nat) : (s.creditBar t c).tile x = s.tile x := by
  obtain ⟨_, h⟩ := State.creditBar_frame s t c; rw [h]; rfl
@[simp] theorem State.creditBar_hub (t c : Nat) : (s.creditBar t c).hub = s.hub := by
  obtain ⟨_, h⟩ := State.creditBar_frame s t c; rw [h]
@[simp] theorem State.creditBar_quays (t c : Nat) : (s.creditBar t c).quays = s.quays := by
  obtain ⟨_, h⟩ := State.creditBar_frame s t c; rw [h]
@[simp] theorem State.creditBar_quay (t c : Nat) (x : Nat) : (s.creditBar t c).quay x = s.quay x := by
  obtain ⟨_, h⟩ := State.creditBar_frame s t c; rw [h]; rfl
@[simp] theorem State.creditBar_cores (t c : Nat) : (s.creditBar t c).cores = s.cores := by
  obtain ⟨_, h⟩ := State.creditBar_frame s t c; rw [h]
@[simp] theorem State.creditBar_core (t c : Nat) (x : Nat) : (s.creditBar t c).core x = s.core x := by
  obtain ⟨_, h⟩ := State.creditBar_frame s t c; rw [h]; rfl
@[simp] theorem State.creditBar_cache (t c : Nat) : (s.creditBar t c).cache = s.cache := by
  obtain ⟨_, h⟩ := State.creditBar_frame s t c; rw [h]
@[simp] theorem State.creditBar_roster (t c : Nat) : (s.creditBar t c).roster = s.roster := by
  obtain ⟨_, h⟩ := State.creditBar_frame s t c; rw [h]
@[simp] theorem State.creditBar_engs (t c : Nat) : (s.creditBar t c).engs = s.engs := by
  obtain ⟨_, h⟩ := State.creditBar_frame s t c; rw [h]
@[simp] theorem State.creditBar_eng (t c : Nat) (x : Nat) : (s.creditBar t c).eng x = s.eng x := by
  obtain ⟨_, h⟩ := State.creditBar_frame s t c; rw [h]; rfl
@[simp] theorem State.creditBar_ports (t c : Nat) : (s.creditBar t c).ports = s.ports := by
  obtain ⟨_, h⟩ := State.creditBar_frame s t c; rw [h]
@[simp] theorem State.creditBar_port (t c : Nat) (x : Nat) : (s.creditBar t c).port x = s.port x := by
  obtain ⟨_, h⟩ := State.creditBar_frame s t c; rw [h]; rfl
@[simp] theorem State.creditBar_fault (t c : Nat) : (s.creditBar t c).fault = s.fault := by
  obtain ⟨_, h⟩ := State.creditBar_frame s t c; rw [h]
@[simp] theorem State.creditBar_pins (t c : Nat) : (s.creditBar t c).pins = s.pins := by
  obtain ⟨_, h⟩ := State.creditBar_frame s t c; rw [h]
@[simp] theorem State.creditBar_power (t c : Nat) : (s.creditBar t c).power = s.power := by
  obtain ⟨_, h⟩ := State.creditBar_frame s t c; rw [h]
@[simp] theorem State.creditBar_ctl (t c : Nat) : (s.creditBar t c).ctl = s.ctl := by
  obtain ⟨_, h⟩ := State.creditBar_frame s t c; rw [h]
@[simp] theorem State.creditBar_boot (t c : Nat) : (s.creditBar t c).boot = s.boot := by
  obtain ⟨_, h⟩ := State.creditBar_frame s t c; rw [h]
@[simp] theorem State.creditBar_free (t c : Nat) : (s.creditBar t c).free = s.free := by
  obtain ⟨_, h⟩ := State.creditBar_frame s t c; rw [h]
@[simp] theorem State.creditBar_tc (t c : Nat) : (s.creditBar t c).tc = s.tc := by
  obtain ⟨_, h⟩ := State.creditBar_frame s t c; rw [h]
@[simp] theorem State.creditBar_tick (t c : Nat) : (s.creditBar t c).tick = s.tick := by
  obtain ⟨_, h⟩ := State.creditBar_frame s t c; rw [h]
@[simp] theorem State.creditBar_pending (t c : Nat) : (s.creditBar t c).pending = s.pending := by
  obtain ⟨_, h⟩ := State.creditBar_frame s t c; rw [h]

/-- markHalted changes nothing but rf. -/
theorem State.markHalted_frame (t : Nat) : ∃ x0, s.markHalted t = { s with rf := x0 } := by
  refine ⟨(s.markHalted t).rf, State.ext_iff.2 ⟨?_, ?_, ?_, ?_, ?_, ?_, ?_, ?_, ?_, ?_, ?_, ?_, ?_, ?_, ?_, ?_, ?_, ?_, ?_, ?_⟩⟩ <;> dsimp only <;>
    (rw [State.markHalted]; simp)
@[simp] theorem State.markHalted_stepping (t : Nat) : (s.markHalted t).stepping = s.stepping := by
  obtain ⟨_, h⟩ := State.markHalted_frame s t; rw [h]
@[simp] theorem State.markHalted_mem (t : Nat) : (s.markHalted t).mem = s.mem := by
  obtain ⟨_, h⟩ := State.markHalted_frame s t; rw [h]
@[simp] theorem State.markHalted_byte (t : Nat) (x : Nat) : (s.markHalted t).byte x = s.byte x := by
  obtain ⟨_, h⟩ := State.markHalted_frame s t; rw [h]; rfl
@[simp] theorem State.markHalted_tiles (t : Nat) : (s.markHalted t).tiles = s.tiles := by
  obtain ⟨_, h⟩ := State.markHalted_frame s t; rw [h]
@[simp] theorem State.markHalted_tile (t : Nat) (x : Nat) : (s.markHalted t).tile x = s.tile x := by
  obtain ⟨_, h⟩ := State.markHalted_frame s t; rw [h]; rfl
@[simp] theorem State.markHalted_hub (t : Nat) : (s.markHalted t).hub = s.hub := by
  obtain ⟨_, h⟩ := State.markHalted_frame s t; rw [h]
@[simp] theorem State.markHalted_quays (t : Nat) : (s.markHalted t).quays = s.quays := by
  obtain ⟨_, h⟩ := State.markHalted_frame s t; rw [h]
@[simp] theorem State.markHalted_quay (t : Nat) (x : Nat) : (s.markHalted t).quay x = s.quay x := by
  obtain ⟨_, h⟩ := State.markHalted_frame s t; rw [h]; rfl
@[simp] theorem State.markHalted_cores (t : Nat) : (s.markHalted t).cores = s.cores := by
  obtain ⟨_, h⟩ := State.markHalted_frame s t; rw [h]
@[simp] theorem State.markHalted_core (t : Nat) (x : Nat) : (s.markHalted t).core x = s.core x := by
  obtain ⟨_, h⟩ := State.markHalted_frame s t; rw [h]; rfl
@[simp] theorem State.markHalted_cache (t : Nat) : (s.markHalted t).cache = s.cache := by
  obtain ⟨_, h⟩ := State.markHalted_frame s t; rw [h]
@[simp] theorem State.markHalted_roster (t : Nat) : (s.markHalted t).roster = s.roster := by
  obtain ⟨_, h⟩ := State.markHalted_frame s t; rw [h]
@[simp] theorem State.markHalted_engs (t : Nat) : (s.markHalted t).engs = s.engs := by
  obtain ⟨_, h⟩ := State.markHalted_frame s t; rw [h]
@[simp] theorem State.markHalted_eng (t : Nat) (x : Nat) : (s.markHalted t).eng x = s.eng x := by
  obtain ⟨_, h⟩ := State.markHalted_frame s t; rw [h]; rfl
@[simp] theorem State.markHalted_ports (t : Nat) : (s.markHalted t).ports = s.ports := by
  obtain ⟨_, h⟩ := State.markHalted_frame s t; rw [h]
@[simp] theorem State.markHalted_port (t : Nat) (x : Nat) : (s.markHalted t).port x = s.port x := by
  obtain ⟨_, h⟩ := State.markHalted_frame s t; rw [h]; rfl
@[simp] theorem State.markHalted_fault (t : Nat) : (s.markHalted t).fault = s.fault := by
  obtain ⟨_, h⟩ := State.markHalted_frame s t; rw [h]
@[simp] theorem State.markHalted_pins (t : Nat) : (s.markHalted t).pins = s.pins := by
  obtain ⟨_, h⟩ := State.markHalted_frame s t; rw [h]
@[simp] theorem State.markHalted_power (t : Nat) : (s.markHalted t).power = s.power := by
  obtain ⟨_, h⟩ := State.markHalted_frame s t; rw [h]
@[simp] theorem State.markHalted_ctl (t : Nat) : (s.markHalted t).ctl = s.ctl := by
  obtain ⟨_, h⟩ := State.markHalted_frame s t; rw [h]
@[simp] theorem State.markHalted_boot (t : Nat) : (s.markHalted t).boot = s.boot := by
  obtain ⟨_, h⟩ := State.markHalted_frame s t; rw [h]
@[simp] theorem State.markHalted_free (t : Nat) : (s.markHalted t).free = s.free := by
  obtain ⟨_, h⟩ := State.markHalted_frame s t; rw [h]
@[simp] theorem State.markHalted_tc (t : Nat) : (s.markHalted t).tc = s.tc := by
  obtain ⟨_, h⟩ := State.markHalted_frame s t; rw [h]
@[simp] theorem State.markHalted_tick (t : Nat) : (s.markHalted t).tick = s.tick := by
  obtain ⟨_, h⟩ := State.markHalted_frame s t; rw [h]
@[simp] theorem State.markHalted_pending (t : Nat) : (s.markHalted t).pending = s.pending := by
  obtain ⟨_, h⟩ := State.markHalted_frame s t; rw [h]

/-- haltFill changes nothing but rf. -/
theorem State.haltFill_frame (t a b c d e : Nat) : ∃ x0, s.haltFill t a b c d e = { s with rf := x0 } := by
  refine ⟨(s.haltFill t a b c d e).rf, State.ext_iff.2 ⟨?_, ?_, ?_, ?_, ?_, ?_, ?_, ?_, ?_, ?_, ?_, ?_, ?_, ?_, ?_, ?_, ?_, ?_, ?_, ?_⟩⟩ <;> dsimp only <;>
    (rw [State.haltFill]; simp)
@[simp] theorem State.haltFill_stepping (t a b c d e : Nat) : (s.haltFill t a b c d e).stepping = s.stepping := by
  obtain ⟨_, h⟩ := State.haltFill_frame s t a b c d e; rw [h]
@[simp] theorem State.haltFill_mem (t a b c d e : Nat) : (s.haltFill t a b c d e).mem = s.mem := by
  obtain ⟨_, h⟩ := State.haltFill_frame s t a b c d e; rw [h]
@[simp] theorem State.haltFill_byte (t a b c d e : Nat) (x : Nat) : (s.haltFill t a b c d e).byte x = s.byte x := by
  obtain ⟨_, h⟩ := State.haltFill_frame s t a b c d e; rw [h]; rfl
@[simp] theorem State.haltFill_tiles (t a b c d e : Nat) : (s.haltFill t a b c d e).tiles = s.tiles := by
  obtain ⟨_, h⟩ := State.haltFill_frame s t a b c d e; rw [h]
@[simp] theorem State.haltFill_tile (t a b c d e : Nat) (x : Nat) : (s.haltFill t a b c d e).tile x = s.tile x := by
  obtain ⟨_, h⟩ := State.haltFill_frame s t a b c d e; rw [h]; rfl
@[simp] theorem State.haltFill_hub (t a b c d e : Nat) : (s.haltFill t a b c d e).hub = s.hub := by
  obtain ⟨_, h⟩ := State.haltFill_frame s t a b c d e; rw [h]
@[simp] theorem State.haltFill_quays (t a b c d e : Nat) : (s.haltFill t a b c d e).quays = s.quays := by
  obtain ⟨_, h⟩ := State.haltFill_frame s t a b c d e; rw [h]
@[simp] theorem State.haltFill_quay (t a b c d e : Nat) (x : Nat) : (s.haltFill t a b c d e).quay x = s.quay x := by
  obtain ⟨_, h⟩ := State.haltFill_frame s t a b c d e; rw [h]; rfl
@[simp] theorem State.haltFill_cores (t a b c d e : Nat) : (s.haltFill t a b c d e).cores = s.cores := by
  obtain ⟨_, h⟩ := State.haltFill_frame s t a b c d e; rw [h]
@[simp] theorem State.haltFill_core (t a b c d e : Nat) (x : Nat) : (s.haltFill t a b c d e).core x = s.core x := by
  obtain ⟨_, h⟩ := State.haltFill_frame s t a b c d e; rw [h]; rfl
@[simp] theorem State.haltFill_cache (t a b c d e : Nat) : (s.haltFill t a b c d e).cache = s.cache := by
  obtain ⟨_, h⟩ := State.haltFill_frame s t a b c d e; rw [h]
@[simp] theorem State.haltFill_roster (t a b c d e : Nat) : (s.haltFill t a b c d e).roster = s.roster := by
  obtain ⟨_, h⟩ := State.haltFill_frame s t a b c d e; rw [h]
@[simp] theorem State.haltFill_engs (t a b c d e : Nat) : (s.haltFill t a b c d e).engs = s.engs := by
  obtain ⟨_, h⟩ := State.haltFill_frame s t a b c d e; rw [h]
@[simp] theorem State.haltFill_eng (t a b c d e : Nat) (x : Nat) : (s.haltFill t a b c d e).eng x = s.eng x := by
  obtain ⟨_, h⟩ := State.haltFill_frame s t a b c d e; rw [h]; rfl
@[simp] theorem State.haltFill_ports (t a b c d e : Nat) : (s.haltFill t a b c d e).ports = s.ports := by
  obtain ⟨_, h⟩ := State.haltFill_frame s t a b c d e; rw [h]
@[simp] theorem State.haltFill_port (t a b c d e : Nat) (x : Nat) : (s.haltFill t a b c d e).port x = s.port x := by
  obtain ⟨_, h⟩ := State.haltFill_frame s t a b c d e; rw [h]; rfl
@[simp] theorem State.haltFill_fault (t a b c d e : Nat) : (s.haltFill t a b c d e).fault = s.fault := by
  obtain ⟨_, h⟩ := State.haltFill_frame s t a b c d e; rw [h]
@[simp] theorem State.haltFill_pins (t a b c d e : Nat) : (s.haltFill t a b c d e).pins = s.pins := by
  obtain ⟨_, h⟩ := State.haltFill_frame s t a b c d e; rw [h]
@[simp] theorem State.haltFill_power (t a b c d e : Nat) : (s.haltFill t a b c d e).power = s.power := by
  obtain ⟨_, h⟩ := State.haltFill_frame s t a b c d e; rw [h]
@[simp] theorem State.haltFill_ctl (t a b c d e : Nat) : (s.haltFill t a b c d e).ctl = s.ctl := by
  obtain ⟨_, h⟩ := State.haltFill_frame s t a b c d e; rw [h]
@[simp] theorem State.haltFill_boot (t a b c d e : Nat) : (s.haltFill t a b c d e).boot = s.boot := by
  obtain ⟨_, h⟩ := State.haltFill_frame s t a b c d e; rw [h]
@[simp] theorem State.haltFill_free (t a b c d e : Nat) : (s.haltFill t a b c d e).free = s.free := by
  obtain ⟨_, h⟩ := State.haltFill_frame s t a b c d e; rw [h]
@[simp] theorem State.haltFill_tc (t a b c d e : Nat) : (s.haltFill t a b c d e).tc = s.tc := by
  obtain ⟨_, h⟩ := State.haltFill_frame s t a b c d e; rw [h]
@[simp] theorem State.haltFill_tick (t a b c d e : Nat) : (s.haltFill t a b c d e).tick = s.tick := by
  obtain ⟨_, h⟩ := State.haltFill_frame s t a b c d e; rw [h]
@[simp] theorem State.haltFill_pending (t a b c d e : Nat) : (s.haltFill t a b c d e).pending = s.pending := by
  obtain ⟨_, h⟩ := State.haltFill_frame s t a b c d e; rw [h]

/-- haltRecord changes nothing but rf, fault, pins, ctl. -/
theorem State.haltRecord_frame (t a b c d e : Nat) : ∃ x0 x1 x2 x3, s.haltRecord t a b c d e = { s with rf := x0, fault := x1, pins := x2, ctl := x3 } := by
  refine ⟨(s.haltRecord t a b c d e).rf, (s.haltRecord t a b c d e).fault, (s.haltRecord t a b c d e).pins, (s.haltRecord t a b c d e).ctl, State.ext_iff.2 ⟨?_, ?_, ?_, ?_, ?_, ?_, ?_, ?_, ?_, ?_, ?_, ?_, ?_, ?_, ?_, ?_, ?_, ?_, ?_, ?_⟩⟩ <;> dsimp only <;>
    (rw [State.haltRecord]; simp)
@[simp] theorem State.haltRecord_stepping (t a b c d e : Nat) : (s.haltRecord t a b c d e).stepping = s.stepping := by
  obtain ⟨_, _, _, _, h⟩ := State.haltRecord_frame s t a b c d e; rw [h]
@[simp] theorem State.haltRecord_mem (t a b c d e : Nat) : (s.haltRecord t a b c d e).mem = s.mem := by
  obtain ⟨_, _, _, _, h⟩ := State.haltRecord_frame s t a b c d e; rw [h]
@[simp] theorem State.haltRecord_byte (t a b c d e : Nat) (x : Nat) : (s.haltRecord t a b c d e).byte x = s.byte x := by
  obtain ⟨_, _, _, _, h⟩ := State.haltRecord_frame s t a b c d e; rw [h]; rfl
@[simp] theorem State.haltRecord_tiles (t a b c d e : Nat) : (s.haltRecord t a b c d e).tiles = s.tiles := by
  obtain ⟨_, _, _, _, h⟩ := State.haltRecord_frame s t a b c d e; rw [h]
@[simp] theorem State.haltRecord_tile (t a b c d e : Nat) (x : Nat) : (s.haltRecord t a b c d e).tile x = s.tile x := by
  obtain ⟨_, _, _, _, h⟩ := State.haltRecord_frame s t a b c d e; rw [h]; rfl
@[simp] theorem State.haltRecord_hub (t a b c d e : Nat) : (s.haltRecord t a b c d e).hub = s.hub := by
  obtain ⟨_, _, _, _, h⟩ := State.haltRecord_frame s t a b c d e; rw [h]
@[simp] theorem State.haltRecord_quays (t a b c d e : Nat) : (s.haltRecord t a b c d e).quays = s.quays := by
  obtain ⟨_, _, _, _, h⟩ := State.haltRecord_frame s t a b c d e; rw [h]
@[simp] theorem State.haltRecord_quay (t a b c d e : Nat) (x : Nat) : (s.haltRecord t a b c d e).quay x = s.quay x := by
  obtain ⟨_, _, _, _, h⟩ := State.haltRecord_frame s t a b c d e; rw [h]; rfl
@[simp] theorem State.haltRecord_cores (t a b c d e : Nat) : (s.haltRecord t a b c d e).cores = s.cores := by
  obtain ⟨_, _, _, _, h⟩ := State.haltRecord_frame s t a b c d e; rw [h]
@[simp] theorem State.haltRecord_core (t a b c d e : Nat) (x : Nat) : (s.haltRecord t a b c d e).core x = s.core x := by
  obtain ⟨_, _, _, _, h⟩ := State.haltRecord_frame s t a b c d e; rw [h]; rfl
@[simp] theorem State.haltRecord_cache (t a b c d e : Nat) : (s.haltRecord t a b c d e).cache = s.cache := by
  obtain ⟨_, _, _, _, h⟩ := State.haltRecord_frame s t a b c d e; rw [h]
@[simp] theorem State.haltRecord_roster (t a b c d e : Nat) : (s.haltRecord t a b c d e).roster = s.roster := by
  obtain ⟨_, _, _, _, h⟩ := State.haltRecord_frame s t a b c d e; rw [h]
@[simp] theorem State.haltRecord_engs (t a b c d e : Nat) : (s.haltRecord t a b c d e).engs = s.engs := by
  obtain ⟨_, _, _, _, h⟩ := State.haltRecord_frame s t a b c d e; rw [h]
@[simp] theorem State.haltRecord_eng (t a b c d e : Nat) (x : Nat) : (s.haltRecord t a b c d e).eng x = s.eng x := by
  obtain ⟨_, _, _, _, h⟩ := State.haltRecord_frame s t a b c d e; rw [h]; rfl
@[simp] theorem State.haltRecord_ports (t a b c d e : Nat) : (s.haltRecord t a b c d e).ports = s.ports := by
  obtain ⟨_, _, _, _, h⟩ := State.haltRecord_frame s t a b c d e; rw [h]
@[simp] theorem State.haltRecord_port (t a b c d e : Nat) (x : Nat) : (s.haltRecord t a b c d e).port x = s.port x := by
  obtain ⟨_, _, _, _, h⟩ := State.haltRecord_frame s t a b c d e; rw [h]; rfl
@[simp] theorem State.haltRecord_power (t a b c d e : Nat) : (s.haltRecord t a b c d e).power = s.power := by
  obtain ⟨_, _, _, _, h⟩ := State.haltRecord_frame s t a b c d e; rw [h]
@[simp] theorem State.haltRecord_boot (t a b c d e : Nat) : (s.haltRecord t a b c d e).boot = s.boot := by
  obtain ⟨_, _, _, _, h⟩ := State.haltRecord_frame s t a b c d e; rw [h]
@[simp] theorem State.haltRecord_free (t a b c d e : Nat) : (s.haltRecord t a b c d e).free = s.free := by
  obtain ⟨_, _, _, _, h⟩ := State.haltRecord_frame s t a b c d e; rw [h]
@[simp] theorem State.haltRecord_tc (t a b c d e : Nat) : (s.haltRecord t a b c d e).tc = s.tc := by
  obtain ⟨_, _, _, _, h⟩ := State.haltRecord_frame s t a b c d e; rw [h]
@[simp] theorem State.haltRecord_tick (t a b c d e : Nat) : (s.haltRecord t a b c d e).tick = s.tick := by
  obtain ⟨_, _, _, _, h⟩ := State.haltRecord_frame s t a b c d e; rw [h]
@[simp] theorem State.haltRecord_pending (t a b c d e : Nat) : (s.haltRecord t a b c d e).pending = s.pending := by
  obtain ⟨_, _, _, _, h⟩ := State.haltRecord_frame s t a b c d e; rw [h]

/-- returnToken changes nothing but rf. -/
theorem State.returnToken_frame (t : Nat) : ∃ x0, s.returnToken t = { s with rf := x0 } := by
  refine ⟨(s.returnToken t).rf, State.ext_iff.2 ⟨?_, ?_, ?_, ?_, ?_, ?_, ?_, ?_, ?_, ?_, ?_, ?_, ?_, ?_, ?_, ?_, ?_, ?_, ?_, ?_⟩⟩ <;> dsimp only <;>
    (rw [State.returnToken]; simp)
@[simp] theorem State.returnToken_stepping (t : Nat) : (s.returnToken t).stepping = s.stepping := by
  obtain ⟨_, h⟩ := State.returnToken_frame s t; rw [h]
@[simp] theorem State.returnToken_mem (t : Nat) : (s.returnToken t).mem = s.mem := by
  obtain ⟨_, h⟩ := State.returnToken_frame s t; rw [h]
@[simp] theorem State.returnToken_byte (t : Nat) (x : Nat) : (s.returnToken t).byte x = s.byte x := by
  obtain ⟨_, h⟩ := State.returnToken_frame s t; rw [h]; rfl
@[simp] theorem State.returnToken_tiles (t : Nat) : (s.returnToken t).tiles = s.tiles := by
  obtain ⟨_, h⟩ := State.returnToken_frame s t; rw [h]
@[simp] theorem State.returnToken_tile (t : Nat) (x : Nat) : (s.returnToken t).tile x = s.tile x := by
  obtain ⟨_, h⟩ := State.returnToken_frame s t; rw [h]; rfl
@[simp] theorem State.returnToken_hub (t : Nat) : (s.returnToken t).hub = s.hub := by
  obtain ⟨_, h⟩ := State.returnToken_frame s t; rw [h]
@[simp] theorem State.returnToken_quays (t : Nat) : (s.returnToken t).quays = s.quays := by
  obtain ⟨_, h⟩ := State.returnToken_frame s t; rw [h]
@[simp] theorem State.returnToken_quay (t : Nat) (x : Nat) : (s.returnToken t).quay x = s.quay x := by
  obtain ⟨_, h⟩ := State.returnToken_frame s t; rw [h]; rfl
@[simp] theorem State.returnToken_cores (t : Nat) : (s.returnToken t).cores = s.cores := by
  obtain ⟨_, h⟩ := State.returnToken_frame s t; rw [h]
@[simp] theorem State.returnToken_core (t : Nat) (x : Nat) : (s.returnToken t).core x = s.core x := by
  obtain ⟨_, h⟩ := State.returnToken_frame s t; rw [h]; rfl
@[simp] theorem State.returnToken_cache (t : Nat) : (s.returnToken t).cache = s.cache := by
  obtain ⟨_, h⟩ := State.returnToken_frame s t; rw [h]
@[simp] theorem State.returnToken_roster (t : Nat) : (s.returnToken t).roster = s.roster := by
  obtain ⟨_, h⟩ := State.returnToken_frame s t; rw [h]
@[simp] theorem State.returnToken_engs (t : Nat) : (s.returnToken t).engs = s.engs := by
  obtain ⟨_, h⟩ := State.returnToken_frame s t; rw [h]
@[simp] theorem State.returnToken_eng (t : Nat) (x : Nat) : (s.returnToken t).eng x = s.eng x := by
  obtain ⟨_, h⟩ := State.returnToken_frame s t; rw [h]; rfl
@[simp] theorem State.returnToken_ports (t : Nat) : (s.returnToken t).ports = s.ports := by
  obtain ⟨_, h⟩ := State.returnToken_frame s t; rw [h]
@[simp] theorem State.returnToken_port (t : Nat) (x : Nat) : (s.returnToken t).port x = s.port x := by
  obtain ⟨_, h⟩ := State.returnToken_frame s t; rw [h]; rfl
@[simp] theorem State.returnToken_fault (t : Nat) : (s.returnToken t).fault = s.fault := by
  obtain ⟨_, h⟩ := State.returnToken_frame s t; rw [h]
@[simp] theorem State.returnToken_pins (t : Nat) : (s.returnToken t).pins = s.pins := by
  obtain ⟨_, h⟩ := State.returnToken_frame s t; rw [h]
@[simp] theorem State.returnToken_power (t : Nat) : (s.returnToken t).power = s.power := by
  obtain ⟨_, h⟩ := State.returnToken_frame s t; rw [h]
@[simp] theorem State.returnToken_ctl (t : Nat) : (s.returnToken t).ctl = s.ctl := by
  obtain ⟨_, h⟩ := State.returnToken_frame s t; rw [h]
@[simp] theorem State.returnToken_boot (t : Nat) : (s.returnToken t).boot = s.boot := by
  obtain ⟨_, h⟩ := State.returnToken_frame s t; rw [h]
@[simp] theorem State.returnToken_free (t : Nat) : (s.returnToken t).free = s.free := by
  obtain ⟨_, h⟩ := State.returnToken_frame s t; rw [h]
@[simp] theorem State.returnToken_tc (t : Nat) : (s.returnToken t).tc = s.tc := by
  obtain ⟨_, h⟩ := State.returnToken_frame s t; rw [h]
@[simp] theorem State.returnToken_tick (t : Nat) : (s.returnToken t).tick = s.tick := by
  obtain ⟨_, h⟩ := State.returnToken_frame s t; rw [h]
@[simp] theorem State.returnToken_pending (t : Nat) : (s.returnToken t).pending = s.pending := by
  obtain ⟨_, h⟩ := State.returnToken_frame s t; rw [h]

/-- tokenCheck changes nothing but rf. -/
theorem State.tokenCheck_frame (t : Nat) : ∃ x0, s.tokenCheck t = { s with rf := x0 } := by
  refine ⟨(s.tokenCheck t).rf, State.ext_iff.2 ⟨?_, ?_, ?_, ?_, ?_, ?_, ?_, ?_, ?_, ?_, ?_, ?_, ?_, ?_, ?_, ?_, ?_, ?_, ?_, ?_⟩⟩ <;> dsimp only <;>
    (rw [State.tokenCheck]; simp)
@[simp] theorem State.tokenCheck_stepping (t : Nat) : (s.tokenCheck t).stepping = s.stepping := by
  obtain ⟨_, h⟩ := State.tokenCheck_frame s t; rw [h]
@[simp] theorem State.tokenCheck_mem (t : Nat) : (s.tokenCheck t).mem = s.mem := by
  obtain ⟨_, h⟩ := State.tokenCheck_frame s t; rw [h]
@[simp] theorem State.tokenCheck_byte (t : Nat) (x : Nat) : (s.tokenCheck t).byte x = s.byte x := by
  obtain ⟨_, h⟩ := State.tokenCheck_frame s t; rw [h]; rfl
@[simp] theorem State.tokenCheck_tiles (t : Nat) : (s.tokenCheck t).tiles = s.tiles := by
  obtain ⟨_, h⟩ := State.tokenCheck_frame s t; rw [h]
@[simp] theorem State.tokenCheck_tile (t : Nat) (x : Nat) : (s.tokenCheck t).tile x = s.tile x := by
  obtain ⟨_, h⟩ := State.tokenCheck_frame s t; rw [h]; rfl
@[simp] theorem State.tokenCheck_hub (t : Nat) : (s.tokenCheck t).hub = s.hub := by
  obtain ⟨_, h⟩ := State.tokenCheck_frame s t; rw [h]
@[simp] theorem State.tokenCheck_quays (t : Nat) : (s.tokenCheck t).quays = s.quays := by
  obtain ⟨_, h⟩ := State.tokenCheck_frame s t; rw [h]
@[simp] theorem State.tokenCheck_quay (t : Nat) (x : Nat) : (s.tokenCheck t).quay x = s.quay x := by
  obtain ⟨_, h⟩ := State.tokenCheck_frame s t; rw [h]; rfl
@[simp] theorem State.tokenCheck_cores (t : Nat) : (s.tokenCheck t).cores = s.cores := by
  obtain ⟨_, h⟩ := State.tokenCheck_frame s t; rw [h]
@[simp] theorem State.tokenCheck_core (t : Nat) (x : Nat) : (s.tokenCheck t).core x = s.core x := by
  obtain ⟨_, h⟩ := State.tokenCheck_frame s t; rw [h]; rfl
@[simp] theorem State.tokenCheck_cache (t : Nat) : (s.tokenCheck t).cache = s.cache := by
  obtain ⟨_, h⟩ := State.tokenCheck_frame s t; rw [h]
@[simp] theorem State.tokenCheck_roster (t : Nat) : (s.tokenCheck t).roster = s.roster := by
  obtain ⟨_, h⟩ := State.tokenCheck_frame s t; rw [h]
@[simp] theorem State.tokenCheck_engs (t : Nat) : (s.tokenCheck t).engs = s.engs := by
  obtain ⟨_, h⟩ := State.tokenCheck_frame s t; rw [h]
@[simp] theorem State.tokenCheck_eng (t : Nat) (x : Nat) : (s.tokenCheck t).eng x = s.eng x := by
  obtain ⟨_, h⟩ := State.tokenCheck_frame s t; rw [h]; rfl
@[simp] theorem State.tokenCheck_ports (t : Nat) : (s.tokenCheck t).ports = s.ports := by
  obtain ⟨_, h⟩ := State.tokenCheck_frame s t; rw [h]
@[simp] theorem State.tokenCheck_port (t : Nat) (x : Nat) : (s.tokenCheck t).port x = s.port x := by
  obtain ⟨_, h⟩ := State.tokenCheck_frame s t; rw [h]; rfl
@[simp] theorem State.tokenCheck_fault (t : Nat) : (s.tokenCheck t).fault = s.fault := by
  obtain ⟨_, h⟩ := State.tokenCheck_frame s t; rw [h]
@[simp] theorem State.tokenCheck_pins (t : Nat) : (s.tokenCheck t).pins = s.pins := by
  obtain ⟨_, h⟩ := State.tokenCheck_frame s t; rw [h]
@[simp] theorem State.tokenCheck_power (t : Nat) : (s.tokenCheck t).power = s.power := by
  obtain ⟨_, h⟩ := State.tokenCheck_frame s t; rw [h]
@[simp] theorem State.tokenCheck_ctl (t : Nat) : (s.tokenCheck t).ctl = s.ctl := by
  obtain ⟨_, h⟩ := State.tokenCheck_frame s t; rw [h]
@[simp] theorem State.tokenCheck_boot (t : Nat) : (s.tokenCheck t).boot = s.boot := by
  obtain ⟨_, h⟩ := State.tokenCheck_frame s t; rw [h]
@[simp] theorem State.tokenCheck_free (t : Nat) : (s.tokenCheck t).free = s.free := by
  obtain ⟨_, h⟩ := State.tokenCheck_frame s t; rw [h]
@[simp] theorem State.tokenCheck_tc (t : Nat) : (s.tokenCheck t).tc = s.tc := by
  obtain ⟨_, h⟩ := State.tokenCheck_frame s t; rw [h]
@[simp] theorem State.tokenCheck_tick (t : Nat) : (s.tokenCheck t).tick = s.tick := by
  obtain ⟨_, h⟩ := State.tokenCheck_frame s t; rw [h]
@[simp] theorem State.tokenCheck_pending (t : Nat) : (s.tokenCheck t).pending = s.pending := by
  obtain ⟨_, h⟩ := State.tokenCheck_frame s t; rw [h]

/-- dropPosts changes nothing but quays. -/
theorem State.dropPosts_frame (t : Nat) : ∃ x0, s.dropPosts t = { s with quays := x0 } := by
  exact ⟨_, rfl⟩
@[simp] theorem State.dropPosts_stepping (t : Nat) : (s.dropPosts t).stepping = s.stepping := by
  obtain ⟨_, h⟩ := State.dropPosts_frame s t; rw [h]
@[simp] theorem State.dropPosts_rf (t : Nat) : (s.dropPosts t).rf = s.rf := by
  obtain ⟨_, h⟩ := State.dropPosts_frame s t; rw [h]
@[simp] theorem State.dropPosts_rd (t : Nat) (g : Fld) (u' i' : Nat) : (s.dropPosts t).rd g u' i' = s.rd g u' i' := by
  obtain ⟨_, h⟩ := State.dropPosts_frame s t; rw [h]; rfl
@[simp] theorem State.dropPosts_mem (t : Nat) : (s.dropPosts t).mem = s.mem := by
  obtain ⟨_, h⟩ := State.dropPosts_frame s t; rw [h]
@[simp] theorem State.dropPosts_byte (t : Nat) (x : Nat) : (s.dropPosts t).byte x = s.byte x := by
  obtain ⟨_, h⟩ := State.dropPosts_frame s t; rw [h]; rfl
@[simp] theorem State.dropPosts_tiles (t : Nat) : (s.dropPosts t).tiles = s.tiles := by
  obtain ⟨_, h⟩ := State.dropPosts_frame s t; rw [h]
@[simp] theorem State.dropPosts_tile (t : Nat) (x : Nat) : (s.dropPosts t).tile x = s.tile x := by
  obtain ⟨_, h⟩ := State.dropPosts_frame s t; rw [h]; rfl
@[simp] theorem State.dropPosts_hub (t : Nat) : (s.dropPosts t).hub = s.hub := by
  obtain ⟨_, h⟩ := State.dropPosts_frame s t; rw [h]
@[simp] theorem State.dropPosts_cores (t : Nat) : (s.dropPosts t).cores = s.cores := by
  obtain ⟨_, h⟩ := State.dropPosts_frame s t; rw [h]
@[simp] theorem State.dropPosts_core (t : Nat) (x : Nat) : (s.dropPosts t).core x = s.core x := by
  obtain ⟨_, h⟩ := State.dropPosts_frame s t; rw [h]; rfl
@[simp] theorem State.dropPosts_cache (t : Nat) : (s.dropPosts t).cache = s.cache := by
  obtain ⟨_, h⟩ := State.dropPosts_frame s t; rw [h]
@[simp] theorem State.dropPosts_roster (t : Nat) : (s.dropPosts t).roster = s.roster := by
  obtain ⟨_, h⟩ := State.dropPosts_frame s t; rw [h]
@[simp] theorem State.dropPosts_engs (t : Nat) : (s.dropPosts t).engs = s.engs := by
  obtain ⟨_, h⟩ := State.dropPosts_frame s t; rw [h]
@[simp] theorem State.dropPosts_eng (t : Nat) (x : Nat) : (s.dropPosts t).eng x = s.eng x := by
  obtain ⟨_, h⟩ := State.dropPosts_frame s t; rw [h]; rfl
@[simp] theorem State.dropPosts_ports (t : Nat) : (s.dropPosts t).ports = s.ports := by
  obtain ⟨_, h⟩ := State.dropPosts_frame s t; rw [h]
@[simp] theorem State.dropPosts_port (t : Nat) (x : Nat) : (s.dropPosts t).port x = s.port x := by
  obtain ⟨_, h⟩ := State.dropPosts_frame s t; rw [h]; rfl
@[simp] theorem State.dropPosts_fault (t : Nat) : (s.dropPosts t).fault = s.fault := by
  obtain ⟨_, h⟩ := State.dropPosts_frame s t; rw [h]
@[simp] theorem State.dropPosts_pins (t : Nat) : (s.dropPosts t).pins = s.pins := by
  obtain ⟨_, h⟩ := State.dropPosts_frame s t; rw [h]
@[simp] theorem State.dropPosts_power (t : Nat) : (s.dropPosts t).power = s.power := by
  obtain ⟨_, h⟩ := State.dropPosts_frame s t; rw [h]
@[simp] theorem State.dropPosts_ctl (t : Nat) : (s.dropPosts t).ctl = s.ctl := by
  obtain ⟨_, h⟩ := State.dropPosts_frame s t; rw [h]
@[simp] theorem State.dropPosts_boot (t : Nat) : (s.dropPosts t).boot = s.boot := by
  obtain ⟨_, h⟩ := State.dropPosts_frame s t; rw [h]
@[simp] theorem State.dropPosts_free (t : Nat) : (s.dropPosts t).free = s.free := by
  obtain ⟨_, h⟩ := State.dropPosts_frame s t; rw [h]
@[simp] theorem State.dropPosts_tc (t : Nat) : (s.dropPosts t).tc = s.tc := by
  obtain ⟨_, h⟩ := State.dropPosts_frame s t; rw [h]
@[simp] theorem State.dropPosts_tick (t : Nat) : (s.dropPosts t).tick = s.tick := by
  obtain ⟨_, h⟩ := State.dropPosts_frame s t; rw [h]
@[simp] theorem State.dropPosts_pending (t : Nat) : (s.dropPosts t).pending = s.pending := by
  obtain ⟨_, h⟩ := State.dropPosts_frame s t; rw [h]

/-- dropWait changes nothing but rf, hub, quays, tiles. -/
theorem State.dropWait_frame (t : Nat) : ∃ x0 x1 x2 x3, s.dropWait t = { s with rf := x0, hub := x1, quays := x2, tiles := x3 } := by
  refine ⟨(s.dropWait t).rf, (s.dropWait t).hub, (s.dropWait t).quays, (s.dropWait t).tiles, State.ext_iff.2 ⟨?_, ?_, ?_, ?_, ?_, ?_, ?_, ?_, ?_, ?_, ?_, ?_, ?_, ?_, ?_, ?_, ?_, ?_, ?_, ?_⟩⟩ <;> dsimp only <;>
    (rw [State.dropWait]; simp)
@[simp] theorem State.dropWait_stepping (t : Nat) : (s.dropWait t).stepping = s.stepping := by
  obtain ⟨_, _, _, _, h⟩ := State.dropWait_frame s t; rw [h]
@[simp] theorem State.dropWait_mem (t : Nat) : (s.dropWait t).mem = s.mem := by
  obtain ⟨_, _, _, _, h⟩ := State.dropWait_frame s t; rw [h]
@[simp] theorem State.dropWait_byte (t : Nat) (x : Nat) : (s.dropWait t).byte x = s.byte x := by
  obtain ⟨_, _, _, _, h⟩ := State.dropWait_frame s t; rw [h]; rfl
@[simp] theorem State.dropWait_cores (t : Nat) : (s.dropWait t).cores = s.cores := by
  obtain ⟨_, _, _, _, h⟩ := State.dropWait_frame s t; rw [h]
@[simp] theorem State.dropWait_core (t : Nat) (x : Nat) : (s.dropWait t).core x = s.core x := by
  obtain ⟨_, _, _, _, h⟩ := State.dropWait_frame s t; rw [h]; rfl
@[simp] theorem State.dropWait_cache (t : Nat) : (s.dropWait t).cache = s.cache := by
  obtain ⟨_, _, _, _, h⟩ := State.dropWait_frame s t; rw [h]
@[simp] theorem State.dropWait_roster (t : Nat) : (s.dropWait t).roster = s.roster := by
  obtain ⟨_, _, _, _, h⟩ := State.dropWait_frame s t; rw [h]
@[simp] theorem State.dropWait_engs (t : Nat) : (s.dropWait t).engs = s.engs := by
  obtain ⟨_, _, _, _, h⟩ := State.dropWait_frame s t; rw [h]
@[simp] theorem State.dropWait_eng (t : Nat) (x : Nat) : (s.dropWait t).eng x = s.eng x := by
  obtain ⟨_, _, _, _, h⟩ := State.dropWait_frame s t; rw [h]; rfl
@[simp] theorem State.dropWait_ports (t : Nat) : (s.dropWait t).ports = s.ports := by
  obtain ⟨_, _, _, _, h⟩ := State.dropWait_frame s t; rw [h]
@[simp] theorem State.dropWait_port (t : Nat) (x : Nat) : (s.dropWait t).port x = s.port x := by
  obtain ⟨_, _, _, _, h⟩ := State.dropWait_frame s t; rw [h]; rfl
@[simp] theorem State.dropWait_fault (t : Nat) : (s.dropWait t).fault = s.fault := by
  obtain ⟨_, _, _, _, h⟩ := State.dropWait_frame s t; rw [h]
@[simp] theorem State.dropWait_pins (t : Nat) : (s.dropWait t).pins = s.pins := by
  obtain ⟨_, _, _, _, h⟩ := State.dropWait_frame s t; rw [h]
@[simp] theorem State.dropWait_power (t : Nat) : (s.dropWait t).power = s.power := by
  obtain ⟨_, _, _, _, h⟩ := State.dropWait_frame s t; rw [h]
@[simp] theorem State.dropWait_ctl (t : Nat) : (s.dropWait t).ctl = s.ctl := by
  obtain ⟨_, _, _, _, h⟩ := State.dropWait_frame s t; rw [h]
@[simp] theorem State.dropWait_boot (t : Nat) : (s.dropWait t).boot = s.boot := by
  obtain ⟨_, _, _, _, h⟩ := State.dropWait_frame s t; rw [h]
@[simp] theorem State.dropWait_free (t : Nat) : (s.dropWait t).free = s.free := by
  obtain ⟨_, _, _, _, h⟩ := State.dropWait_frame s t; rw [h]
@[simp] theorem State.dropWait_tc (t : Nat) : (s.dropWait t).tc = s.tc := by
  obtain ⟨_, _, _, _, h⟩ := State.dropWait_frame s t; rw [h]
@[simp] theorem State.dropWait_tick (t : Nat) : (s.dropWait t).tick = s.tick := by
  obtain ⟨_, _, _, _, h⟩ := State.dropWait_frame s t; rw [h]
@[simp] theorem State.dropWait_pending (t : Nat) : (s.dropWait t).pending = s.pending := by
  obtain ⟨_, _, _, _, h⟩ := State.dropWait_frame s t; rw [h]

/-- halt changes nothing but rf, hub, quays, tiles, fault, pins, ctl. -/
theorem State.halt_frame (t a b c d e : Nat) : ∃ x0 x1 x2 x3 x4 x5 x6, s.halt t a b c d e = { s with rf := x0, hub := x1, quays := x2, tiles := x3, fault := x4, pins := x5, ctl := x6 } := by
  refine ⟨(s.halt t a b c d e).rf, (s.halt t a b c d e).hub, (s.halt t a b c d e).quays, (s.halt t a b c d e).tiles, (s.halt t a b c d e).fault, (s.halt t a b c d e).pins, (s.halt t a b c d e).ctl, State.ext_iff.2 ⟨?_, ?_, ?_, ?_, ?_, ?_, ?_, ?_, ?_, ?_, ?_, ?_, ?_, ?_, ?_, ?_, ?_, ?_, ?_, ?_⟩⟩ <;> dsimp only <;>
    (rw [State.halt]; simp)
@[simp] theorem State.halt_stepping (t a b c d e : Nat) : (s.halt t a b c d e).stepping = s.stepping := by
  obtain ⟨_, _, _, _, _, _, _, h⟩ := State.halt_frame s t a b c d e; rw [h]
@[simp] theorem State.halt_mem (t a b c d e : Nat) : (s.halt t a b c d e).mem = s.mem := by
  obtain ⟨_, _, _, _, _, _, _, h⟩ := State.halt_frame s t a b c d e; rw [h]
@[simp] theorem State.halt_byte (t a b c d e : Nat) (x : Nat) : (s.halt t a b c d e).byte x = s.byte x := by
  obtain ⟨_, _, _, _, _, _, _, h⟩ := State.halt_frame s t a b c d e; rw [h]; rfl
@[simp] theorem State.halt_cores (t a b c d e : Nat) : (s.halt t a b c d e).cores = s.cores := by
  obtain ⟨_, _, _, _, _, _, _, h⟩ := State.halt_frame s t a b c d e; rw [h]
@[simp] theorem State.halt_core (t a b c d e : Nat) (x : Nat) : (s.halt t a b c d e).core x = s.core x := by
  obtain ⟨_, _, _, _, _, _, _, h⟩ := State.halt_frame s t a b c d e; rw [h]; rfl
@[simp] theorem State.halt_cache (t a b c d e : Nat) : (s.halt t a b c d e).cache = s.cache := by
  obtain ⟨_, _, _, _, _, _, _, h⟩ := State.halt_frame s t a b c d e; rw [h]
@[simp] theorem State.halt_roster (t a b c d e : Nat) : (s.halt t a b c d e).roster = s.roster := by
  obtain ⟨_, _, _, _, _, _, _, h⟩ := State.halt_frame s t a b c d e; rw [h]
@[simp] theorem State.halt_engs (t a b c d e : Nat) : (s.halt t a b c d e).engs = s.engs := by
  obtain ⟨_, _, _, _, _, _, _, h⟩ := State.halt_frame s t a b c d e; rw [h]
@[simp] theorem State.halt_eng (t a b c d e : Nat) (x : Nat) : (s.halt t a b c d e).eng x = s.eng x := by
  obtain ⟨_, _, _, _, _, _, _, h⟩ := State.halt_frame s t a b c d e; rw [h]; rfl
@[simp] theorem State.halt_ports (t a b c d e : Nat) : (s.halt t a b c d e).ports = s.ports := by
  obtain ⟨_, _, _, _, _, _, _, h⟩ := State.halt_frame s t a b c d e; rw [h]
@[simp] theorem State.halt_port (t a b c d e : Nat) (x : Nat) : (s.halt t a b c d e).port x = s.port x := by
  obtain ⟨_, _, _, _, _, _, _, h⟩ := State.halt_frame s t a b c d e; rw [h]; rfl
@[simp] theorem State.halt_power (t a b c d e : Nat) : (s.halt t a b c d e).power = s.power := by
  obtain ⟨_, _, _, _, _, _, _, h⟩ := State.halt_frame s t a b c d e; rw [h]
@[simp] theorem State.halt_boot (t a b c d e : Nat) : (s.halt t a b c d e).boot = s.boot := by
  obtain ⟨_, _, _, _, _, _, _, h⟩ := State.halt_frame s t a b c d e; rw [h]
@[simp] theorem State.halt_free (t a b c d e : Nat) : (s.halt t a b c d e).free = s.free := by
  obtain ⟨_, _, _, _, _, _, _, h⟩ := State.halt_frame s t a b c d e; rw [h]
@[simp] theorem State.halt_tc (t a b c d e : Nat) : (s.halt t a b c d e).tc = s.tc := by
  obtain ⟨_, _, _, _, _, _, _, h⟩ := State.halt_frame s t a b c d e; rw [h]
@[simp] theorem State.halt_tick (t a b c d e : Nat) : (s.halt t a b c d e).tick = s.tick := by
  obtain ⟨_, _, _, _, _, _, _, h⟩ := State.halt_frame s t a b c d e; rw [h]
@[simp] theorem State.halt_pending (t a b c d e : Nat) : (s.halt t a b c d e).pending = s.pending := by
  obtain ⟨_, _, _, _, _, _, _, h⟩ := State.halt_frame s t a b c d e; rw [h]

/-- evlog changes nothing but rf. -/
theorem State.evlog_frame (t a b c : Nat) : ∃ x0, s.evlog t a b c = { s with rf := x0 } := by
  refine ⟨(s.evlog t a b c).rf, State.ext_iff.2 ⟨?_, ?_, ?_, ?_, ?_, ?_, ?_, ?_, ?_, ?_, ?_, ?_, ?_, ?_, ?_, ?_, ?_, ?_, ?_, ?_⟩⟩ <;> dsimp only <;>
    (rw [State.evlog]; simp)
@[simp] theorem State.evlog_stepping (t a b c : Nat) : (s.evlog t a b c).stepping = s.stepping := by
  obtain ⟨_, h⟩ := State.evlog_frame s t a b c; rw [h]
@[simp] theorem State.evlog_mem (t a b c : Nat) : (s.evlog t a b c).mem = s.mem := by
  obtain ⟨_, h⟩ := State.evlog_frame s t a b c; rw [h]
@[simp] theorem State.evlog_byte (t a b c : Nat) (x : Nat) : (s.evlog t a b c).byte x = s.byte x := by
  obtain ⟨_, h⟩ := State.evlog_frame s t a b c; rw [h]; rfl
@[simp] theorem State.evlog_tiles (t a b c : Nat) : (s.evlog t a b c).tiles = s.tiles := by
  obtain ⟨_, h⟩ := State.evlog_frame s t a b c; rw [h]
@[simp] theorem State.evlog_tile (t a b c : Nat) (x : Nat) : (s.evlog t a b c).tile x = s.tile x := by
  obtain ⟨_, h⟩ := State.evlog_frame s t a b c; rw [h]; rfl
@[simp] theorem State.evlog_hub (t a b c : Nat) : (s.evlog t a b c).hub = s.hub := by
  obtain ⟨_, h⟩ := State.evlog_frame s t a b c; rw [h]
@[simp] theorem State.evlog_quays (t a b c : Nat) : (s.evlog t a b c).quays = s.quays := by
  obtain ⟨_, h⟩ := State.evlog_frame s t a b c; rw [h]
@[simp] theorem State.evlog_quay (t a b c : Nat) (x : Nat) : (s.evlog t a b c).quay x = s.quay x := by
  obtain ⟨_, h⟩ := State.evlog_frame s t a b c; rw [h]; rfl
@[simp] theorem State.evlog_cores (t a b c : Nat) : (s.evlog t a b c).cores = s.cores := by
  obtain ⟨_, h⟩ := State.evlog_frame s t a b c; rw [h]
@[simp] theorem State.evlog_core (t a b c : Nat) (x : Nat) : (s.evlog t a b c).core x = s.core x := by
  obtain ⟨_, h⟩ := State.evlog_frame s t a b c; rw [h]; rfl
@[simp] theorem State.evlog_cache (t a b c : Nat) : (s.evlog t a b c).cache = s.cache := by
  obtain ⟨_, h⟩ := State.evlog_frame s t a b c; rw [h]
@[simp] theorem State.evlog_roster (t a b c : Nat) : (s.evlog t a b c).roster = s.roster := by
  obtain ⟨_, h⟩ := State.evlog_frame s t a b c; rw [h]
@[simp] theorem State.evlog_engs (t a b c : Nat) : (s.evlog t a b c).engs = s.engs := by
  obtain ⟨_, h⟩ := State.evlog_frame s t a b c; rw [h]
@[simp] theorem State.evlog_eng (t a b c : Nat) (x : Nat) : (s.evlog t a b c).eng x = s.eng x := by
  obtain ⟨_, h⟩ := State.evlog_frame s t a b c; rw [h]; rfl
@[simp] theorem State.evlog_ports (t a b c : Nat) : (s.evlog t a b c).ports = s.ports := by
  obtain ⟨_, h⟩ := State.evlog_frame s t a b c; rw [h]
@[simp] theorem State.evlog_port (t a b c : Nat) (x : Nat) : (s.evlog t a b c).port x = s.port x := by
  obtain ⟨_, h⟩ := State.evlog_frame s t a b c; rw [h]; rfl
@[simp] theorem State.evlog_fault (t a b c : Nat) : (s.evlog t a b c).fault = s.fault := by
  obtain ⟨_, h⟩ := State.evlog_frame s t a b c; rw [h]
@[simp] theorem State.evlog_pins (t a b c : Nat) : (s.evlog t a b c).pins = s.pins := by
  obtain ⟨_, h⟩ := State.evlog_frame s t a b c; rw [h]
@[simp] theorem State.evlog_power (t a b c : Nat) : (s.evlog t a b c).power = s.power := by
  obtain ⟨_, h⟩ := State.evlog_frame s t a b c; rw [h]
@[simp] theorem State.evlog_ctl (t a b c : Nat) : (s.evlog t a b c).ctl = s.ctl := by
  obtain ⟨_, h⟩ := State.evlog_frame s t a b c; rw [h]
@[simp] theorem State.evlog_boot (t a b c : Nat) : (s.evlog t a b c).boot = s.boot := by
  obtain ⟨_, h⟩ := State.evlog_frame s t a b c; rw [h]
@[simp] theorem State.evlog_free (t a b c : Nat) : (s.evlog t a b c).free = s.free := by
  obtain ⟨_, h⟩ := State.evlog_frame s t a b c; rw [h]
@[simp] theorem State.evlog_tc (t a b c : Nat) : (s.evlog t a b c).tc = s.tc := by
  obtain ⟨_, h⟩ := State.evlog_frame s t a b c; rw [h]
@[simp] theorem State.evlog_tick (t a b c : Nat) : (s.evlog t a b c).tick = s.tick := by
  obtain ⟨_, h⟩ := State.evlog_frame s t a b c; rw [h]
@[simp] theorem State.evlog_pending (t a b c : Nat) : (s.evlog t a b c).pending = s.pending := by
  obtain ⟨_, h⟩ := State.evlog_frame s t a b c; rw [h]

/-- throttleSync changes nothing but rf. -/
theorem State.throttleSync_frame : ∃ x0, s.throttleSync = { s with rf := x0 } := by
  refine ⟨(s.throttleSync).rf, State.ext_iff.2 ⟨?_, ?_, ?_, ?_, ?_, ?_, ?_, ?_, ?_, ?_, ?_, ?_, ?_, ?_, ?_, ?_, ?_, ?_, ?_, ?_⟩⟩ <;> dsimp only <;>
    (rw [State.throttleSync]; simp)
@[simp] theorem State.throttleSync_stepping : (s.throttleSync).stepping = s.stepping := by
  obtain ⟨_, h⟩ := State.throttleSync_frame s; rw [h]
@[simp] theorem State.throttleSync_mem : (s.throttleSync).mem = s.mem := by
  obtain ⟨_, h⟩ := State.throttleSync_frame s; rw [h]
@[simp] theorem State.throttleSync_byte  (x : Nat) : (s.throttleSync).byte x = s.byte x := by
  obtain ⟨_, h⟩ := State.throttleSync_frame s; rw [h]; rfl
@[simp] theorem State.throttleSync_tiles : (s.throttleSync).tiles = s.tiles := by
  obtain ⟨_, h⟩ := State.throttleSync_frame s; rw [h]
@[simp] theorem State.throttleSync_tile  (x : Nat) : (s.throttleSync).tile x = s.tile x := by
  obtain ⟨_, h⟩ := State.throttleSync_frame s; rw [h]; rfl
@[simp] theorem State.throttleSync_hub : (s.throttleSync).hub = s.hub := by
  obtain ⟨_, h⟩ := State.throttleSync_frame s; rw [h]
@[simp] theorem State.throttleSync_quays : (s.throttleSync).quays = s.quays := by
  obtain ⟨_, h⟩ := State.throttleSync_frame s; rw [h]
@[simp] theorem State.throttleSync_quay  (x : Nat) : (s.throttleSync).quay x = s.quay x := by
  obtain ⟨_, h⟩ := State.throttleSync_frame s; rw [h]; rfl
@[simp] theorem State.throttleSync_cores : (s.throttleSync).cores = s.cores := by
  obtain ⟨_, h⟩ := State.throttleSync_frame s; rw [h]
@[simp] theorem State.throttleSync_core  (x : Nat) : (s.throttleSync).core x = s.core x := by
  obtain ⟨_, h⟩ := State.throttleSync_frame s; rw [h]; rfl
@[simp] theorem State.throttleSync_cache : (s.throttleSync).cache = s.cache := by
  obtain ⟨_, h⟩ := State.throttleSync_frame s; rw [h]
@[simp] theorem State.throttleSync_roster : (s.throttleSync).roster = s.roster := by
  obtain ⟨_, h⟩ := State.throttleSync_frame s; rw [h]
@[simp] theorem State.throttleSync_engs : (s.throttleSync).engs = s.engs := by
  obtain ⟨_, h⟩ := State.throttleSync_frame s; rw [h]
@[simp] theorem State.throttleSync_eng  (x : Nat) : (s.throttleSync).eng x = s.eng x := by
  obtain ⟨_, h⟩ := State.throttleSync_frame s; rw [h]; rfl
@[simp] theorem State.throttleSync_ports : (s.throttleSync).ports = s.ports := by
  obtain ⟨_, h⟩ := State.throttleSync_frame s; rw [h]
@[simp] theorem State.throttleSync_port  (x : Nat) : (s.throttleSync).port x = s.port x := by
  obtain ⟨_, h⟩ := State.throttleSync_frame s; rw [h]; rfl
@[simp] theorem State.throttleSync_fault : (s.throttleSync).fault = s.fault := by
  obtain ⟨_, h⟩ := State.throttleSync_frame s; rw [h]
@[simp] theorem State.throttleSync_pins : (s.throttleSync).pins = s.pins := by
  obtain ⟨_, h⟩ := State.throttleSync_frame s; rw [h]
@[simp] theorem State.throttleSync_power : (s.throttleSync).power = s.power := by
  obtain ⟨_, h⟩ := State.throttleSync_frame s; rw [h]
@[simp] theorem State.throttleSync_ctl : (s.throttleSync).ctl = s.ctl := by
  obtain ⟨_, h⟩ := State.throttleSync_frame s; rw [h]
@[simp] theorem State.throttleSync_boot : (s.throttleSync).boot = s.boot := by
  obtain ⟨_, h⟩ := State.throttleSync_frame s; rw [h]
@[simp] theorem State.throttleSync_free : (s.throttleSync).free = s.free := by
  obtain ⟨_, h⟩ := State.throttleSync_frame s; rw [h]
@[simp] theorem State.throttleSync_tc : (s.throttleSync).tc = s.tc := by
  obtain ⟨_, h⟩ := State.throttleSync_frame s; rw [h]
@[simp] theorem State.throttleSync_tick : (s.throttleSync).tick = s.tick := by
  obtain ⟨_, h⟩ := State.throttleSync_frame s; rw [h]
@[simp] theorem State.throttleSync_pending : (s.throttleSync).pending = s.pending := by
  obtain ⟨_, h⟩ := State.throttleSync_frame s; rw [h]

/-- gridStart changes nothing but power. -/
theorem State.gridStart_frame : ∃ x0, s.gridStart = { s with power := x0 } := by
  refine ⟨(s.gridStart).power, State.ext_iff.2 ⟨?_, ?_, ?_, ?_, ?_, ?_, ?_, ?_, ?_, ?_, ?_, ?_, ?_, ?_, ?_, ?_, ?_, ?_, ?_, ?_⟩⟩ <;> dsimp only <;>
    (rw [State.gridStart]; simp)
@[simp] theorem State.gridStart_stepping : (s.gridStart).stepping = s.stepping := by
  obtain ⟨_, h⟩ := State.gridStart_frame s; rw [h]
@[simp] theorem State.gridStart_rf : (s.gridStart).rf = s.rf := by
  obtain ⟨_, h⟩ := State.gridStart_frame s; rw [h]
@[simp] theorem State.gridStart_rd  (g : Fld) (u' i' : Nat) : (s.gridStart).rd g u' i' = s.rd g u' i' := by
  obtain ⟨_, h⟩ := State.gridStart_frame s; rw [h]; rfl
@[simp] theorem State.gridStart_mem : (s.gridStart).mem = s.mem := by
  obtain ⟨_, h⟩ := State.gridStart_frame s; rw [h]
@[simp] theorem State.gridStart_byte  (x : Nat) : (s.gridStart).byte x = s.byte x := by
  obtain ⟨_, h⟩ := State.gridStart_frame s; rw [h]; rfl
@[simp] theorem State.gridStart_tiles : (s.gridStart).tiles = s.tiles := by
  obtain ⟨_, h⟩ := State.gridStart_frame s; rw [h]
@[simp] theorem State.gridStart_tile  (x : Nat) : (s.gridStart).tile x = s.tile x := by
  obtain ⟨_, h⟩ := State.gridStart_frame s; rw [h]; rfl
@[simp] theorem State.gridStart_hub : (s.gridStart).hub = s.hub := by
  obtain ⟨_, h⟩ := State.gridStart_frame s; rw [h]
@[simp] theorem State.gridStart_quays : (s.gridStart).quays = s.quays := by
  obtain ⟨_, h⟩ := State.gridStart_frame s; rw [h]
@[simp] theorem State.gridStart_quay  (x : Nat) : (s.gridStart).quay x = s.quay x := by
  obtain ⟨_, h⟩ := State.gridStart_frame s; rw [h]; rfl
@[simp] theorem State.gridStart_cores : (s.gridStart).cores = s.cores := by
  obtain ⟨_, h⟩ := State.gridStart_frame s; rw [h]
@[simp] theorem State.gridStart_core  (x : Nat) : (s.gridStart).core x = s.core x := by
  obtain ⟨_, h⟩ := State.gridStart_frame s; rw [h]; rfl
@[simp] theorem State.gridStart_cache : (s.gridStart).cache = s.cache := by
  obtain ⟨_, h⟩ := State.gridStart_frame s; rw [h]
@[simp] theorem State.gridStart_roster : (s.gridStart).roster = s.roster := by
  obtain ⟨_, h⟩ := State.gridStart_frame s; rw [h]
@[simp] theorem State.gridStart_engs : (s.gridStart).engs = s.engs := by
  obtain ⟨_, h⟩ := State.gridStart_frame s; rw [h]
@[simp] theorem State.gridStart_eng  (x : Nat) : (s.gridStart).eng x = s.eng x := by
  obtain ⟨_, h⟩ := State.gridStart_frame s; rw [h]; rfl
@[simp] theorem State.gridStart_ports : (s.gridStart).ports = s.ports := by
  obtain ⟨_, h⟩ := State.gridStart_frame s; rw [h]
@[simp] theorem State.gridStart_port  (x : Nat) : (s.gridStart).port x = s.port x := by
  obtain ⟨_, h⟩ := State.gridStart_frame s; rw [h]; rfl
@[simp] theorem State.gridStart_fault : (s.gridStart).fault = s.fault := by
  obtain ⟨_, h⟩ := State.gridStart_frame s; rw [h]
@[simp] theorem State.gridStart_pins : (s.gridStart).pins = s.pins := by
  obtain ⟨_, h⟩ := State.gridStart_frame s; rw [h]
@[simp] theorem State.gridStart_ctl : (s.gridStart).ctl = s.ctl := by
  obtain ⟨_, h⟩ := State.gridStart_frame s; rw [h]
@[simp] theorem State.gridStart_boot : (s.gridStart).boot = s.boot := by
  obtain ⟨_, h⟩ := State.gridStart_frame s; rw [h]
@[simp] theorem State.gridStart_free : (s.gridStart).free = s.free := by
  obtain ⟨_, h⟩ := State.gridStart_frame s; rw [h]
@[simp] theorem State.gridStart_tc : (s.gridStart).tc = s.tc := by
  obtain ⟨_, h⟩ := State.gridStart_frame s; rw [h]
@[simp] theorem State.gridStart_tick : (s.gridStart).tick = s.tick := by
  obtain ⟨_, h⟩ := State.gridStart_frame s; rw [h]
@[simp] theorem State.gridStart_pending : (s.gridStart).pending = s.pending := by
  obtain ⟨_, h⟩ := State.gridStart_frame s; rw [h]

/-- clearHalt changes nothing but rf. -/
theorem State.clearHalt_frame (t : Nat) : ∃ x0, s.clearHalt t = { s with rf := x0 } := by
  refine ⟨(s.clearHalt t).rf, State.ext_iff.2 ⟨?_, ?_, ?_, ?_, ?_, ?_, ?_, ?_, ?_, ?_, ?_, ?_, ?_, ?_, ?_, ?_, ?_, ?_, ?_, ?_⟩⟩ <;> dsimp only <;>
    (rw [State.clearHalt]; simp [haltFields])
@[simp] theorem State.clearHalt_stepping (t : Nat) : (s.clearHalt t).stepping = s.stepping := by
  obtain ⟨_, h⟩ := State.clearHalt_frame s t; rw [h]
@[simp] theorem State.clearHalt_mem (t : Nat) : (s.clearHalt t).mem = s.mem := by
  obtain ⟨_, h⟩ := State.clearHalt_frame s t; rw [h]
@[simp] theorem State.clearHalt_byte (t : Nat) (x : Nat) : (s.clearHalt t).byte x = s.byte x := by
  obtain ⟨_, h⟩ := State.clearHalt_frame s t; rw [h]; rfl
@[simp] theorem State.clearHalt_tiles (t : Nat) : (s.clearHalt t).tiles = s.tiles := by
  obtain ⟨_, h⟩ := State.clearHalt_frame s t; rw [h]
@[simp] theorem State.clearHalt_tile (t : Nat) (x : Nat) : (s.clearHalt t).tile x = s.tile x := by
  obtain ⟨_, h⟩ := State.clearHalt_frame s t; rw [h]; rfl
@[simp] theorem State.clearHalt_hub (t : Nat) : (s.clearHalt t).hub = s.hub := by
  obtain ⟨_, h⟩ := State.clearHalt_frame s t; rw [h]
@[simp] theorem State.clearHalt_quays (t : Nat) : (s.clearHalt t).quays = s.quays := by
  obtain ⟨_, h⟩ := State.clearHalt_frame s t; rw [h]
@[simp] theorem State.clearHalt_quay (t : Nat) (x : Nat) : (s.clearHalt t).quay x = s.quay x := by
  obtain ⟨_, h⟩ := State.clearHalt_frame s t; rw [h]; rfl
@[simp] theorem State.clearHalt_cores (t : Nat) : (s.clearHalt t).cores = s.cores := by
  obtain ⟨_, h⟩ := State.clearHalt_frame s t; rw [h]
@[simp] theorem State.clearHalt_core (t : Nat) (x : Nat) : (s.clearHalt t).core x = s.core x := by
  obtain ⟨_, h⟩ := State.clearHalt_frame s t; rw [h]; rfl
@[simp] theorem State.clearHalt_cache (t : Nat) : (s.clearHalt t).cache = s.cache := by
  obtain ⟨_, h⟩ := State.clearHalt_frame s t; rw [h]
@[simp] theorem State.clearHalt_roster (t : Nat) : (s.clearHalt t).roster = s.roster := by
  obtain ⟨_, h⟩ := State.clearHalt_frame s t; rw [h]
@[simp] theorem State.clearHalt_engs (t : Nat) : (s.clearHalt t).engs = s.engs := by
  obtain ⟨_, h⟩ := State.clearHalt_frame s t; rw [h]
@[simp] theorem State.clearHalt_eng (t : Nat) (x : Nat) : (s.clearHalt t).eng x = s.eng x := by
  obtain ⟨_, h⟩ := State.clearHalt_frame s t; rw [h]; rfl
@[simp] theorem State.clearHalt_ports (t : Nat) : (s.clearHalt t).ports = s.ports := by
  obtain ⟨_, h⟩ := State.clearHalt_frame s t; rw [h]
@[simp] theorem State.clearHalt_port (t : Nat) (x : Nat) : (s.clearHalt t).port x = s.port x := by
  obtain ⟨_, h⟩ := State.clearHalt_frame s t; rw [h]; rfl
@[simp] theorem State.clearHalt_fault (t : Nat) : (s.clearHalt t).fault = s.fault := by
  obtain ⟨_, h⟩ := State.clearHalt_frame s t; rw [h]
@[simp] theorem State.clearHalt_pins (t : Nat) : (s.clearHalt t).pins = s.pins := by
  obtain ⟨_, h⟩ := State.clearHalt_frame s t; rw [h]
@[simp] theorem State.clearHalt_power (t : Nat) : (s.clearHalt t).power = s.power := by
  obtain ⟨_, h⟩ := State.clearHalt_frame s t; rw [h]
@[simp] theorem State.clearHalt_ctl (t : Nat) : (s.clearHalt t).ctl = s.ctl := by
  obtain ⟨_, h⟩ := State.clearHalt_frame s t; rw [h]
@[simp] theorem State.clearHalt_boot (t : Nat) : (s.clearHalt t).boot = s.boot := by
  obtain ⟨_, h⟩ := State.clearHalt_frame s t; rw [h]
@[simp] theorem State.clearHalt_free (t : Nat) : (s.clearHalt t).free = s.free := by
  obtain ⟨_, h⟩ := State.clearHalt_frame s t; rw [h]
@[simp] theorem State.clearHalt_tc (t : Nat) : (s.clearHalt t).tc = s.tc := by
  obtain ⟨_, h⟩ := State.clearHalt_frame s t; rw [h]
@[simp] theorem State.clearHalt_tick (t : Nat) : (s.clearHalt t).tick = s.tick := by
  obtain ⟨_, h⟩ := State.clearHalt_frame s t; rw [h]
@[simp] theorem State.clearHalt_pending (t : Nat) : (s.clearHalt t).pending = s.pending := by
  obtain ⟨_, h⟩ := State.clearHalt_frame s t; rw [h]

/-- clearLoops changes nothing but rf. -/
theorem State.clearLoops_frame (t : Nat) : ∃ x0, s.clearLoops t = { s with rf := x0 } := by
  refine ⟨(s.clearLoops t).rf, State.ext_iff.2 ⟨?_, ?_, ?_, ?_, ?_, ?_, ?_, ?_, ?_, ?_, ?_, ?_, ?_, ?_, ?_, ?_, ?_, ?_, ?_, ?_⟩⟩ <;> dsimp only <;>
    (rw [State.clearLoops]; simp)
@[simp] theorem State.clearLoops_stepping (t : Nat) : (s.clearLoops t).stepping = s.stepping := by
  obtain ⟨_, h⟩ := State.clearLoops_frame s t; rw [h]
@[simp] theorem State.clearLoops_mem (t : Nat) : (s.clearLoops t).mem = s.mem := by
  obtain ⟨_, h⟩ := State.clearLoops_frame s t; rw [h]
@[simp] theorem State.clearLoops_byte (t : Nat) (x : Nat) : (s.clearLoops t).byte x = s.byte x := by
  obtain ⟨_, h⟩ := State.clearLoops_frame s t; rw [h]; rfl
@[simp] theorem State.clearLoops_tiles (t : Nat) : (s.clearLoops t).tiles = s.tiles := by
  obtain ⟨_, h⟩ := State.clearLoops_frame s t; rw [h]
@[simp] theorem State.clearLoops_tile (t : Nat) (x : Nat) : (s.clearLoops t).tile x = s.tile x := by
  obtain ⟨_, h⟩ := State.clearLoops_frame s t; rw [h]; rfl
@[simp] theorem State.clearLoops_hub (t : Nat) : (s.clearLoops t).hub = s.hub := by
  obtain ⟨_, h⟩ := State.clearLoops_frame s t; rw [h]
@[simp] theorem State.clearLoops_quays (t : Nat) : (s.clearLoops t).quays = s.quays := by
  obtain ⟨_, h⟩ := State.clearLoops_frame s t; rw [h]
@[simp] theorem State.clearLoops_quay (t : Nat) (x : Nat) : (s.clearLoops t).quay x = s.quay x := by
  obtain ⟨_, h⟩ := State.clearLoops_frame s t; rw [h]; rfl
@[simp] theorem State.clearLoops_cores (t : Nat) : (s.clearLoops t).cores = s.cores := by
  obtain ⟨_, h⟩ := State.clearLoops_frame s t; rw [h]
@[simp] theorem State.clearLoops_core (t : Nat) (x : Nat) : (s.clearLoops t).core x = s.core x := by
  obtain ⟨_, h⟩ := State.clearLoops_frame s t; rw [h]; rfl
@[simp] theorem State.clearLoops_cache (t : Nat) : (s.clearLoops t).cache = s.cache := by
  obtain ⟨_, h⟩ := State.clearLoops_frame s t; rw [h]
@[simp] theorem State.clearLoops_roster (t : Nat) : (s.clearLoops t).roster = s.roster := by
  obtain ⟨_, h⟩ := State.clearLoops_frame s t; rw [h]
@[simp] theorem State.clearLoops_engs (t : Nat) : (s.clearLoops t).engs = s.engs := by
  obtain ⟨_, h⟩ := State.clearLoops_frame s t; rw [h]
@[simp] theorem State.clearLoops_eng (t : Nat) (x : Nat) : (s.clearLoops t).eng x = s.eng x := by
  obtain ⟨_, h⟩ := State.clearLoops_frame s t; rw [h]; rfl
@[simp] theorem State.clearLoops_ports (t : Nat) : (s.clearLoops t).ports = s.ports := by
  obtain ⟨_, h⟩ := State.clearLoops_frame s t; rw [h]
@[simp] theorem State.clearLoops_port (t : Nat) (x : Nat) : (s.clearLoops t).port x = s.port x := by
  obtain ⟨_, h⟩ := State.clearLoops_frame s t; rw [h]; rfl
@[simp] theorem State.clearLoops_fault (t : Nat) : (s.clearLoops t).fault = s.fault := by
  obtain ⟨_, h⟩ := State.clearLoops_frame s t; rw [h]
@[simp] theorem State.clearLoops_pins (t : Nat) : (s.clearLoops t).pins = s.pins := by
  obtain ⟨_, h⟩ := State.clearLoops_frame s t; rw [h]
@[simp] theorem State.clearLoops_power (t : Nat) : (s.clearLoops t).power = s.power := by
  obtain ⟨_, h⟩ := State.clearLoops_frame s t; rw [h]
@[simp] theorem State.clearLoops_ctl (t : Nat) : (s.clearLoops t).ctl = s.ctl := by
  obtain ⟨_, h⟩ := State.clearLoops_frame s t; rw [h]
@[simp] theorem State.clearLoops_boot (t : Nat) : (s.clearLoops t).boot = s.boot := by
  obtain ⟨_, h⟩ := State.clearLoops_frame s t; rw [h]
@[simp] theorem State.clearLoops_free (t : Nat) : (s.clearLoops t).free = s.free := by
  obtain ⟨_, h⟩ := State.clearLoops_frame s t; rw [h]
@[simp] theorem State.clearLoops_tc (t : Nat) : (s.clearLoops t).tc = s.tc := by
  obtain ⟨_, h⟩ := State.clearLoops_frame s t; rw [h]
@[simp] theorem State.clearLoops_tick (t : Nat) : (s.clearLoops t).tick = s.tick := by
  obtain ⟨_, h⟩ := State.clearLoops_frame s t; rw [h]
@[simp] theorem State.clearLoops_pending (t : Nat) : (s.clearLoops t).pending = s.pending := by
  obtain ⟨_, h⟩ := State.clearLoops_frame s t; rw [h]

end Sys2Proof.Machine
end

