-- ==== Sys2Proof/Laws/Parts.lean ====
section
/-! SUPPORT. Which parts of the pins, of the control plane's record and of the fault path the report operations touch:
ALERT_N and its in-band interrupts; the messages sent and the note of a state change; the queue and the log. -/

namespace Sys2Proof.Machine

variable (s : State)

theorem State.msix_ctl_sub (v : Nat) : ∃ x0, (s.msix v).ctl = { s.ctl with msgs := x0 } := by
  rw [State.msix]
  split <;> exact ⟨_, rfl⟩
@[simp] theorem State.msix_ctl_reqArea (v : Nat) : (s.msix v).ctl.reqArea = s.ctl.reqArea := by
  obtain ⟨_, h⟩ := State.msix_ctl_sub s v; rw [h]
@[simp] theorem State.msix_ctl_respArea (v : Nat) : (s.msix v).ctl.respArea = s.ctl.respArea := by
  obtain ⟨_, h⟩ := State.msix_ctl_sub s v; rw [h]
@[simp] theorem State.msix_ctl_control (v : Nat) : (s.msix v).ctl.control = s.ctl.control := by
  obtain ⟨_, h⟩ := State.msix_ctl_sub s v; rw [h]
@[simp] theorem State.msix_ctl_mgmt (v : Nat) : (s.msix v).ctl.mgmt = s.ctl.mgmt := by
  obtain ⟨_, h⟩ := State.msix_ctl_sub s v; rw [h]
@[simp] theorem State.msix_ctl_mgmtOut (v : Nat) : (s.msix v).ctl.mgmtOut = s.ctl.mgmtOut := by
  obtain ⟨_, h⟩ := State.msix_ctl_sub s v; rw [h]
@[simp] theorem State.msix_ctl_order (v : Nat) : (s.msix v).ctl.order = s.ctl.order := by
  obtain ⟨_, h⟩ := State.msix_ctl_sub s v; rw [h]
@[simp] theorem State.msix_ctl_d3hot (v : Nat) : (s.msix v).ctl.d3hot = s.ctl.d3hot := by
  obtain ⟨_, h⟩ := State.msix_ctl_sub s v; rw [h]
@[simp] theorem State.msix_ctl_bme (v : Nat) : (s.msix v).ctl.bme = s.ctl.bme := by
  obtain ⟨_, h⟩ := State.msix_ctl_sub s v; rw [h]
@[simp] theorem State.msix_ctl_msixEn (v : Nat) : (s.msix v).ctl.msixEn = s.ctl.msixEn := by
  obtain ⟨_, h⟩ := State.msix_ctl_sub s v; rw [h]
@[simp] theorem State.msix_ctl_base (v : Nat) : (s.msix v).ctl.base = s.ctl.base := by
  obtain ⟨_, h⟩ := State.msix_ctl_sub s v; rw [h]
@[simp] theorem State.msix_ctl_updating (v : Nat) : (s.msix v).ctl.updating = s.ctl.updating := by
  obtain ⟨_, h⟩ := State.msix_ctl_sub s v; rw [h]
@[simp] theorem State.msix_ctl_faulted (v : Nat) : (s.msix v).ctl.faulted = s.ctl.faulted := by
  obtain ⟨_, h⟩ := State.msix_ctl_sub s v; rw [h]
@[simp] theorem State.msix_ctl_drain (v : Nat) : (s.msix v).ctl.drain = s.ctl.drain := by
  obtain ⟨_, h⟩ := State.msix_ctl_sub s v; rw [h]
@[simp] theorem State.msix_ctl_boundary (v : Nat) : (s.msix v).ctl.boundary = s.ctl.boundary := by
  obtain ⟨_, h⟩ := State.msix_ctl_sub s v; rw [h]
@[simp] theorem State.msix_ctl_load (v : Nat) : (s.msix v).ctl.load = s.ctl.load := by
  obtain ⟨_, h⟩ := State.msix_ctl_sub s v; rw [h]
@[simp] theorem State.msix_ctl_images (v : Nat) : (s.msix v).ctl.images = s.ctl.images := by
  obtain ⟨_, h⟩ := State.msix_ctl_sub s v; rw [h]
@[simp] theorem State.msix_ctl_contexts (v : Nat) : (s.msix v).ctl.contexts = s.ctl.contexts := by
  obtain ⟨_, h⟩ := State.msix_ctl_sub s v; rw [h]
@[simp] theorem State.msix_ctl_switch (v : Nat) : (s.msix v).ctl.switch = s.ctl.switch := by
  obtain ⟨_, h⟩ := State.msix_ctl_sub s v; rw [h]
@[simp] theorem State.msix_ctl_swWait (v : Nat) : (s.msix v).ctl.swWait = s.ctl.swWait := by
  obtain ⟨_, h⟩ := State.msix_ctl_sub s v; rw [h]
@[simp] theorem State.msix_ctl_nextReq (v : Nat) : (s.msix v).ctl.nextReq = s.ctl.nextReq := by
  obtain ⟨_, h⟩ := State.msix_ctl_sub s v; rw [h]
@[simp] theorem State.msix_ctl_resetReq (v : Nat) : (s.msix v).ctl.resetReq = s.ctl.resetReq := by
  obtain ⟨_, h⟩ := State.msix_ctl_sub s v; rw [h]
@[simp] theorem State.msix_ctl_eid (v : Nat) : (s.msix v).ctl.eid = s.ctl.eid := by
  obtain ⟨_, h⟩ := State.msix_ctl_sub s v; rw [h]
@[simp] theorem State.msix_ctl_dyn (v : Nat) : (s.msix v).ctl.dyn = s.ctl.dyn := by
  obtain ⟨_, h⟩ := State.msix_ctl_sub s v; rw [h]
@[simp] theorem State.msix_ctl_mgNext (v : Nat) : (s.msix v).ctl.mgNext = s.ctl.mgNext := by
  obtain ⟨_, h⟩ := State.msix_ctl_sub s v; rw [h]
@[simp] theorem State.msix_ctl_mgState (v : Nat) : (s.msix v).ctl.mgState = s.ctl.mgState := by
  obtain ⟨_, h⟩ := State.msix_ctl_sub s v; rw [h]
@[simp] theorem State.msix_ctl_spdm (v : Nat) : (s.msix v).ctl.spdm = s.ctl.spdm := by
  obtain ⟨_, h⟩ := State.msix_ctl_sub s v; rw [h]
@[simp] theorem State.msix_ctl_spdmOut (v : Nat) : (s.msix v).ctl.spdmOut = s.ctl.spdmOut := by
  obtain ⟨_, h⟩ := State.msix_ctl_sub s v; rw [h]
@[simp] theorem State.msix_ctl_unusable (v : Nat) : (s.msix v).ctl.unusable = s.ctl.unusable := by
  obtain ⟨_, h⟩ := State.msix_ctl_sub s v; rw [h]
@[simp] theorem State.msix_ctl_mctpOut (v : Nat) : (s.msix v).ctl.mctpOut = s.ctl.mctpOut := by
  obtain ⟨_, h⟩ := State.msix_ctl_sub s v; rw [h]
@[simp] theorem State.msix_ctl_win (v : Nat) : (s.msix v).ctl.win = s.ctl.win := by
  obtain ⟨_, h⟩ := State.msix_ctl_sub s v; rw [h]

theorem State.cpEvent_ctl_sub (n : Nat) : ∃ x0, (s.cpEvent n).ctl = { s.ctl with msgs := x0 } := by
  rw [State.cpEvent]
  split
  · exact ⟨_, rfl⟩
  · split
    · exact State.msix_ctl_sub (s.wr (eventField n) 1) _
    · exact ⟨_, rfl⟩
@[simp] theorem State.cpEvent_ctl_reqArea (n : Nat) : (s.cpEvent n).ctl.reqArea = s.ctl.reqArea := by
  obtain ⟨_, h⟩ := State.cpEvent_ctl_sub s n; rw [h]
@[simp] theorem State.cpEvent_ctl_respArea (n : Nat) : (s.cpEvent n).ctl.respArea = s.ctl.respArea := by
  obtain ⟨_, h⟩ := State.cpEvent_ctl_sub s n; rw [h]
@[simp] theorem State.cpEvent_ctl_control (n : Nat) : (s.cpEvent n).ctl.control = s.ctl.control := by
  obtain ⟨_, h⟩ := State.cpEvent_ctl_sub s n; rw [h]
@[simp] theorem State.cpEvent_ctl_mgmt (n : Nat) : (s.cpEvent n).ctl.mgmt = s.ctl.mgmt := by
  obtain ⟨_, h⟩ := State.cpEvent_ctl_sub s n; rw [h]
@[simp] theorem State.cpEvent_ctl_mgmtOut (n : Nat) : (s.cpEvent n).ctl.mgmtOut = s.ctl.mgmtOut := by
  obtain ⟨_, h⟩ := State.cpEvent_ctl_sub s n; rw [h]
@[simp] theorem State.cpEvent_ctl_order (n : Nat) : (s.cpEvent n).ctl.order = s.ctl.order := by
  obtain ⟨_, h⟩ := State.cpEvent_ctl_sub s n; rw [h]
@[simp] theorem State.cpEvent_ctl_d3hot (n : Nat) : (s.cpEvent n).ctl.d3hot = s.ctl.d3hot := by
  obtain ⟨_, h⟩ := State.cpEvent_ctl_sub s n; rw [h]
@[simp] theorem State.cpEvent_ctl_bme (n : Nat) : (s.cpEvent n).ctl.bme = s.ctl.bme := by
  obtain ⟨_, h⟩ := State.cpEvent_ctl_sub s n; rw [h]
@[simp] theorem State.cpEvent_ctl_msixEn (n : Nat) : (s.cpEvent n).ctl.msixEn = s.ctl.msixEn := by
  obtain ⟨_, h⟩ := State.cpEvent_ctl_sub s n; rw [h]
@[simp] theorem State.cpEvent_ctl_base (n : Nat) : (s.cpEvent n).ctl.base = s.ctl.base := by
  obtain ⟨_, h⟩ := State.cpEvent_ctl_sub s n; rw [h]
@[simp] theorem State.cpEvent_ctl_updating (n : Nat) : (s.cpEvent n).ctl.updating = s.ctl.updating := by
  obtain ⟨_, h⟩ := State.cpEvent_ctl_sub s n; rw [h]
@[simp] theorem State.cpEvent_ctl_faulted (n : Nat) : (s.cpEvent n).ctl.faulted = s.ctl.faulted := by
  obtain ⟨_, h⟩ := State.cpEvent_ctl_sub s n; rw [h]
@[simp] theorem State.cpEvent_ctl_drain (n : Nat) : (s.cpEvent n).ctl.drain = s.ctl.drain := by
  obtain ⟨_, h⟩ := State.cpEvent_ctl_sub s n; rw [h]
@[simp] theorem State.cpEvent_ctl_boundary (n : Nat) : (s.cpEvent n).ctl.boundary = s.ctl.boundary := by
  obtain ⟨_, h⟩ := State.cpEvent_ctl_sub s n; rw [h]
@[simp] theorem State.cpEvent_ctl_load (n : Nat) : (s.cpEvent n).ctl.load = s.ctl.load := by
  obtain ⟨_, h⟩ := State.cpEvent_ctl_sub s n; rw [h]
@[simp] theorem State.cpEvent_ctl_images (n : Nat) : (s.cpEvent n).ctl.images = s.ctl.images := by
  obtain ⟨_, h⟩ := State.cpEvent_ctl_sub s n; rw [h]
@[simp] theorem State.cpEvent_ctl_contexts (n : Nat) : (s.cpEvent n).ctl.contexts = s.ctl.contexts := by
  obtain ⟨_, h⟩ := State.cpEvent_ctl_sub s n; rw [h]
@[simp] theorem State.cpEvent_ctl_switch (n : Nat) : (s.cpEvent n).ctl.switch = s.ctl.switch := by
  obtain ⟨_, h⟩ := State.cpEvent_ctl_sub s n; rw [h]
@[simp] theorem State.cpEvent_ctl_swWait (n : Nat) : (s.cpEvent n).ctl.swWait = s.ctl.swWait := by
  obtain ⟨_, h⟩ := State.cpEvent_ctl_sub s n; rw [h]
@[simp] theorem State.cpEvent_ctl_nextReq (n : Nat) : (s.cpEvent n).ctl.nextReq = s.ctl.nextReq := by
  obtain ⟨_, h⟩ := State.cpEvent_ctl_sub s n; rw [h]
@[simp] theorem State.cpEvent_ctl_resetReq (n : Nat) : (s.cpEvent n).ctl.resetReq = s.ctl.resetReq := by
  obtain ⟨_, h⟩ := State.cpEvent_ctl_sub s n; rw [h]
@[simp] theorem State.cpEvent_ctl_eid (n : Nat) : (s.cpEvent n).ctl.eid = s.ctl.eid := by
  obtain ⟨_, h⟩ := State.cpEvent_ctl_sub s n; rw [h]
@[simp] theorem State.cpEvent_ctl_dyn (n : Nat) : (s.cpEvent n).ctl.dyn = s.ctl.dyn := by
  obtain ⟨_, h⟩ := State.cpEvent_ctl_sub s n; rw [h]
@[simp] theorem State.cpEvent_ctl_mgNext (n : Nat) : (s.cpEvent n).ctl.mgNext = s.ctl.mgNext := by
  obtain ⟨_, h⟩ := State.cpEvent_ctl_sub s n; rw [h]
@[simp] theorem State.cpEvent_ctl_mgState (n : Nat) : (s.cpEvent n).ctl.mgState = s.ctl.mgState := by
  obtain ⟨_, h⟩ := State.cpEvent_ctl_sub s n; rw [h]
@[simp] theorem State.cpEvent_ctl_spdm (n : Nat) : (s.cpEvent n).ctl.spdm = s.ctl.spdm := by
  obtain ⟨_, h⟩ := State.cpEvent_ctl_sub s n; rw [h]
@[simp] theorem State.cpEvent_ctl_spdmOut (n : Nat) : (s.cpEvent n).ctl.spdmOut = s.ctl.spdmOut := by
  obtain ⟨_, h⟩ := State.cpEvent_ctl_sub s n; rw [h]
@[simp] theorem State.cpEvent_ctl_unusable (n : Nat) : (s.cpEvent n).ctl.unusable = s.ctl.unusable := by
  obtain ⟨_, h⟩ := State.cpEvent_ctl_sub s n; rw [h]
@[simp] theorem State.cpEvent_ctl_mctpOut (n : Nat) : (s.cpEvent n).ctl.mctpOut = s.ctl.mctpOut := by
  obtain ⟨_, h⟩ := State.cpEvent_ctl_sub s n; rw [h]
@[simp] theorem State.cpEvent_ctl_win (n : Nat) : (s.cpEvent n).ctl.win = s.ctl.win := by
  obtain ⟨_, h⟩ := State.cpEvent_ctl_sub s n; rw [h]

theorem State.alertSync_pins_sub : ∃ x0 x1, (s.alertSync).pins = { s.pins with alert := x0, ibi := x1 } := by
  rw [State.alertSync]; exact ⟨_, _, rfl⟩
@[simp] theorem State.alertSync_pins_pinEn : (s.alertSync).pins.pinEn = s.pins.pinEn := by
  obtain ⟨_, _, h⟩ := State.alertSync_pins_sub s ; rw [h]
@[simp] theorem State.alertSync_pins_swClosed : (s.alertSync).pins.swClosed = s.pins.swClosed := by
  obtain ⟨_, _, h⟩ := State.alertSync_pins_sub s ; rw [h]
@[simp] theorem State.alertSync_pins_underV : (s.alertSync).pins.underV = s.pins.underV := by
  obtain ⟨_, _, h⟩ := State.alertSync_pins_sub s ; rw [h]
@[simp] theorem State.alertSync_pins_overV : (s.alertSync).pins.overV = s.pins.overV := by
  obtain ⟨_, _, h⟩ := State.alertSync_pins_sub s ; rw [h]
@[simp] theorem State.alertSync_pins_resetN : (s.alertSync).pins.resetN = s.pins.resetN := by
  obtain ⟨_, _, h⟩ := State.alertSync_pins_sub s ; rw [h]
@[simp] theorem State.alertSync_pins_filtering : (s.alertSync).pins.filtering = s.pins.filtering := by
  obtain ⟨_, _, h⟩ := State.alertSync_pins_sub s ; rw [h]
@[simp] theorem State.alertSync_pins_inReset : (s.alertSync).pins.inReset = s.pins.inReset := by
  obtain ⟨_, _, h⟩ := State.alertSync_pins_sub s ; rw [h]
@[simp] theorem State.alertSync_pins_stby : (s.alertSync).pins.stby = s.pins.stby := by
  obtain ⟨_, _, h⟩ := State.alertSync_pins_sub s ; rw [h]
@[simp] theorem State.alertSync_pins_rails : (s.alertSync).pins.rails = s.pins.rails := by
  obtain ⟨_, _, h⟩ := State.alertSync_pins_sub s ; rw [h]
@[simp] theorem State.alertSync_pins_ramping : (s.alertSync).pins.ramping = s.pins.ramping := by
  obtain ⟨_, _, h⟩ := State.alertSync_pins_sub s ; rw [h]
@[simp] theorem State.alertSync_pins_railFault : (s.alertSync).pins.railFault = s.pins.railFault := by
  obtain ⟨_, _, h⟩ := State.alertSync_pins_sub s ; rw [h]
@[simp] theorem State.alertSync_pins_pwrGood : (s.alertSync).pins.pwrGood = s.pins.pwrGood := by
  obtain ⟨_, _, h⟩ := State.alertSync_pins_sub s ; rw [h]
@[simp] theorem State.alertSync_pins_thermTrip : (s.alertSync).pins.thermTrip = s.pins.thermTrip := by
  obtain ⟨_, _, h⟩ := State.alertSync_pins_sub s ; rw [h]
@[simp] theorem State.alertSync_pins_bus : (s.alertSync).pins.bus = s.pins.bus := by
  obtain ⟨_, _, h⟩ := State.alertSync_pins_sub s ; rw [h]
@[simp] theorem State.alertSync_pins_cagePrs : (s.alertSync).pins.cagePrs = s.pins.cagePrs := by
  obtain ⟨_, _, h⟩ := State.alertSync_pins_sub s ; rw [h]
@[simp] theorem State.alertSync_pins_cageInt : (s.alertSync).pins.cageInt = s.pins.cageInt := by
  obtain ⟨_, _, h⟩ := State.alertSync_pins_sub s ; rw [h]
@[simp] theorem State.alertSync_pins_cageRst : (s.alertSync).pins.cageRst = s.pins.cageRst := by
  obtain ⟨_, _, h⟩ := State.alertSync_pins_sub s ; rw [h]
@[simp] theorem State.alertSync_pins_cageLpw : (s.alertSync).pins.cageLpw = s.pins.cageLpw := by
  obtain ⟨_, _, h⟩ := State.alertSync_pins_sub s ; rw [h]

theorem State.logRec_pins_sub (e : Event) (a : Nat) : ∃ x0 x1, (s.logRec e a).pins = { s.pins with alert := x0, ibi := x1 } := by
  rw [State.logRec]
  dsimp only
  generalize hx : (s.upFault _).cpEvent 2 = y
  obtain ⟨u, v, h⟩ := State.alertSync_pins_sub y
  exact ⟨u, v, by rw [h, ← hx]; simp⟩
@[simp] theorem State.logRec_pins_pinEn (e : Event) (a : Nat) : (s.logRec e a).pins.pinEn = s.pins.pinEn := by
  obtain ⟨_, _, h⟩ := State.logRec_pins_sub s e a; rw [h]
@[simp] theorem State.logRec_pins_swClosed (e : Event) (a : Nat) : (s.logRec e a).pins.swClosed = s.pins.swClosed := by
  obtain ⟨_, _, h⟩ := State.logRec_pins_sub s e a; rw [h]
@[simp] theorem State.logRec_pins_underV (e : Event) (a : Nat) : (s.logRec e a).pins.underV = s.pins.underV := by
  obtain ⟨_, _, h⟩ := State.logRec_pins_sub s e a; rw [h]
@[simp] theorem State.logRec_pins_overV (e : Event) (a : Nat) : (s.logRec e a).pins.overV = s.pins.overV := by
  obtain ⟨_, _, h⟩ := State.logRec_pins_sub s e a; rw [h]
@[simp] theorem State.logRec_pins_resetN (e : Event) (a : Nat) : (s.logRec e a).pins.resetN = s.pins.resetN := by
  obtain ⟨_, _, h⟩ := State.logRec_pins_sub s e a; rw [h]
@[simp] theorem State.logRec_pins_filtering (e : Event) (a : Nat) : (s.logRec e a).pins.filtering = s.pins.filtering := by
  obtain ⟨_, _, h⟩ := State.logRec_pins_sub s e a; rw [h]
@[simp] theorem State.logRec_pins_inReset (e : Event) (a : Nat) : (s.logRec e a).pins.inReset = s.pins.inReset := by
  obtain ⟨_, _, h⟩ := State.logRec_pins_sub s e a; rw [h]
@[simp] theorem State.logRec_pins_stby (e : Event) (a : Nat) : (s.logRec e a).pins.stby = s.pins.stby := by
  obtain ⟨_, _, h⟩ := State.logRec_pins_sub s e a; rw [h]
@[simp] theorem State.logRec_pins_rails (e : Event) (a : Nat) : (s.logRec e a).pins.rails = s.pins.rails := by
  obtain ⟨_, _, h⟩ := State.logRec_pins_sub s e a; rw [h]
@[simp] theorem State.logRec_pins_ramping (e : Event) (a : Nat) : (s.logRec e a).pins.ramping = s.pins.ramping := by
  obtain ⟨_, _, h⟩ := State.logRec_pins_sub s e a; rw [h]
@[simp] theorem State.logRec_pins_railFault (e : Event) (a : Nat) : (s.logRec e a).pins.railFault = s.pins.railFault := by
  obtain ⟨_, _, h⟩ := State.logRec_pins_sub s e a; rw [h]
@[simp] theorem State.logRec_pins_pwrGood (e : Event) (a : Nat) : (s.logRec e a).pins.pwrGood = s.pins.pwrGood := by
  obtain ⟨_, _, h⟩ := State.logRec_pins_sub s e a; rw [h]
@[simp] theorem State.logRec_pins_thermTrip (e : Event) (a : Nat) : (s.logRec e a).pins.thermTrip = s.pins.thermTrip := by
  obtain ⟨_, _, h⟩ := State.logRec_pins_sub s e a; rw [h]
@[simp] theorem State.logRec_pins_bus (e : Event) (a : Nat) : (s.logRec e a).pins.bus = s.pins.bus := by
  obtain ⟨_, _, h⟩ := State.logRec_pins_sub s e a; rw [h]
@[simp] theorem State.logRec_pins_cagePrs (e : Event) (a : Nat) : (s.logRec e a).pins.cagePrs = s.pins.cagePrs := by
  obtain ⟨_, _, h⟩ := State.logRec_pins_sub s e a; rw [h]
@[simp] theorem State.logRec_pins_cageInt (e : Event) (a : Nat) : (s.logRec e a).pins.cageInt = s.pins.cageInt := by
  obtain ⟨_, _, h⟩ := State.logRec_pins_sub s e a; rw [h]
@[simp] theorem State.logRec_pins_cageRst (e : Event) (a : Nat) : (s.logRec e a).pins.cageRst = s.pins.cageRst := by
  obtain ⟨_, _, h⟩ := State.logRec_pins_sub s e a; rw [h]
@[simp] theorem State.logRec_pins_cageLpw (e : Event) (a : Nat) : (s.logRec e a).pins.cageLpw = s.pins.cageLpw := by
  obtain ⟨_, _, h⟩ := State.logRec_pins_sub s e a; rw [h]

theorem State.logRec_ctl_sub (e : Event) (a : Nat) : ∃ x0, (s.logRec e a).ctl = { s.ctl with msgs := x0 } := by
  rw [State.logRec]
  dsimp only
  obtain ⟨u, h⟩ := State.cpEvent_ctl_sub (s.upFault _) 2
  exact ⟨u, by rw [State.alertSync_ctl, h, State.upFault_ctl]⟩
@[simp] theorem State.logRec_ctl_reqArea (e : Event) (a : Nat) : (s.logRec e a).ctl.reqArea = s.ctl.reqArea := by
  obtain ⟨_, h⟩ := State.logRec_ctl_sub s e a; rw [h]
@[simp] theorem State.logRec_ctl_respArea (e : Event) (a : Nat) : (s.logRec e a).ctl.respArea = s.ctl.respArea := by
  obtain ⟨_, h⟩ := State.logRec_ctl_sub s e a; rw [h]
@[simp] theorem State.logRec_ctl_control (e : Event) (a : Nat) : (s.logRec e a).ctl.control = s.ctl.control := by
  obtain ⟨_, h⟩ := State.logRec_ctl_sub s e a; rw [h]
@[simp] theorem State.logRec_ctl_mgmt (e : Event) (a : Nat) : (s.logRec e a).ctl.mgmt = s.ctl.mgmt := by
  obtain ⟨_, h⟩ := State.logRec_ctl_sub s e a; rw [h]
@[simp] theorem State.logRec_ctl_mgmtOut (e : Event) (a : Nat) : (s.logRec e a).ctl.mgmtOut = s.ctl.mgmtOut := by
  obtain ⟨_, h⟩ := State.logRec_ctl_sub s e a; rw [h]
@[simp] theorem State.logRec_ctl_order (e : Event) (a : Nat) : (s.logRec e a).ctl.order = s.ctl.order := by
  obtain ⟨_, h⟩ := State.logRec_ctl_sub s e a; rw [h]
@[simp] theorem State.logRec_ctl_d3hot (e : Event) (a : Nat) : (s.logRec e a).ctl.d3hot = s.ctl.d3hot := by
  obtain ⟨_, h⟩ := State.logRec_ctl_sub s e a; rw [h]
@[simp] theorem State.logRec_ctl_bme (e : Event) (a : Nat) : (s.logRec e a).ctl.bme = s.ctl.bme := by
  obtain ⟨_, h⟩ := State.logRec_ctl_sub s e a; rw [h]
@[simp] theorem State.logRec_ctl_msixEn (e : Event) (a : Nat) : (s.logRec e a).ctl.msixEn = s.ctl.msixEn := by
  obtain ⟨_, h⟩ := State.logRec_ctl_sub s e a; rw [h]
@[simp] theorem State.logRec_ctl_base (e : Event) (a : Nat) : (s.logRec e a).ctl.base = s.ctl.base := by
  obtain ⟨_, h⟩ := State.logRec_ctl_sub s e a; rw [h]
@[simp] theorem State.logRec_ctl_updating (e : Event) (a : Nat) : (s.logRec e a).ctl.updating = s.ctl.updating := by
  obtain ⟨_, h⟩ := State.logRec_ctl_sub s e a; rw [h]
@[simp] theorem State.logRec_ctl_faulted (e : Event) (a : Nat) : (s.logRec e a).ctl.faulted = s.ctl.faulted := by
  obtain ⟨_, h⟩ := State.logRec_ctl_sub s e a; rw [h]
@[simp] theorem State.logRec_ctl_drain (e : Event) (a : Nat) : (s.logRec e a).ctl.drain = s.ctl.drain := by
  obtain ⟨_, h⟩ := State.logRec_ctl_sub s e a; rw [h]
@[simp] theorem State.logRec_ctl_boundary (e : Event) (a : Nat) : (s.logRec e a).ctl.boundary = s.ctl.boundary := by
  obtain ⟨_, h⟩ := State.logRec_ctl_sub s e a; rw [h]
@[simp] theorem State.logRec_ctl_load (e : Event) (a : Nat) : (s.logRec e a).ctl.load = s.ctl.load := by
  obtain ⟨_, h⟩ := State.logRec_ctl_sub s e a; rw [h]
@[simp] theorem State.logRec_ctl_images (e : Event) (a : Nat) : (s.logRec e a).ctl.images = s.ctl.images := by
  obtain ⟨_, h⟩ := State.logRec_ctl_sub s e a; rw [h]
@[simp] theorem State.logRec_ctl_contexts (e : Event) (a : Nat) : (s.logRec e a).ctl.contexts = s.ctl.contexts := by
  obtain ⟨_, h⟩ := State.logRec_ctl_sub s e a; rw [h]
@[simp] theorem State.logRec_ctl_switch (e : Event) (a : Nat) : (s.logRec e a).ctl.switch = s.ctl.switch := by
  obtain ⟨_, h⟩ := State.logRec_ctl_sub s e a; rw [h]
@[simp] theorem State.logRec_ctl_swWait (e : Event) (a : Nat) : (s.logRec e a).ctl.swWait = s.ctl.swWait := by
  obtain ⟨_, h⟩ := State.logRec_ctl_sub s e a; rw [h]
@[simp] theorem State.logRec_ctl_nextReq (e : Event) (a : Nat) : (s.logRec e a).ctl.nextReq = s.ctl.nextReq := by
  obtain ⟨_, h⟩ := State.logRec_ctl_sub s e a; rw [h]
@[simp] theorem State.logRec_ctl_resetReq (e : Event) (a : Nat) : (s.logRec e a).ctl.resetReq = s.ctl.resetReq := by
  obtain ⟨_, h⟩ := State.logRec_ctl_sub s e a; rw [h]
@[simp] theorem State.logRec_ctl_eid (e : Event) (a : Nat) : (s.logRec e a).ctl.eid = s.ctl.eid := by
  obtain ⟨_, h⟩ := State.logRec_ctl_sub s e a; rw [h]
@[simp] theorem State.logRec_ctl_dyn (e : Event) (a : Nat) : (s.logRec e a).ctl.dyn = s.ctl.dyn := by
  obtain ⟨_, h⟩ := State.logRec_ctl_sub s e a; rw [h]
@[simp] theorem State.logRec_ctl_mgNext (e : Event) (a : Nat) : (s.logRec e a).ctl.mgNext = s.ctl.mgNext := by
  obtain ⟨_, h⟩ := State.logRec_ctl_sub s e a; rw [h]
@[simp] theorem State.logRec_ctl_mgState (e : Event) (a : Nat) : (s.logRec e a).ctl.mgState = s.ctl.mgState := by
  obtain ⟨_, h⟩ := State.logRec_ctl_sub s e a; rw [h]
@[simp] theorem State.logRec_ctl_spdm (e : Event) (a : Nat) : (s.logRec e a).ctl.spdm = s.ctl.spdm := by
  obtain ⟨_, h⟩ := State.logRec_ctl_sub s e a; rw [h]
@[simp] theorem State.logRec_ctl_spdmOut (e : Event) (a : Nat) : (s.logRec e a).ctl.spdmOut = s.ctl.spdmOut := by
  obtain ⟨_, h⟩ := State.logRec_ctl_sub s e a; rw [h]
@[simp] theorem State.logRec_ctl_unusable (e : Event) (a : Nat) : (s.logRec e a).ctl.unusable = s.ctl.unusable := by
  obtain ⟨_, h⟩ := State.logRec_ctl_sub s e a; rw [h]
@[simp] theorem State.logRec_ctl_mctpOut (e : Event) (a : Nat) : (s.logRec e a).ctl.mctpOut = s.ctl.mctpOut := by
  obtain ⟨_, h⟩ := State.logRec_ctl_sub s e a; rw [h]
@[simp] theorem State.logRec_ctl_win (e : Event) (a : Nat) : (s.logRec e a).ctl.win = s.ctl.win := by
  obtain ⟨_, h⟩ := State.logRec_ctl_sub s e a; rw [h]

/-- A record enters the log as its newest one. -/
theorem State.logRec_fault (e : Event) (a : Nat) : (s.logRec e a).fault =
    { s.fault with
      log := (s.fault.log ++ [({ seq := s.fault.nextSeq, time := s.tick / 600, cls := e.cls, kind := e.kind, unit := e.unit,
                                 code := e.code, actor := a, data := e.data } : FaultRec)]).drop (s.fault.log.length + 1 - logCap),
      nextSeq := s.fault.nextSeq + 1 } := by
  rw [State.logRec]; simp

theorem State.logRec_fault_sub (e : Event) (a : Nat) : ∃ x0 x1 x2, (s.logRec e a).fault = { s.fault with events := x0, log := x1, nextSeq := x2 } := by
  rw [State.logRec_fault]
  exact ⟨s.fault.events, _, _, rfl⟩
@[simp] theorem State.logRec_fault_reqs (e : Event) (a : Nat) : (s.logRec e a).fault.reqs = s.fault.reqs := by
  obtain ⟨_, _, _, h⟩ := State.logRec_fault_sub s e a; rw [h]
@[simp] theorem State.logRec_fault_active (e : Event) (a : Nat) : (s.logRec e a).fault.active = s.fault.active := by
  obtain ⟨_, _, _, h⟩ := State.logRec_fault_sub s e a; rw [h]
@[simp] theorem State.logRec_fault_fenced (e : Event) (a : Nat) : (s.logRec e a).fault.fenced = s.fault.fenced := by
  obtain ⟨_, _, _, h⟩ := State.logRec_fault_sub s e a; rw [h]
@[simp] theorem State.logRec_fault_corr (e : Event) (a : Nat) : (s.logRec e a).fault.corr = s.fault.corr := by
  obtain ⟨_, _, _, h⟩ := State.logRec_fault_sub s e a; rw [h]

theorem State.event_pins_sub (a b c d e f : Nat) : ∃ x0 x1, (s.event a b c d e f).pins = { s.pins with alert := x0, ibi := x1 } := by
  rw [State.event]
  dsimp only
  split <;> split
  · obtain ⟨u0, u1, h⟩ := State.logRec_pins_sub (s.upFault fun x => { x with events := x.events ++ [{ cls := a, kind := b, unit := c, code := d, data := e % 2 ^ 64 }] })
      { cls := a, kind := b, unit := c, code := d, data := e % 2 ^ 64 } f
    exact ⟨_, _, by rw [h]; rfl⟩
  · obtain ⟨u0, u1, h⟩ := State.logRec_pins_sub ((s.inc F.FT_EVQ_LOST_COUNT 1).wr F.FT_EVQ_STATUS_OVERFLOW 1)
      { cls := a, kind := b, unit := c, code := d, data := e % 2 ^ 64 } f
    exact ⟨_, _, by rw [h]; rfl⟩
  · exact ⟨_, _, rfl⟩
  · exact ⟨_, _, rfl⟩
@[simp] theorem State.event_pins_pinEn (a b c d e f : Nat) : (s.event a b c d e f).pins.pinEn = s.pins.pinEn := by
  obtain ⟨_, _, h⟩ := State.event_pins_sub s a b c d e f; rw [h]
@[simp] theorem State.event_pins_swClosed (a b c d e f : Nat) : (s.event a b c d e f).pins.swClosed = s.pins.swClosed := by
  obtain ⟨_, _, h⟩ := State.event_pins_sub s a b c d e f; rw [h]
@[simp] theorem State.event_pins_underV (a b c d e f : Nat) : (s.event a b c d e f).pins.underV = s.pins.underV := by
  obtain ⟨_, _, h⟩ := State.event_pins_sub s a b c d e f; rw [h]
@[simp] theorem State.event_pins_overV (a b c d e f : Nat) : (s.event a b c d e f).pins.overV = s.pins.overV := by
  obtain ⟨_, _, h⟩ := State.event_pins_sub s a b c d e f; rw [h]
@[simp] theorem State.event_pins_resetN (a b c d e f : Nat) : (s.event a b c d e f).pins.resetN = s.pins.resetN := by
  obtain ⟨_, _, h⟩ := State.event_pins_sub s a b c d e f; rw [h]
@[simp] theorem State.event_pins_filtering (a b c d e f : Nat) : (s.event a b c d e f).pins.filtering = s.pins.filtering := by
  obtain ⟨_, _, h⟩ := State.event_pins_sub s a b c d e f; rw [h]
@[simp] theorem State.event_pins_inReset (a b c d e f : Nat) : (s.event a b c d e f).pins.inReset = s.pins.inReset := by
  obtain ⟨_, _, h⟩ := State.event_pins_sub s a b c d e f; rw [h]
@[simp] theorem State.event_pins_stby (a b c d e f : Nat) : (s.event a b c d e f).pins.stby = s.pins.stby := by
  obtain ⟨_, _, h⟩ := State.event_pins_sub s a b c d e f; rw [h]
@[simp] theorem State.event_pins_rails (a b c d e f : Nat) : (s.event a b c d e f).pins.rails = s.pins.rails := by
  obtain ⟨_, _, h⟩ := State.event_pins_sub s a b c d e f; rw [h]
@[simp] theorem State.event_pins_ramping (a b c d e f : Nat) : (s.event a b c d e f).pins.ramping = s.pins.ramping := by
  obtain ⟨_, _, h⟩ := State.event_pins_sub s a b c d e f; rw [h]
@[simp] theorem State.event_pins_railFault (a b c d e f : Nat) : (s.event a b c d e f).pins.railFault = s.pins.railFault := by
  obtain ⟨_, _, h⟩ := State.event_pins_sub s a b c d e f; rw [h]
@[simp] theorem State.event_pins_pwrGood (a b c d e f : Nat) : (s.event a b c d e f).pins.pwrGood = s.pins.pwrGood := by
  obtain ⟨_, _, h⟩ := State.event_pins_sub s a b c d e f; rw [h]
@[simp] theorem State.event_pins_thermTrip (a b c d e f : Nat) : (s.event a b c d e f).pins.thermTrip = s.pins.thermTrip := by
  obtain ⟨_, _, h⟩ := State.event_pins_sub s a b c d e f; rw [h]
@[simp] theorem State.event_pins_bus (a b c d e f : Nat) : (s.event a b c d e f).pins.bus = s.pins.bus := by
  obtain ⟨_, _, h⟩ := State.event_pins_sub s a b c d e f; rw [h]
@[simp] theorem State.event_pins_cagePrs (a b c d e f : Nat) : (s.event a b c d e f).pins.cagePrs = s.pins.cagePrs := by
  obtain ⟨_, _, h⟩ := State.event_pins_sub s a b c d e f; rw [h]
@[simp] theorem State.event_pins_cageInt (a b c d e f : Nat) : (s.event a b c d e f).pins.cageInt = s.pins.cageInt := by
  obtain ⟨_, _, h⟩ := State.event_pins_sub s a b c d e f; rw [h]
@[simp] theorem State.event_pins_cageRst (a b c d e f : Nat) : (s.event a b c d e f).pins.cageRst = s.pins.cageRst := by
  obtain ⟨_, _, h⟩ := State.event_pins_sub s a b c d e f; rw [h]
@[simp] theorem State.event_pins_cageLpw (a b c d e f : Nat) : (s.event a b c d e f).pins.cageLpw = s.pins.cageLpw := by
  obtain ⟨_, _, h⟩ := State.event_pins_sub s a b c d e f; rw [h]

theorem State.event_ctl_sub (a b c d e f : Nat) : ∃ x0, (s.event a b c d e f).ctl = { s.ctl with msgs := x0 } := by
  rw [State.event]
  dsimp only
  split <;> split
  · obtain ⟨u0, h⟩ := State.logRec_ctl_sub (s.upFault fun x => { x with events := x.events ++ [{ cls := a, kind := b, unit := c, code := d, data := e % 2 ^ 64 }] })
      { cls := a, kind := b, unit := c, code := d, data := e % 2 ^ 64 } f
    exact ⟨_, by rw [h]; rfl⟩
  · obtain ⟨u0, h⟩ := State.logRec_ctl_sub ((s.inc F.FT_EVQ_LOST_COUNT 1).wr F.FT_EVQ_STATUS_OVERFLOW 1)
      { cls := a, kind := b, unit := c, code := d, data := e % 2 ^ 64 } f
    exact ⟨_, by rw [h]; rfl⟩
  · exact ⟨_, rfl⟩
  · exact ⟨_, rfl⟩
@[simp] theorem State.event_ctl_reqArea (a b c d e f : Nat) : (s.event a b c d e f).ctl.reqArea = s.ctl.reqArea := by
  obtain ⟨_, h⟩ := State.event_ctl_sub s a b c d e f; rw [h]
@[simp] theorem State.event_ctl_respArea (a b c d e f : Nat) : (s.event a b c d e f).ctl.respArea = s.ctl.respArea := by
  obtain ⟨_, h⟩ := State.event_ctl_sub s a b c d e f; rw [h]
@[simp] theorem State.event_ctl_control (a b c d e f : Nat) : (s.event a b c d e f).ctl.control = s.ctl.control := by
  obtain ⟨_, h⟩ := State.event_ctl_sub s a b c d e f; rw [h]
@[simp] theorem State.event_ctl_mgmt (a b c d e f : Nat) : (s.event a b c d e f).ctl.mgmt = s.ctl.mgmt := by
  obtain ⟨_, h⟩ := State.event_ctl_sub s a b c d e f; rw [h]
@[simp] theorem State.event_ctl_mgmtOut (a b c d e f : Nat) : (s.event a b c d e f).ctl.mgmtOut = s.ctl.mgmtOut := by
  obtain ⟨_, h⟩ := State.event_ctl_sub s a b c d e f; rw [h]
@[simp] theorem State.event_ctl_order (a b c d e f : Nat) : (s.event a b c d e f).ctl.order = s.ctl.order := by
  obtain ⟨_, h⟩ := State.event_ctl_sub s a b c d e f; rw [h]
@[simp] theorem State.event_ctl_d3hot (a b c d e f : Nat) : (s.event a b c d e f).ctl.d3hot = s.ctl.d3hot := by
  obtain ⟨_, h⟩ := State.event_ctl_sub s a b c d e f; rw [h]
@[simp] theorem State.event_ctl_bme (a b c d e f : Nat) : (s.event a b c d e f).ctl.bme = s.ctl.bme := by
  obtain ⟨_, h⟩ := State.event_ctl_sub s a b c d e f; rw [h]
@[simp] theorem State.event_ctl_msixEn (a b c d e f : Nat) : (s.event a b c d e f).ctl.msixEn = s.ctl.msixEn := by
  obtain ⟨_, h⟩ := State.event_ctl_sub s a b c d e f; rw [h]
@[simp] theorem State.event_ctl_base (a b c d e f : Nat) : (s.event a b c d e f).ctl.base = s.ctl.base := by
  obtain ⟨_, h⟩ := State.event_ctl_sub s a b c d e f; rw [h]
@[simp] theorem State.event_ctl_updating (a b c d e f : Nat) : (s.event a b c d e f).ctl.updating = s.ctl.updating := by
  obtain ⟨_, h⟩ := State.event_ctl_sub s a b c d e f; rw [h]
@[simp] theorem State.event_ctl_faulted (a b c d e f : Nat) : (s.event a b c d e f).ctl.faulted = s.ctl.faulted := by
  obtain ⟨_, h⟩ := State.event_ctl_sub s a b c d e f; rw [h]
@[simp] theorem State.event_ctl_drain (a b c d e f : Nat) : (s.event a b c d e f).ctl.drain = s.ctl.drain := by
  obtain ⟨_, h⟩ := State.event_ctl_sub s a b c d e f; rw [h]
@[simp] theorem State.event_ctl_boundary (a b c d e f : Nat) : (s.event a b c d e f).ctl.boundary = s.ctl.boundary := by
  obtain ⟨_, h⟩ := State.event_ctl_sub s a b c d e f; rw [h]
@[simp] theorem State.event_ctl_load (a b c d e f : Nat) : (s.event a b c d e f).ctl.load = s.ctl.load := by
  obtain ⟨_, h⟩ := State.event_ctl_sub s a b c d e f; rw [h]
@[simp] theorem State.event_ctl_images (a b c d e f : Nat) : (s.event a b c d e f).ctl.images = s.ctl.images := by
  obtain ⟨_, h⟩ := State.event_ctl_sub s a b c d e f; rw [h]
@[simp] theorem State.event_ctl_contexts (a b c d e f : Nat) : (s.event a b c d e f).ctl.contexts = s.ctl.contexts := by
  obtain ⟨_, h⟩ := State.event_ctl_sub s a b c d e f; rw [h]
@[simp] theorem State.event_ctl_switch (a b c d e f : Nat) : (s.event a b c d e f).ctl.switch = s.ctl.switch := by
  obtain ⟨_, h⟩ := State.event_ctl_sub s a b c d e f; rw [h]
@[simp] theorem State.event_ctl_swWait (a b c d e f : Nat) : (s.event a b c d e f).ctl.swWait = s.ctl.swWait := by
  obtain ⟨_, h⟩ := State.event_ctl_sub s a b c d e f; rw [h]
@[simp] theorem State.event_ctl_nextReq (a b c d e f : Nat) : (s.event a b c d e f).ctl.nextReq = s.ctl.nextReq := by
  obtain ⟨_, h⟩ := State.event_ctl_sub s a b c d e f; rw [h]
@[simp] theorem State.event_ctl_resetReq (a b c d e f : Nat) : (s.event a b c d e f).ctl.resetReq = s.ctl.resetReq := by
  obtain ⟨_, h⟩ := State.event_ctl_sub s a b c d e f; rw [h]
@[simp] theorem State.event_ctl_eid (a b c d e f : Nat) : (s.event a b c d e f).ctl.eid = s.ctl.eid := by
  obtain ⟨_, h⟩ := State.event_ctl_sub s a b c d e f; rw [h]
@[simp] theorem State.event_ctl_dyn (a b c d e f : Nat) : (s.event a b c d e f).ctl.dyn = s.ctl.dyn := by
  obtain ⟨_, h⟩ := State.event_ctl_sub s a b c d e f; rw [h]
@[simp] theorem State.event_ctl_mgNext (a b c d e f : Nat) : (s.event a b c d e f).ctl.mgNext = s.ctl.mgNext := by
  obtain ⟨_, h⟩ := State.event_ctl_sub s a b c d e f; rw [h]
@[simp] theorem State.event_ctl_mgState (a b c d e f : Nat) : (s.event a b c d e f).ctl.mgState = s.ctl.mgState := by
  obtain ⟨_, h⟩ := State.event_ctl_sub s a b c d e f; rw [h]
@[simp] theorem State.event_ctl_spdm (a b c d e f : Nat) : (s.event a b c d e f).ctl.spdm = s.ctl.spdm := by
  obtain ⟨_, h⟩ := State.event_ctl_sub s a b c d e f; rw [h]
@[simp] theorem State.event_ctl_spdmOut (a b c d e f : Nat) : (s.event a b c d e f).ctl.spdmOut = s.ctl.spdmOut := by
  obtain ⟨_, h⟩ := State.event_ctl_sub s a b c d e f; rw [h]
@[simp] theorem State.event_ctl_unusable (a b c d e f : Nat) : (s.event a b c d e f).ctl.unusable = s.ctl.unusable := by
  obtain ⟨_, h⟩ := State.event_ctl_sub s a b c d e f; rw [h]
@[simp] theorem State.event_ctl_mctpOut (a b c d e f : Nat) : (s.event a b c d e f).ctl.mctpOut = s.ctl.mctpOut := by
  obtain ⟨_, h⟩ := State.event_ctl_sub s a b c d e f; rw [h]
@[simp] theorem State.event_ctl_win (a b c d e f : Nat) : (s.event a b c d e f).ctl.win = s.ctl.win := by
  obtain ⟨_, h⟩ := State.event_ctl_sub s a b c d e f; rw [h]

theorem State.event_fault_sub (a b c d e f : Nat) : ∃ x0 x1 x2, (s.event a b c d e f).fault = { s.fault with events := x0, log := x1, nextSeq := x2 } := by
  rw [State.event]
  dsimp only
  split <;> split
  · obtain ⟨u0, u1, u2, h⟩ := State.logRec_fault_sub (s.upFault fun x => { x with events := x.events ++ [{ cls := a, kind := b, unit := c, code := d, data := e % 2 ^ 64 }] })
      { cls := a, kind := b, unit := c, code := d, data := e % 2 ^ 64 } f
    exact ⟨_, _, _, by rw [h]; rfl⟩
  · obtain ⟨u0, u1, u2, h⟩ := State.logRec_fault_sub ((s.inc F.FT_EVQ_LOST_COUNT 1).wr F.FT_EVQ_STATUS_OVERFLOW 1)
      { cls := a, kind := b, unit := c, code := d, data := e % 2 ^ 64 } f
    exact ⟨_, _, _, by rw [h]; rfl⟩
  · exact ⟨_, _, _, rfl⟩
  · exact ⟨_, _, _, rfl⟩
@[simp] theorem State.event_fault_reqs (a b c d e f : Nat) : (s.event a b c d e f).fault.reqs = s.fault.reqs := by
  obtain ⟨_, _, _, h⟩ := State.event_fault_sub s a b c d e f; rw [h]
@[simp] theorem State.event_fault_active (a b c d e f : Nat) : (s.event a b c d e f).fault.active = s.fault.active := by
  obtain ⟨_, _, _, h⟩ := State.event_fault_sub s a b c d e f; rw [h]
@[simp] theorem State.event_fault_fenced (a b c d e f : Nat) : (s.event a b c d e f).fault.fenced = s.fault.fenced := by
  obtain ⟨_, _, _, h⟩ := State.event_fault_sub s a b c d e f; rw [h]
@[simp] theorem State.event_fault_corr (a b c d e f : Nat) : (s.event a b c d e f).fault.corr = s.fault.corr := by
  obtain ⟨_, _, _, h⟩ := State.event_fault_sub s a b c d e f; rw [h]

theorem State.settle_pins_sub (old : State) : ∃ x0 x1, (s.settle old).pins = { s.pins with alert := x0, ibi := x1 } := by
  rw [State.settle]
  dsimp only
  generalize hx : (if s.cpFields.rd F.CP_STATE_STATE = old.rd F.CP_STATE_STATE then s.cpFields
    else s.cpFields.upCtl fun c => { c with mgState := true }) = y
  have hy : y.pins = s.pins := by rw [← hx]; split <;> simp
  split
  · exact ⟨s.pins.alert, s.pins.ibi, hy⟩
  · obtain ⟨u, v, h⟩ := State.alertSync_pins_sub (y.cpEvent 1)
    exact ⟨u, v, by rw [h, State.cpEvent_pins, hy]⟩
@[simp] theorem State.settle_pins_pinEn (old : State) : (s.settle old).pins.pinEn = s.pins.pinEn := by
  obtain ⟨_, _, h⟩ := State.settle_pins_sub s old; rw [h]
@[simp] theorem State.settle_pins_swClosed (old : State) : (s.settle old).pins.swClosed = s.pins.swClosed := by
  obtain ⟨_, _, h⟩ := State.settle_pins_sub s old; rw [h]
@[simp] theorem State.settle_pins_underV (old : State) : (s.settle old).pins.underV = s.pins.underV := by
  obtain ⟨_, _, h⟩ := State.settle_pins_sub s old; rw [h]
@[simp] theorem State.settle_pins_overV (old : State) : (s.settle old).pins.overV = s.pins.overV := by
  obtain ⟨_, _, h⟩ := State.settle_pins_sub s old; rw [h]
@[simp] theorem State.settle_pins_resetN (old : State) : (s.settle old).pins.resetN = s.pins.resetN := by
  obtain ⟨_, _, h⟩ := State.settle_pins_sub s old; rw [h]
@[simp] theorem State.settle_pins_filtering (old : State) : (s.settle old).pins.filtering = s.pins.filtering := by
  obtain ⟨_, _, h⟩ := State.settle_pins_sub s old; rw [h]
@[simp] theorem State.settle_pins_inReset (old : State) : (s.settle old).pins.inReset = s.pins.inReset := by
  obtain ⟨_, _, h⟩ := State.settle_pins_sub s old; rw [h]
@[simp] theorem State.settle_pins_stby (old : State) : (s.settle old).pins.stby = s.pins.stby := by
  obtain ⟨_, _, h⟩ := State.settle_pins_sub s old; rw [h]
@[simp] theorem State.settle_pins_rails (old : State) : (s.settle old).pins.rails = s.pins.rails := by
  obtain ⟨_, _, h⟩ := State.settle_pins_sub s old; rw [h]
@[simp] theorem State.settle_pins_ramping (old : State) : (s.settle old).pins.ramping = s.pins.ramping := by
  obtain ⟨_, _, h⟩ := State.settle_pins_sub s old; rw [h]
@[simp] theorem State.settle_pins_railFault (old : State) : (s.settle old).pins.railFault = s.pins.railFault := by
  obtain ⟨_, _, h⟩ := State.settle_pins_sub s old; rw [h]
@[simp] theorem State.settle_pins_pwrGood (old : State) : (s.settle old).pins.pwrGood = s.pins.pwrGood := by
  obtain ⟨_, _, h⟩ := State.settle_pins_sub s old; rw [h]
@[simp] theorem State.settle_pins_thermTrip (old : State) : (s.settle old).pins.thermTrip = s.pins.thermTrip := by
  obtain ⟨_, _, h⟩ := State.settle_pins_sub s old; rw [h]
@[simp] theorem State.settle_pins_bus (old : State) : (s.settle old).pins.bus = s.pins.bus := by
  obtain ⟨_, _, h⟩ := State.settle_pins_sub s old; rw [h]
@[simp] theorem State.settle_pins_cagePrs (old : State) : (s.settle old).pins.cagePrs = s.pins.cagePrs := by
  obtain ⟨_, _, h⟩ := State.settle_pins_sub s old; rw [h]
@[simp] theorem State.settle_pins_cageInt (old : State) : (s.settle old).pins.cageInt = s.pins.cageInt := by
  obtain ⟨_, _, h⟩ := State.settle_pins_sub s old; rw [h]
@[simp] theorem State.settle_pins_cageRst (old : State) : (s.settle old).pins.cageRst = s.pins.cageRst := by
  obtain ⟨_, _, h⟩ := State.settle_pins_sub s old; rw [h]
@[simp] theorem State.settle_pins_cageLpw (old : State) : (s.settle old).pins.cageLpw = s.pins.cageLpw := by
  obtain ⟨_, _, h⟩ := State.settle_pins_sub s old; rw [h]

theorem State.settle_ctl_sub (old : State) : ∃ x0 x1, (s.settle old).ctl = { s.ctl with msgs := x0, mgState := x1 } := by
  rw [State.settle]
  dsimp only
  generalize hx : (if s.cpFields.rd F.CP_STATE_STATE = old.rd F.CP_STATE_STATE then s.cpFields
    else s.cpFields.upCtl fun c => { c with mgState := true }) = y
  have hy : ∃ m, y.ctl = { s.ctl with mgState := m } := by
    rw [← hx]
    split
    · exact ⟨s.ctl.mgState, by simp⟩
    · exact ⟨true, by simp⟩
  obtain ⟨m, hy⟩ := hy
  split
  · exact ⟨s.ctl.msgs, m, hy⟩
  · obtain ⟨u, h⟩ := State.cpEvent_ctl_sub y 1
    exact ⟨u, m, by rw [State.alertSync_ctl, h, hy]⟩
@[simp] theorem State.settle_ctl_reqArea (old : State) : (s.settle old).ctl.reqArea = s.ctl.reqArea := by
  obtain ⟨_, _, h⟩ := State.settle_ctl_sub s old; rw [h]
@[simp] theorem State.settle_ctl_respArea (old : State) : (s.settle old).ctl.respArea = s.ctl.respArea := by
  obtain ⟨_, _, h⟩ := State.settle_ctl_sub s old; rw [h]
@[simp] theorem State.settle_ctl_control (old : State) : (s.settle old).ctl.control = s.ctl.control := by
  obtain ⟨_, _, h⟩ := State.settle_ctl_sub s old; rw [h]
@[simp] theorem State.settle_ctl_mgmt (old : State) : (s.settle old).ctl.mgmt = s.ctl.mgmt := by
  obtain ⟨_, _, h⟩ := State.settle_ctl_sub s old; rw [h]
@[simp] theorem State.settle_ctl_mgmtOut (old : State) : (s.settle old).ctl.mgmtOut = s.ctl.mgmtOut := by
  obtain ⟨_, _, h⟩ := State.settle_ctl_sub s old; rw [h]
@[simp] theorem State.settle_ctl_order (old : State) : (s.settle old).ctl.order = s.ctl.order := by
  obtain ⟨_, _, h⟩ := State.settle_ctl_sub s old; rw [h]
@[simp] theorem State.settle_ctl_d3hot (old : State) : (s.settle old).ctl.d3hot = s.ctl.d3hot := by
  obtain ⟨_, _, h⟩ := State.settle_ctl_sub s old; rw [h]
@[simp] theorem State.settle_ctl_bme (old : State) : (s.settle old).ctl.bme = s.ctl.bme := by
  obtain ⟨_, _, h⟩ := State.settle_ctl_sub s old; rw [h]
@[simp] theorem State.settle_ctl_msixEn (old : State) : (s.settle old).ctl.msixEn = s.ctl.msixEn := by
  obtain ⟨_, _, h⟩ := State.settle_ctl_sub s old; rw [h]
@[simp] theorem State.settle_ctl_base (old : State) : (s.settle old).ctl.base = s.ctl.base := by
  obtain ⟨_, _, h⟩ := State.settle_ctl_sub s old; rw [h]
@[simp] theorem State.settle_ctl_updating (old : State) : (s.settle old).ctl.updating = s.ctl.updating := by
  obtain ⟨_, _, h⟩ := State.settle_ctl_sub s old; rw [h]
@[simp] theorem State.settle_ctl_faulted (old : State) : (s.settle old).ctl.faulted = s.ctl.faulted := by
  obtain ⟨_, _, h⟩ := State.settle_ctl_sub s old; rw [h]
@[simp] theorem State.settle_ctl_drain (old : State) : (s.settle old).ctl.drain = s.ctl.drain := by
  obtain ⟨_, _, h⟩ := State.settle_ctl_sub s old; rw [h]
@[simp] theorem State.settle_ctl_boundary (old : State) : (s.settle old).ctl.boundary = s.ctl.boundary := by
  obtain ⟨_, _, h⟩ := State.settle_ctl_sub s old; rw [h]
@[simp] theorem State.settle_ctl_load (old : State) : (s.settle old).ctl.load = s.ctl.load := by
  obtain ⟨_, _, h⟩ := State.settle_ctl_sub s old; rw [h]
@[simp] theorem State.settle_ctl_images (old : State) : (s.settle old).ctl.images = s.ctl.images := by
  obtain ⟨_, _, h⟩ := State.settle_ctl_sub s old; rw [h]
@[simp] theorem State.settle_ctl_contexts (old : State) : (s.settle old).ctl.contexts = s.ctl.contexts := by
  obtain ⟨_, _, h⟩ := State.settle_ctl_sub s old; rw [h]
@[simp] theorem State.settle_ctl_switch (old : State) : (s.settle old).ctl.switch = s.ctl.switch := by
  obtain ⟨_, _, h⟩ := State.settle_ctl_sub s old; rw [h]
@[simp] theorem State.settle_ctl_swWait (old : State) : (s.settle old).ctl.swWait = s.ctl.swWait := by
  obtain ⟨_, _, h⟩ := State.settle_ctl_sub s old; rw [h]
@[simp] theorem State.settle_ctl_nextReq (old : State) : (s.settle old).ctl.nextReq = s.ctl.nextReq := by
  obtain ⟨_, _, h⟩ := State.settle_ctl_sub s old; rw [h]
@[simp] theorem State.settle_ctl_resetReq (old : State) : (s.settle old).ctl.resetReq = s.ctl.resetReq := by
  obtain ⟨_, _, h⟩ := State.settle_ctl_sub s old; rw [h]
@[simp] theorem State.settle_ctl_eid (old : State) : (s.settle old).ctl.eid = s.ctl.eid := by
  obtain ⟨_, _, h⟩ := State.settle_ctl_sub s old; rw [h]
@[simp] theorem State.settle_ctl_dyn (old : State) : (s.settle old).ctl.dyn = s.ctl.dyn := by
  obtain ⟨_, _, h⟩ := State.settle_ctl_sub s old; rw [h]
@[simp] theorem State.settle_ctl_mgNext (old : State) : (s.settle old).ctl.mgNext = s.ctl.mgNext := by
  obtain ⟨_, _, h⟩ := State.settle_ctl_sub s old; rw [h]
@[simp] theorem State.settle_ctl_spdm (old : State) : (s.settle old).ctl.spdm = s.ctl.spdm := by
  obtain ⟨_, _, h⟩ := State.settle_ctl_sub s old; rw [h]
@[simp] theorem State.settle_ctl_spdmOut (old : State) : (s.settle old).ctl.spdmOut = s.ctl.spdmOut := by
  obtain ⟨_, _, h⟩ := State.settle_ctl_sub s old; rw [h]
@[simp] theorem State.settle_ctl_unusable (old : State) : (s.settle old).ctl.unusable = s.ctl.unusable := by
  obtain ⟨_, _, h⟩ := State.settle_ctl_sub s old; rw [h]
@[simp] theorem State.settle_ctl_mctpOut (old : State) : (s.settle old).ctl.mctpOut = s.ctl.mctpOut := by
  obtain ⟨_, _, h⟩ := State.settle_ctl_sub s old; rw [h]
@[simp] theorem State.settle_ctl_win (old : State) : (s.settle old).ctl.win = s.ctl.win := by
  obtain ⟨_, _, h⟩ := State.settle_ctl_sub s old; rw [h]

theorem State.grantSync_ctl_sub : ∃ x0, (s.grantSync).ctl = { s.ctl with msgs := x0 } := by
  rw [State.grantSync]
  split
  · exact ⟨_, rfl⟩
  · dsimp only
    split
    · obtain ⟨u, h⟩ := State.cpEvent_ctl_sub (State.inc _ F.PW_GRANT_SEQ 1) 3
      exact ⟨u, by rw [h]; rfl⟩
    · exact ⟨_, rfl⟩
@[simp] theorem State.grantSync_ctl_reqArea : (s.grantSync).ctl.reqArea = s.ctl.reqArea := by
  obtain ⟨_, h⟩ := State.grantSync_ctl_sub s ; rw [h]
@[simp] theorem State.grantSync_ctl_respArea : (s.grantSync).ctl.respArea = s.ctl.respArea := by
  obtain ⟨_, h⟩ := State.grantSync_ctl_sub s ; rw [h]
@[simp] theorem State.grantSync_ctl_control : (s.grantSync).ctl.control = s.ctl.control := by
  obtain ⟨_, h⟩ := State.grantSync_ctl_sub s ; rw [h]
@[simp] theorem State.grantSync_ctl_mgmt : (s.grantSync).ctl.mgmt = s.ctl.mgmt := by
  obtain ⟨_, h⟩ := State.grantSync_ctl_sub s ; rw [h]
@[simp] theorem State.grantSync_ctl_mgmtOut : (s.grantSync).ctl.mgmtOut = s.ctl.mgmtOut := by
  obtain ⟨_, h⟩ := State.grantSync_ctl_sub s ; rw [h]
@[simp] theorem State.grantSync_ctl_order : (s.grantSync).ctl.order = s.ctl.order := by
  obtain ⟨_, h⟩ := State.grantSync_ctl_sub s ; rw [h]
@[simp] theorem State.grantSync_ctl_d3hot : (s.grantSync).ctl.d3hot = s.ctl.d3hot := by
  obtain ⟨_, h⟩ := State.grantSync_ctl_sub s ; rw [h]
@[simp] theorem State.grantSync_ctl_bme : (s.grantSync).ctl.bme = s.ctl.bme := by
  obtain ⟨_, h⟩ := State.grantSync_ctl_sub s ; rw [h]
@[simp] theorem State.grantSync_ctl_msixEn : (s.grantSync).ctl.msixEn = s.ctl.msixEn := by
  obtain ⟨_, h⟩ := State.grantSync_ctl_sub s ; rw [h]
@[simp] theorem State.grantSync_ctl_base : (s.grantSync).ctl.base = s.ctl.base := by
  obtain ⟨_, h⟩ := State.grantSync_ctl_sub s ; rw [h]
@[simp] theorem State.grantSync_ctl_updating : (s.grantSync).ctl.updating = s.ctl.updating := by
  obtain ⟨_, h⟩ := State.grantSync_ctl_sub s ; rw [h]
@[simp] theorem State.grantSync_ctl_faulted : (s.grantSync).ctl.faulted = s.ctl.faulted := by
  obtain ⟨_, h⟩ := State.grantSync_ctl_sub s ; rw [h]
@[simp] theorem State.grantSync_ctl_drain : (s.grantSync).ctl.drain = s.ctl.drain := by
  obtain ⟨_, h⟩ := State.grantSync_ctl_sub s ; rw [h]
@[simp] theorem State.grantSync_ctl_boundary : (s.grantSync).ctl.boundary = s.ctl.boundary := by
  obtain ⟨_, h⟩ := State.grantSync_ctl_sub s ; rw [h]
@[simp] theorem State.grantSync_ctl_load : (s.grantSync).ctl.load = s.ctl.load := by
  obtain ⟨_, h⟩ := State.grantSync_ctl_sub s ; rw [h]
@[simp] theorem State.grantSync_ctl_images : (s.grantSync).ctl.images = s.ctl.images := by
  obtain ⟨_, h⟩ := State.grantSync_ctl_sub s ; rw [h]
@[simp] theorem State.grantSync_ctl_contexts : (s.grantSync).ctl.contexts = s.ctl.contexts := by
  obtain ⟨_, h⟩ := State.grantSync_ctl_sub s ; rw [h]
@[simp] theorem State.grantSync_ctl_switch : (s.grantSync).ctl.switch = s.ctl.switch := by
  obtain ⟨_, h⟩ := State.grantSync_ctl_sub s ; rw [h]
@[simp] theorem State.grantSync_ctl_swWait : (s.grantSync).ctl.swWait = s.ctl.swWait := by
  obtain ⟨_, h⟩ := State.grantSync_ctl_sub s ; rw [h]
@[simp] theorem State.grantSync_ctl_nextReq : (s.grantSync).ctl.nextReq = s.ctl.nextReq := by
  obtain ⟨_, h⟩ := State.grantSync_ctl_sub s ; rw [h]
@[simp] theorem State.grantSync_ctl_resetReq : (s.grantSync).ctl.resetReq = s.ctl.resetReq := by
  obtain ⟨_, h⟩ := State.grantSync_ctl_sub s ; rw [h]
@[simp] theorem State.grantSync_ctl_eid : (s.grantSync).ctl.eid = s.ctl.eid := by
  obtain ⟨_, h⟩ := State.grantSync_ctl_sub s ; rw [h]
@[simp] theorem State.grantSync_ctl_dyn : (s.grantSync).ctl.dyn = s.ctl.dyn := by
  obtain ⟨_, h⟩ := State.grantSync_ctl_sub s ; rw [h]
@[simp] theorem State.grantSync_ctl_mgNext : (s.grantSync).ctl.mgNext = s.ctl.mgNext := by
  obtain ⟨_, h⟩ := State.grantSync_ctl_sub s ; rw [h]
@[simp] theorem State.grantSync_ctl_mgState : (s.grantSync).ctl.mgState = s.ctl.mgState := by
  obtain ⟨_, h⟩ := State.grantSync_ctl_sub s ; rw [h]
@[simp] theorem State.grantSync_ctl_spdm : (s.grantSync).ctl.spdm = s.ctl.spdm := by
  obtain ⟨_, h⟩ := State.grantSync_ctl_sub s ; rw [h]
@[simp] theorem State.grantSync_ctl_spdmOut : (s.grantSync).ctl.spdmOut = s.ctl.spdmOut := by
  obtain ⟨_, h⟩ := State.grantSync_ctl_sub s ; rw [h]
@[simp] theorem State.grantSync_ctl_unusable : (s.grantSync).ctl.unusable = s.ctl.unusable := by
  obtain ⟨_, h⟩ := State.grantSync_ctl_sub s ; rw [h]
@[simp] theorem State.grantSync_ctl_mctpOut : (s.grantSync).ctl.mctpOut = s.ctl.mctpOut := by
  obtain ⟨_, h⟩ := State.grantSync_ctl_sub s ; rw [h]
@[simp] theorem State.grantSync_ctl_win : (s.grantSync).ctl.win = s.ctl.win := by
  obtain ⟨_, h⟩ := State.grantSync_ctl_sub s ; rw [h]

theorem State.haltRecord_pins_sub (t a b c d e : Nat) : ∃ x0 x1, (s.haltRecord t a b c d e).pins = { s.pins with alert := x0, ibi := x1 } := by
  rw [State.haltRecord]
  split
  · exact ⟨s.pins.alert, s.pins.ibi, by rw [State.wr_pins]; split <;> simp⟩
  · dsimp only
    generalize hx : State.markHalted _ t = y
    have hy : y.pins = s.pins := by rw [← hx]; simp
    obtain ⟨u0, u1, h⟩ := State.event_pins_sub y 0 0 t (0x200 + a) (State.reg _ haltFields t) 0
    exact ⟨u0, u1, by rw [h, hy]⟩
@[simp] theorem State.haltRecord_pins_pinEn (t a b c d e : Nat) : (s.haltRecord t a b c d e).pins.pinEn = s.pins.pinEn := by
  obtain ⟨_, _, h⟩ := State.haltRecord_pins_sub s t a b c d e; rw [h]
@[simp] theorem State.haltRecord_pins_swClosed (t a b c d e : Nat) : (s.haltRecord t a b c d e).pins.swClosed = s.pins.swClosed := by
  obtain ⟨_, _, h⟩ := State.haltRecord_pins_sub s t a b c d e; rw [h]
@[simp] theorem State.haltRecord_pins_underV (t a b c d e : Nat) : (s.haltRecord t a b c d e).pins.underV = s.pins.underV := by
  obtain ⟨_, _, h⟩ := State.haltRecord_pins_sub s t a b c d e; rw [h]
@[simp] theorem State.haltRecord_pins_overV (t a b c d e : Nat) : (s.haltRecord t a b c d e).pins.overV = s.pins.overV := by
  obtain ⟨_, _, h⟩ := State.haltRecord_pins_sub s t a b c d e; rw [h]
@[simp] theorem State.haltRecord_pins_resetN (t a b c d e : Nat) : (s.haltRecord t a b c d e).pins.resetN = s.pins.resetN := by
  obtain ⟨_, _, h⟩ := State.haltRecord_pins_sub s t a b c d e; rw [h]
@[simp] theorem State.haltRecord_pins_filtering (t a b c d e : Nat) : (s.haltRecord t a b c d e).pins.filtering = s.pins.filtering := by
  obtain ⟨_, _, h⟩ := State.haltRecord_pins_sub s t a b c d e; rw [h]
@[simp] theorem State.haltRecord_pins_inReset (t a b c d e : Nat) : (s.haltRecord t a b c d e).pins.inReset = s.pins.inReset := by
  obtain ⟨_, _, h⟩ := State.haltRecord_pins_sub s t a b c d e; rw [h]
@[simp] theorem State.haltRecord_pins_stby (t a b c d e : Nat) : (s.haltRecord t a b c d e).pins.stby = s.pins.stby := by
  obtain ⟨_, _, h⟩ := State.haltRecord_pins_sub s t a b c d e; rw [h]
@[simp] theorem State.haltRecord_pins_rails (t a b c d e : Nat) : (s.haltRecord t a b c d e).pins.rails = s.pins.rails := by
  obtain ⟨_, _, h⟩ := State.haltRecord_pins_sub s t a b c d e; rw [h]
@[simp] theorem State.haltRecord_pins_ramping (t a b c d e : Nat) : (s.haltRecord t a b c d e).pins.ramping = s.pins.ramping := by
  obtain ⟨_, _, h⟩ := State.haltRecord_pins_sub s t a b c d e; rw [h]
@[simp] theorem State.haltRecord_pins_railFault (t a b c d e : Nat) : (s.haltRecord t a b c d e).pins.railFault = s.pins.railFault := by
  obtain ⟨_, _, h⟩ := State.haltRecord_pins_sub s t a b c d e; rw [h]
@[simp] theorem State.haltRecord_pins_pwrGood (t a b c d e : Nat) : (s.haltRecord t a b c d e).pins.pwrGood = s.pins.pwrGood := by
  obtain ⟨_, _, h⟩ := State.haltRecord_pins_sub s t a b c d e; rw [h]
@[simp] theorem State.haltRecord_pins_thermTrip (t a b c d e : Nat) : (s.haltRecord t a b c d e).pins.thermTrip = s.pins.thermTrip := by
  obtain ⟨_, _, h⟩ := State.haltRecord_pins_sub s t a b c d e; rw [h]
@[simp] theorem State.haltRecord_pins_bus (t a b c d e : Nat) : (s.haltRecord t a b c d e).pins.bus = s.pins.bus := by
  obtain ⟨_, _, h⟩ := State.haltRecord_pins_sub s t a b c d e; rw [h]
@[simp] theorem State.haltRecord_pins_cagePrs (t a b c d e : Nat) : (s.haltRecord t a b c d e).pins.cagePrs = s.pins.cagePrs := by
  obtain ⟨_, _, h⟩ := State.haltRecord_pins_sub s t a b c d e; rw [h]
@[simp] theorem State.haltRecord_pins_cageInt (t a b c d e : Nat) : (s.haltRecord t a b c d e).pins.cageInt = s.pins.cageInt := by
  obtain ⟨_, _, h⟩ := State.haltRecord_pins_sub s t a b c d e; rw [h]
@[simp] theorem State.haltRecord_pins_cageRst (t a b c d e : Nat) : (s.haltRecord t a b c d e).pins.cageRst = s.pins.cageRst := by
  obtain ⟨_, _, h⟩ := State.haltRecord_pins_sub s t a b c d e; rw [h]
@[simp] theorem State.haltRecord_pins_cageLpw (t a b c d e : Nat) : (s.haltRecord t a b c d e).pins.cageLpw = s.pins.cageLpw := by
  obtain ⟨_, _, h⟩ := State.haltRecord_pins_sub s t a b c d e; rw [h]

theorem State.halt_pins_sub (t a b c d e : Nat) : ∃ x0 x1, (s.halt t a b c d e).pins = { s.pins with alert := x0, ibi := x1 } := by
  rw [State.halt]
  dsimp only
  split
  · exact State.haltRecord_pins_sub s t a b c d e
  · obtain ⟨u0, u1, h⟩ := State.haltRecord_pins_sub s t a b c d e
    exact ⟨u0, u1, by rw [State.upTile_pins, State.wr_pins, State.dropWait_pins, h]⟩
@[simp] theorem State.halt_pins_pinEn (t a b c d e : Nat) : (s.halt t a b c d e).pins.pinEn = s.pins.pinEn := by
  obtain ⟨_, _, h⟩ := State.halt_pins_sub s t a b c d e; rw [h]
@[simp] theorem State.halt_pins_swClosed (t a b c d e : Nat) : (s.halt t a b c d e).pins.swClosed = s.pins.swClosed := by
  obtain ⟨_, _, h⟩ := State.halt_pins_sub s t a b c d e; rw [h]
@[simp] theorem State.halt_pins_underV (t a b c d e : Nat) : (s.halt t a b c d e).pins.underV = s.pins.underV := by
  obtain ⟨_, _, h⟩ := State.halt_pins_sub s t a b c d e; rw [h]
@[simp] theorem State.halt_pins_overV (t a b c d e : Nat) : (s.halt t a b c d e).pins.overV = s.pins.overV := by
  obtain ⟨_, _, h⟩ := State.halt_pins_sub s t a b c d e; rw [h]
@[simp] theorem State.halt_pins_resetN (t a b c d e : Nat) : (s.halt t a b c d e).pins.resetN = s.pins.resetN := by
  obtain ⟨_, _, h⟩ := State.halt_pins_sub s t a b c d e; rw [h]
@[simp] theorem State.halt_pins_filtering (t a b c d e : Nat) : (s.halt t a b c d e).pins.filtering = s.pins.filtering := by
  obtain ⟨_, _, h⟩ := State.halt_pins_sub s t a b c d e; rw [h]
@[simp] theorem State.halt_pins_inReset (t a b c d e : Nat) : (s.halt t a b c d e).pins.inReset = s.pins.inReset := by
  obtain ⟨_, _, h⟩ := State.halt_pins_sub s t a b c d e; rw [h]
@[simp] theorem State.halt_pins_stby (t a b c d e : Nat) : (s.halt t a b c d e).pins.stby = s.pins.stby := by
  obtain ⟨_, _, h⟩ := State.halt_pins_sub s t a b c d e; rw [h]
@[simp] theorem State.halt_pins_rails (t a b c d e : Nat) : (s.halt t a b c d e).pins.rails = s.pins.rails := by
  obtain ⟨_, _, h⟩ := State.halt_pins_sub s t a b c d e; rw [h]
@[simp] theorem State.halt_pins_ramping (t a b c d e : Nat) : (s.halt t a b c d e).pins.ramping = s.pins.ramping := by
  obtain ⟨_, _, h⟩ := State.halt_pins_sub s t a b c d e; rw [h]
@[simp] theorem State.halt_pins_railFault (t a b c d e : Nat) : (s.halt t a b c d e).pins.railFault = s.pins.railFault := by
  obtain ⟨_, _, h⟩ := State.halt_pins_sub s t a b c d e; rw [h]
@[simp] theorem State.halt_pins_pwrGood (t a b c d e : Nat) : (s.halt t a b c d e).pins.pwrGood = s.pins.pwrGood := by
  obtain ⟨_, _, h⟩ := State.halt_pins_sub s t a b c d e; rw [h]
@[simp] theorem State.halt_pins_thermTrip (t a b c d e : Nat) : (s.halt t a b c d e).pins.thermTrip = s.pins.thermTrip := by
  obtain ⟨_, _, h⟩ := State.halt_pins_sub s t a b c d e; rw [h]
@[simp] theorem State.halt_pins_bus (t a b c d e : Nat) : (s.halt t a b c d e).pins.bus = s.pins.bus := by
  obtain ⟨_, _, h⟩ := State.halt_pins_sub s t a b c d e; rw [h]
@[simp] theorem State.halt_pins_cagePrs (t a b c d e : Nat) : (s.halt t a b c d e).pins.cagePrs = s.pins.cagePrs := by
  obtain ⟨_, _, h⟩ := State.halt_pins_sub s t a b c d e; rw [h]
@[simp] theorem State.halt_pins_cageInt (t a b c d e : Nat) : (s.halt t a b c d e).pins.cageInt = s.pins.cageInt := by
  obtain ⟨_, _, h⟩ := State.halt_pins_sub s t a b c d e; rw [h]
@[simp] theorem State.halt_pins_cageRst (t a b c d e : Nat) : (s.halt t a b c d e).pins.cageRst = s.pins.cageRst := by
  obtain ⟨_, _, h⟩ := State.halt_pins_sub s t a b c d e; rw [h]
@[simp] theorem State.halt_pins_cageLpw (t a b c d e : Nat) : (s.halt t a b c d e).pins.cageLpw = s.pins.cageLpw := by
  obtain ⟨_, _, h⟩ := State.halt_pins_sub s t a b c d e; rw [h]

theorem State.haltRecord_ctl_sub (t a b c d e : Nat) : ∃ x0, (s.haltRecord t a b c d e).ctl = { s.ctl with msgs := x0 } := by
  rw [State.haltRecord]
  split
  · exact ⟨s.ctl.msgs, by rw [State.wr_ctl]; split <;> simp⟩
  · dsimp only
    generalize hx : State.markHalted _ t = y
    have hy : y.ctl = s.ctl := by rw [← hx]; simp
    obtain ⟨u0, h⟩ := State.event_ctl_sub y 0 0 t (0x200 + a) (State.reg _ haltFields t) 0
    exact ⟨u0, by rw [h, hy]⟩
@[simp] theorem State.haltRecord_ctl_reqArea (t a b c d e : Nat) : (s.haltRecord t a b c d e).ctl.reqArea = s.ctl.reqArea := by
  obtain ⟨_, h⟩ := State.haltRecord_ctl_sub s t a b c d e; rw [h]
@[simp] theorem State.haltRecord_ctl_respArea (t a b c d e : Nat) : (s.haltRecord t a b c d e).ctl.respArea = s.ctl.respArea := by
  obtain ⟨_, h⟩ := State.haltRecord_ctl_sub s t a b c d e; rw [h]
@[simp] theorem State.haltRecord_ctl_control (t a b c d e : Nat) : (s.haltRecord t a b c d e).ctl.control = s.ctl.control := by
  obtain ⟨_, h⟩ := State.haltRecord_ctl_sub s t a b c d e; rw [h]
@[simp] theorem State.haltRecord_ctl_mgmt (t a b c d e : Nat) : (s.haltRecord t a b c d e).ctl.mgmt = s.ctl.mgmt := by
  obtain ⟨_, h⟩ := State.haltRecord_ctl_sub s t a b c d e; rw [h]
@[simp] theorem State.haltRecord_ctl_mgmtOut (t a b c d e : Nat) : (s.haltRecord t a b c d e).ctl.mgmtOut = s.ctl.mgmtOut := by
  obtain ⟨_, h⟩ := State.haltRecord_ctl_sub s t a b c d e; rw [h]
@[simp] theorem State.haltRecord_ctl_order (t a b c d e : Nat) : (s.haltRecord t a b c d e).ctl.order = s.ctl.order := by
  obtain ⟨_, h⟩ := State.haltRecord_ctl_sub s t a b c d e; rw [h]
@[simp] theorem State.haltRecord_ctl_d3hot (t a b c d e : Nat) : (s.haltRecord t a b c d e).ctl.d3hot = s.ctl.d3hot := by
  obtain ⟨_, h⟩ := State.haltRecord_ctl_sub s t a b c d e; rw [h]
@[simp] theorem State.haltRecord_ctl_bme (t a b c d e : Nat) : (s.haltRecord t a b c d e).ctl.bme = s.ctl.bme := by
  obtain ⟨_, h⟩ := State.haltRecord_ctl_sub s t a b c d e; rw [h]
@[simp] theorem State.haltRecord_ctl_msixEn (t a b c d e : Nat) : (s.haltRecord t a b c d e).ctl.msixEn = s.ctl.msixEn := by
  obtain ⟨_, h⟩ := State.haltRecord_ctl_sub s t a b c d e; rw [h]
@[simp] theorem State.haltRecord_ctl_base (t a b c d e : Nat) : (s.haltRecord t a b c d e).ctl.base = s.ctl.base := by
  obtain ⟨_, h⟩ := State.haltRecord_ctl_sub s t a b c d e; rw [h]
@[simp] theorem State.haltRecord_ctl_updating (t a b c d e : Nat) : (s.haltRecord t a b c d e).ctl.updating = s.ctl.updating := by
  obtain ⟨_, h⟩ := State.haltRecord_ctl_sub s t a b c d e; rw [h]
@[simp] theorem State.haltRecord_ctl_faulted (t a b c d e : Nat) : (s.haltRecord t a b c d e).ctl.faulted = s.ctl.faulted := by
  obtain ⟨_, h⟩ := State.haltRecord_ctl_sub s t a b c d e; rw [h]
@[simp] theorem State.haltRecord_ctl_drain (t a b c d e : Nat) : (s.haltRecord t a b c d e).ctl.drain = s.ctl.drain := by
  obtain ⟨_, h⟩ := State.haltRecord_ctl_sub s t a b c d e; rw [h]
@[simp] theorem State.haltRecord_ctl_boundary (t a b c d e : Nat) : (s.haltRecord t a b c d e).ctl.boundary = s.ctl.boundary := by
  obtain ⟨_, h⟩ := State.haltRecord_ctl_sub s t a b c d e; rw [h]
@[simp] theorem State.haltRecord_ctl_load (t a b c d e : Nat) : (s.haltRecord t a b c d e).ctl.load = s.ctl.load := by
  obtain ⟨_, h⟩ := State.haltRecord_ctl_sub s t a b c d e; rw [h]
@[simp] theorem State.haltRecord_ctl_images (t a b c d e : Nat) : (s.haltRecord t a b c d e).ctl.images = s.ctl.images := by
  obtain ⟨_, h⟩ := State.haltRecord_ctl_sub s t a b c d e; rw [h]
@[simp] theorem State.haltRecord_ctl_contexts (t a b c d e : Nat) : (s.haltRecord t a b c d e).ctl.contexts = s.ctl.contexts := by
  obtain ⟨_, h⟩ := State.haltRecord_ctl_sub s t a b c d e; rw [h]
@[simp] theorem State.haltRecord_ctl_switch (t a b c d e : Nat) : (s.haltRecord t a b c d e).ctl.switch = s.ctl.switch := by
  obtain ⟨_, h⟩ := State.haltRecord_ctl_sub s t a b c d e; rw [h]
@[simp] theorem State.haltRecord_ctl_swWait (t a b c d e : Nat) : (s.haltRecord t a b c d e).ctl.swWait = s.ctl.swWait := by
  obtain ⟨_, h⟩ := State.haltRecord_ctl_sub s t a b c d e; rw [h]
@[simp] theorem State.haltRecord_ctl_nextReq (t a b c d e : Nat) : (s.haltRecord t a b c d e).ctl.nextReq = s.ctl.nextReq := by
  obtain ⟨_, h⟩ := State.haltRecord_ctl_sub s t a b c d e; rw [h]
@[simp] theorem State.haltRecord_ctl_resetReq (t a b c d e : Nat) : (s.haltRecord t a b c d e).ctl.resetReq = s.ctl.resetReq := by
  obtain ⟨_, h⟩ := State.haltRecord_ctl_sub s t a b c d e; rw [h]
@[simp] theorem State.haltRecord_ctl_eid (t a b c d e : Nat) : (s.haltRecord t a b c d e).ctl.eid = s.ctl.eid := by
  obtain ⟨_, h⟩ := State.haltRecord_ctl_sub s t a b c d e; rw [h]
@[simp] theorem State.haltRecord_ctl_dyn (t a b c d e : Nat) : (s.haltRecord t a b c d e).ctl.dyn = s.ctl.dyn := by
  obtain ⟨_, h⟩ := State.haltRecord_ctl_sub s t a b c d e; rw [h]
@[simp] theorem State.haltRecord_ctl_mgNext (t a b c d e : Nat) : (s.haltRecord t a b c d e).ctl.mgNext = s.ctl.mgNext := by
  obtain ⟨_, h⟩ := State.haltRecord_ctl_sub s t a b c d e; rw [h]
@[simp] theorem State.haltRecord_ctl_mgState (t a b c d e : Nat) : (s.haltRecord t a b c d e).ctl.mgState = s.ctl.mgState := by
  obtain ⟨_, h⟩ := State.haltRecord_ctl_sub s t a b c d e; rw [h]
@[simp] theorem State.haltRecord_ctl_spdm (t a b c d e : Nat) : (s.haltRecord t a b c d e).ctl.spdm = s.ctl.spdm := by
  obtain ⟨_, h⟩ := State.haltRecord_ctl_sub s t a b c d e; rw [h]
@[simp] theorem State.haltRecord_ctl_spdmOut (t a b c d e : Nat) : (s.haltRecord t a b c d e).ctl.spdmOut = s.ctl.spdmOut := by
  obtain ⟨_, h⟩ := State.haltRecord_ctl_sub s t a b c d e; rw [h]
@[simp] theorem State.haltRecord_ctl_unusable (t a b c d e : Nat) : (s.haltRecord t a b c d e).ctl.unusable = s.ctl.unusable := by
  obtain ⟨_, h⟩ := State.haltRecord_ctl_sub s t a b c d e; rw [h]
@[simp] theorem State.haltRecord_ctl_mctpOut (t a b c d e : Nat) : (s.haltRecord t a b c d e).ctl.mctpOut = s.ctl.mctpOut := by
  obtain ⟨_, h⟩ := State.haltRecord_ctl_sub s t a b c d e; rw [h]
@[simp] theorem State.haltRecord_ctl_win (t a b c d e : Nat) : (s.haltRecord t a b c d e).ctl.win = s.ctl.win := by
  obtain ⟨_, h⟩ := State.haltRecord_ctl_sub s t a b c d e; rw [h]

theorem State.halt_ctl_sub (t a b c d e : Nat) : ∃ x0, (s.halt t a b c d e).ctl = { s.ctl with msgs := x0 } := by
  rw [State.halt]
  dsimp only
  split
  · exact State.haltRecord_ctl_sub s t a b c d e
  · obtain ⟨u0, h⟩ := State.haltRecord_ctl_sub s t a b c d e
    exact ⟨u0, by rw [State.upTile_ctl, State.wr_ctl, State.dropWait_ctl, h]⟩
@[simp] theorem State.halt_ctl_reqArea (t a b c d e : Nat) : (s.halt t a b c d e).ctl.reqArea = s.ctl.reqArea := by
  obtain ⟨_, h⟩ := State.halt_ctl_sub s t a b c d e; rw [h]
@[simp] theorem State.halt_ctl_respArea (t a b c d e : Nat) : (s.halt t a b c d e).ctl.respArea = s.ctl.respArea := by
  obtain ⟨_, h⟩ := State.halt_ctl_sub s t a b c d e; rw [h]
@[simp] theorem State.halt_ctl_control (t a b c d e : Nat) : (s.halt t a b c d e).ctl.control = s.ctl.control := by
  obtain ⟨_, h⟩ := State.halt_ctl_sub s t a b c d e; rw [h]
@[simp] theorem State.halt_ctl_mgmt (t a b c d e : Nat) : (s.halt t a b c d e).ctl.mgmt = s.ctl.mgmt := by
  obtain ⟨_, h⟩ := State.halt_ctl_sub s t a b c d e; rw [h]
@[simp] theorem State.halt_ctl_mgmtOut (t a b c d e : Nat) : (s.halt t a b c d e).ctl.mgmtOut = s.ctl.mgmtOut := by
  obtain ⟨_, h⟩ := State.halt_ctl_sub s t a b c d e; rw [h]
@[simp] theorem State.halt_ctl_order (t a b c d e : Nat) : (s.halt t a b c d e).ctl.order = s.ctl.order := by
  obtain ⟨_, h⟩ := State.halt_ctl_sub s t a b c d e; rw [h]
@[simp] theorem State.halt_ctl_d3hot (t a b c d e : Nat) : (s.halt t a b c d e).ctl.d3hot = s.ctl.d3hot := by
  obtain ⟨_, h⟩ := State.halt_ctl_sub s t a b c d e; rw [h]
@[simp] theorem State.halt_ctl_bme (t a b c d e : Nat) : (s.halt t a b c d e).ctl.bme = s.ctl.bme := by
  obtain ⟨_, h⟩ := State.halt_ctl_sub s t a b c d e; rw [h]
@[simp] theorem State.halt_ctl_msixEn (t a b c d e : Nat) : (s.halt t a b c d e).ctl.msixEn = s.ctl.msixEn := by
  obtain ⟨_, h⟩ := State.halt_ctl_sub s t a b c d e; rw [h]
@[simp] theorem State.halt_ctl_base (t a b c d e : Nat) : (s.halt t a b c d e).ctl.base = s.ctl.base := by
  obtain ⟨_, h⟩ := State.halt_ctl_sub s t a b c d e; rw [h]
@[simp] theorem State.halt_ctl_updating (t a b c d e : Nat) : (s.halt t a b c d e).ctl.updating = s.ctl.updating := by
  obtain ⟨_, h⟩ := State.halt_ctl_sub s t a b c d e; rw [h]
@[simp] theorem State.halt_ctl_faulted (t a b c d e : Nat) : (s.halt t a b c d e).ctl.faulted = s.ctl.faulted := by
  obtain ⟨_, h⟩ := State.halt_ctl_sub s t a b c d e; rw [h]
@[simp] theorem State.halt_ctl_drain (t a b c d e : Nat) : (s.halt t a b c d e).ctl.drain = s.ctl.drain := by
  obtain ⟨_, h⟩ := State.halt_ctl_sub s t a b c d e; rw [h]
@[simp] theorem State.halt_ctl_boundary (t a b c d e : Nat) : (s.halt t a b c d e).ctl.boundary = s.ctl.boundary := by
  obtain ⟨_, h⟩ := State.halt_ctl_sub s t a b c d e; rw [h]
@[simp] theorem State.halt_ctl_load (t a b c d e : Nat) : (s.halt t a b c d e).ctl.load = s.ctl.load := by
  obtain ⟨_, h⟩ := State.halt_ctl_sub s t a b c d e; rw [h]
@[simp] theorem State.halt_ctl_images (t a b c d e : Nat) : (s.halt t a b c d e).ctl.images = s.ctl.images := by
  obtain ⟨_, h⟩ := State.halt_ctl_sub s t a b c d e; rw [h]
@[simp] theorem State.halt_ctl_contexts (t a b c d e : Nat) : (s.halt t a b c d e).ctl.contexts = s.ctl.contexts := by
  obtain ⟨_, h⟩ := State.halt_ctl_sub s t a b c d e; rw [h]
@[simp] theorem State.halt_ctl_switch (t a b c d e : Nat) : (s.halt t a b c d e).ctl.switch = s.ctl.switch := by
  obtain ⟨_, h⟩ := State.halt_ctl_sub s t a b c d e; rw [h]
@[simp] theorem State.halt_ctl_swWait (t a b c d e : Nat) : (s.halt t a b c d e).ctl.swWait = s.ctl.swWait := by
  obtain ⟨_, h⟩ := State.halt_ctl_sub s t a b c d e; rw [h]
@[simp] theorem State.halt_ctl_nextReq (t a b c d e : Nat) : (s.halt t a b c d e).ctl.nextReq = s.ctl.nextReq := by
  obtain ⟨_, h⟩ := State.halt_ctl_sub s t a b c d e; rw [h]
@[simp] theorem State.halt_ctl_resetReq (t a b c d e : Nat) : (s.halt t a b c d e).ctl.resetReq = s.ctl.resetReq := by
  obtain ⟨_, h⟩ := State.halt_ctl_sub s t a b c d e; rw [h]
@[simp] theorem State.halt_ctl_eid (t a b c d e : Nat) : (s.halt t a b c d e).ctl.eid = s.ctl.eid := by
  obtain ⟨_, h⟩ := State.halt_ctl_sub s t a b c d e; rw [h]
@[simp] theorem State.halt_ctl_dyn (t a b c d e : Nat) : (s.halt t a b c d e).ctl.dyn = s.ctl.dyn := by
  obtain ⟨_, h⟩ := State.halt_ctl_sub s t a b c d e; rw [h]
@[simp] theorem State.halt_ctl_mgNext (t a b c d e : Nat) : (s.halt t a b c d e).ctl.mgNext = s.ctl.mgNext := by
  obtain ⟨_, h⟩ := State.halt_ctl_sub s t a b c d e; rw [h]
@[simp] theorem State.halt_ctl_mgState (t a b c d e : Nat) : (s.halt t a b c d e).ctl.mgState = s.ctl.mgState := by
  obtain ⟨_, h⟩ := State.halt_ctl_sub s t a b c d e; rw [h]
@[simp] theorem State.halt_ctl_spdm (t a b c d e : Nat) : (s.halt t a b c d e).ctl.spdm = s.ctl.spdm := by
  obtain ⟨_, h⟩ := State.halt_ctl_sub s t a b c d e; rw [h]
@[simp] theorem State.halt_ctl_spdmOut (t a b c d e : Nat) : (s.halt t a b c d e).ctl.spdmOut = s.ctl.spdmOut := by
  obtain ⟨_, h⟩ := State.halt_ctl_sub s t a b c d e; rw [h]
@[simp] theorem State.halt_ctl_unusable (t a b c d e : Nat) : (s.halt t a b c d e).ctl.unusable = s.ctl.unusable := by
  obtain ⟨_, h⟩ := State.halt_ctl_sub s t a b c d e; rw [h]
@[simp] theorem State.halt_ctl_mctpOut (t a b c d e : Nat) : (s.halt t a b c d e).ctl.mctpOut = s.ctl.mctpOut := by
  obtain ⟨_, h⟩ := State.halt_ctl_sub s t a b c d e; rw [h]
@[simp] theorem State.halt_ctl_win (t a b c d e : Nat) : (s.halt t a b c d e).ctl.win = s.ctl.win := by
  obtain ⟨_, h⟩ := State.halt_ctl_sub s t a b c d e; rw [h]

theorem State.haltRecord_fault_sub (t a b c d e : Nat) : ∃ x0 x1 x2, (s.haltRecord t a b c d e).fault = { s.fault with events := x0, log := x1, nextSeq := x2 } := by
  rw [State.haltRecord]
  split
  · exact ⟨s.fault.events, s.fault.log, s.fault.nextSeq, by rw [State.wr_fault]; split <;> simp⟩
  · dsimp only
    generalize hx : State.markHalted _ t = y
    have hy : y.fault = s.fault := by rw [← hx]; simp
    obtain ⟨u0, u1, u2, h⟩ := State.event_fault_sub y 0 0 t (0x200 + a) (State.reg _ haltFields t) 0
    exact ⟨u0, u1, u2, by rw [h, hy]⟩
@[simp] theorem State.haltRecord_fault_reqs (t a b c d e : Nat) : (s.haltRecord t a b c d e).fault.reqs = s.fault.reqs := by
  obtain ⟨_, _, _, h⟩ := State.haltRecord_fault_sub s t a b c d e; rw [h]
@[simp] theorem State.haltRecord_fault_active (t a b c d e : Nat) : (s.haltRecord t a b c d e).fault.active = s.fault.active := by
  obtain ⟨_, _, _, h⟩ := State.haltRecord_fault_sub s t a b c d e; rw [h]
@[simp] theorem State.haltRecord_fault_fenced (t a b c d e : Nat) : (s.haltRecord t a b c d e).fault.fenced = s.fault.fenced := by
  obtain ⟨_, _, _, h⟩ := State.haltRecord_fault_sub s t a b c d e; rw [h]
@[simp] theorem State.haltRecord_fault_corr (t a b c d e : Nat) : (s.haltRecord t a b c d e).fault.corr = s.fault.corr := by
  obtain ⟨_, _, _, h⟩ := State.haltRecord_fault_sub s t a b c d e; rw [h]

theorem State.halt_fault_sub (t a b c d e : Nat) : ∃ x0 x1 x2, (s.halt t a b c d e).fault = { s.fault with events := x0, log := x1, nextSeq := x2 } := by
  rw [State.halt]
  dsimp only
  split
  · exact State.haltRecord_fault_sub s t a b c d e
  · obtain ⟨u0, u1, u2, h⟩ := State.haltRecord_fault_sub s t a b c d e
    exact ⟨u0, u1, u2, by rw [State.upTile_fault, State.wr_fault, State.dropWait_fault, h]⟩
@[simp] theorem State.halt_fault_reqs (t a b c d e : Nat) : (s.halt t a b c d e).fault.reqs = s.fault.reqs := by
  obtain ⟨_, _, _, h⟩ := State.halt_fault_sub s t a b c d e; rw [h]
@[simp] theorem State.halt_fault_active (t a b c d e : Nat) : (s.halt t a b c d e).fault.active = s.fault.active := by
  obtain ⟨_, _, _, h⟩ := State.halt_fault_sub s t a b c d e; rw [h]
@[simp] theorem State.halt_fault_fenced (t a b c d e : Nat) : (s.halt t a b c d e).fault.fenced = s.fault.fenced := by
  obtain ⟨_, _, _, h⟩ := State.halt_fault_sub s t a b c d e; rw [h]
@[simp] theorem State.halt_fault_corr (t a b c d e : Nat) : (s.halt t a b c d e).fault.corr = s.fault.corr := by
  obtain ⟨_, _, _, h⟩ := State.halt_fault_sub s t a b c d e; rw [h]

end Sys2Proof.Machine
end

