-- ==== Sys2Proof/Laws/Report.lean ====
section
/-! SUPPORT. What the report path does, said once: a logged event is the newest record of the fault log, and ALERT_N
follows the unread events. -/

namespace Sys2Proof.Machine

/-- The newest record survives the log's limit. -/
theorem mem_drop_newest (l : List FaultRec) (r : FaultRec) : r ∈ (l ++ [r]).drop (l.length + 1 - logCap) := by
  rw [List.drop_append_of_le_length (by unfold logCap; omega)]
  simp

/-- An event of a logged class leaves its record. -/
theorem State.event_logged (s : State) (cls kind unit code data actor : Nat) (h : logged cls = true) :
    logged1 s (s.event cls kind unit code data actor) cls kind code (data % 2 ^ 64) := by
  rw [State.event]
  simp only [h, if_true]
  have hs : (if s.fault.events.length < 1024 then
      s.upFault fun x => { x with events := x.events ++
        [{ cls := cls, kind := kind, unit := unit, code := code, data := data % 2 ^ 64 }] }
      else (s.inc F.FT_EVQ_LOST_COUNT 1).wr F.FT_EVQ_STATUS_OVERFLOW 1).fault.nextSeq = s.fault.nextSeq := by
    split <;> simp
  revert hs
  generalize (if s.fault.events.length < 1024 then _ else _ : State) = s1
  intro hs
  generalize data % 2 ^ 64 = dat
  refine ⟨({ seq := s1.fault.nextSeq, time := s1.tick / 600, cls := cls, kind := kind, unit := unit, code := code,
             actor := actor, data := dat } : FaultRec), ?_, hs, rfl, rfl, rfl, rfl⟩
  rw [State.logRec_fault]
  dsimp only
  apply mem_drop_newest

/-- Of the fault path, an event touches the queue and the log alone. -/
theorem State.event_nextSeq (s : State) (cls kind unit code data actor : Nat) :
    (s.event cls kind unit code data actor).fault.nextSeq = s.fault.nextSeq + (if logged cls then 1 else 0) := by
  rw [State.event]
  split <;> split <;> simp_all [State.logRec_fault]

/-- ALERT_N as the unread events have it. -/
@[simp] theorem State.alertSync_alert (s : State) : s.alertSync.pins.alert = s.unread := by
  rw [State.alertSync]; simp
@[simp] theorem State.alertSync_unread (s : State) : s.alertSync.unread = s.unread := by
  simp [State.unread]

end Sys2Proof.Machine
end

