-- ==== Sys2Proof/Laws/Issue.lean ====
section
/-! SUPPORT. What the issue of one slot comes to, once its tile is calm: no cause suppresses it, nothing waits, the
next word is the one that follows, and a slot that computes posts its results. -/

namespace Sys2Proof.Machine

variable (s : State)

theorem find?_none_of_all {α : Type} (l : List α) (p : α → Bool) (h : ∀ x ∈ l, p x = false) : l.find? p = none := by
  rw [List.find?_eq_none]
  intro x hx
  simp [h x hx]

/-- A calm tile may issue. -/
theorem State.calm_canIssue (t : Nat) (sl : Slot) (h : s.calm t sl) : s.canIssue t = true := by
  obtain ⟨h1, h2, h3, h4, -⟩ := h
  simp [State.canIssue, h1, h2, h3, h4]

/-- No breakpoint stops a calm tile's word. -/
theorem State.calm_bpCause (t : Nat) (sl : Slot) (h : s.calm t sl) : s.bpCause t (s.rd F.T_PC_ADDR t) false = none := by
  obtain ⟨-, -, -, -, h5, h6, -⟩ := h
  simp [State.bpCause, h5, h6]

/-- No register of a calm tile's slot is pending. -/
theorem State.calm_pendingCases (t : Nat) (sl : Slot) (h : s.calm t sl) : s.pendingCases t sl [] = [] := by
  have hp := h.2.2.2.2.2.2.2.2
  simp only [State.pendingCases, List.contains_nil, Bool.or_false, List.append_eq_nil_iff, List.map_eq_nil_iff,
    List.filter_eq_nil_iff]
  exact ⟨fun x hx => by simp [hp x (by simp [hx])], fun x hx => by simp [hp x (by simp [hx])]⟩

/-- Nothing suppresses a calm tile's well-formed slot that breaks no rule of its own. -/
theorem State.calm_wordCauses (t : Nat) (sl : Slot) (hw : sl.wf = true) (h : s.calm t sl)
    (hv : s.matReserved t sl = none) (hc : s.ctrlCase t (s.rd F.T_PC_ADDR t) sl = none)
    (hm : s.predOn t sl = true → s.matIssueCase t sl = none ∧ s.waitCase t sl.op = none) :
    s.wordCauses t (s.oneSlot t sl) = [] := by
  have hd := decodeSlot_enc sl hw
  unfold State.wordCauses State.oneSlot
  simp only [s.calm_bpCause t sl h, Option.map_none, Option.toList_none, List.nil_append, Bool.false_eq_true, if_false]
  unfold State.slotCauses
  simp only [hd, State.slotCauses, State.slotCause, s.calm_pendingCases t sl h, hc, hv, Option.toList_none,
    List.append_nil, List.map_eq_nil_iff]
  split
  · rename_i hp
    obtain ⟨h1, h2⟩ := hm hp
    simp [h1, h2]
  · rfl

/-- The slots of a one-slot word that execute. -/
theorem State.onSlots_one (n : State) (t : Nat) (sl : Slot) (hw : sl.wf = true) :
    n.onSlots t (s.oneSlot t sl) = if n.predOn t sl then [sl] else [] := by
  have hd := decodeSlot_enc sl hw
  unfold State.onSlots State.oneSlot
  simp only [List.filterMap_cons, List.filterMap_nil, hd]
  cases n.predOn t sl <;> simp

/-- At a word that ends no loop body, T_PC moves to the word that follows. -/
theorem State.advance_plain (t addr next : Nat) (h : s.endsBody t addr = false) :
    s.advance t addr next [1, 0] = s.wr F.T_PC_ADDR next t := by
  simp only [State.endsBody, List.any_cons, List.any_nil, Bool.or_false, Bool.or_eq_false_iff, Bool.and_eq_false_iff,
    beq_eq_false_iff_ne] at h
  simp only [State.advance]
  rw [if_neg (by intro hh; rcases h.2 with h2 | h2 <;> simp_all), if_neg (by intro hh; rcases h.1 with h2 | h2 <;> simp_all)]

/-- T_CTRL.STEP has another key than T_PC. -/
theorem key_PC_STEP (t : Nat) : F.T_CTRL_STEP.key t 0 ≠ F.T_PC_ADDR.key t 0 := by
  simp only [Fld.key, F.T_CTRL_STEP, F.T_PC_ADDR, Blk.base]; omega

/-- An instruction's command issues its slot as a word of one slot. -/
theorem State.slotIssue_eq (t : Nat) (p : Pred) (o : SlotOp) :
    s.slotIssue t p o = if s.canIssue t then s.tryWord t (s.oneSlot t (wordSlot p o)) .ok else s := rfl

/-- A word of one slot that nothing suppresses issues or waits. -/
theorem State.tryWord_calm (t : Nat) (sl : Slot) (hw : sl.wf = true) (h : s.calm t sl)
    (hv : s.matReserved t sl = none) (hc : s.ctrlCase t (s.rd F.T_PC_ADDR t) sl = none)
    (hm : s.predOn t sl = true → s.matIssueCase t sl = none ∧ s.waitCase t sl.op = none) :
    s.tryWord t (s.oneSlot t sl) .ok = s.issueOrWait t (s.oneSlot t sl) .ok := by
  unfold State.tryWord
  rw [s.calm_wordCauses t sl hw h hv hc hm]

/-- A slot whose predicate does not hold only advances T_PC (R80, R81). -/
theorem State.tryWord_off (t : Nat) (sl : Slot) (hw : sl.wf = true) (h : s.calm t sl)
    (hv : s.matReserved t sl = none) (hc : s.ctrlCase t (s.rd F.T_PC_ADDR t) sl = none) (hp : s.predOn t sl = false) :
    s.tryWord t (s.oneSlot t sl) .ok
      = (s.upTile t fun x => { x with wait := 0, skipBp := false }).wr F.T_PC_ADDR (s.rd F.T_PC_ADDR t + 6) t := by
  rw [s.tryWord_calm t sl hw h hv hc (by simp [hp])]
  have hon : s.onSlots t (s.oneSlot t sl) = [] := by rw [s.onSlots_one s t sl hw, hp]; rfl
  have hr : s.reach t (s.oneSlot t sl) = s := by unfold State.reach; rw [hon]; rfl
  have hwt : s.wordWait t (s.oneSlot t sl) = none := by unfold State.wordWait; rw [hon]; simp [State.oneSlot]
  unfold State.issueOrWait
  simp only [hr, hwt]
  unfold State.issueNow
  rw [hon]
  have he : (s.oneSlot t sl).eop = false := rfl
  have ha : (s.oneSlot t sl).addr = s.rd F.T_PC_ADDR t := rfl
  have hl : (s.oneSlot t sl).len = 6 := rfl
  simp only [he, ha, hl, List.map_nil, List.find?_nil, Bool.false_eq_true, if_false, State.runSlots, State.control,
    Bool.false_and]
  rw [State.advance_plain]
  · obtain ⟨-, -, -, -, -, -, h7, -⟩ := h
    rw [if_neg (by decide), if_neg]
    rw [State.rd_wr_ne _ _ _ _ _ _ _ _ (key_PC_STEP t)]
    simp [h7]
  · have := h.2.2.2.2.2.2.2.1
    simpa [State.endsBody] using this

/-- One slot's effect, where the code reports nothing. -/
theorem State.runSlots_one (s0 : State) (t addr : Nat) (sl : Slot) :
    s.runSlots s0 t addr [sl] .ok = s.runSlot s0 t addr sl.op := by
  unfold State.runSlots
  split
  · rfl
  · rfl

/-- A true slot that nothing suppresses or holds back does its effect, and T_PC moves to the word that follows. -/
theorem State.tryWord_on (t : Nat) (sl : Slot) (hw : sl.wf = true) (h : s.calm t sl)
    (hv : s.matReserved t sl = none) (hc : s.ctrlCase t (s.rd F.T_PC_ADDR t) sl = none) (hp : s.predOn t sl = true)
    (hm : s.matIssueCase t sl = none ∧ s.waitCase t sl.op = none)
    (hr : s.reach t (s.oneSlot t sl) = s) (hwt : s.slotWait t sl.op = none) (hctl : sl.op.isCtl = false) (s2 : State)
    (h2 : (s.upTile t fun x => { x with wait := 0, skipBp := false }).runSlot s t (s.rd F.T_PC_ADDR t) sl.op = s2)
    (h3 : s2.endsBody t (s.rd F.T_PC_ADDR t) = false) (h5 : s2.rd F.T_CTRL_STEP t = 0) :
    s.tryWord t (s.oneSlot t sl) .ok = s2.wr F.T_PC_ADDR (s.rd F.T_PC_ADDR t + 6) t := by
  rw [s.tryWord_calm t sl hw h hv hc (fun _ => hm)]
  have hon : s.onSlots t (s.oneSlot t sl) = [sl] := by rw [s.onSlots_one s t sl hw, hp]; rfl
  have he : (s.oneSlot t sl).eop = false := rfl
  have hwt2 : s.wordWait t (s.oneSlot t sl) = none := by
    unfold State.wordWait; rw [hon]; simp [hwt, he]
  unfold State.issueOrWait
  simp only [hr, hwt2]
  unfold State.issueNow
  rw [hon]
  have ha : (s.oneSlot t sl).addr = s.rd F.T_PC_ADDR t := rfl
  have hl : (s.oneSlot t sl).len = 6 := rfl
  have hf : (List.map (fun x => x.op) [sl]).find? (fun o => o.isCtl) = none := by simp [hctl]
  simp only [hf]
  simp only [he, ha, hl, Bool.false_eq_true, if_false, State.runSlots_one, h2, State.control, Bool.false_and]
  rw [State.advance_plain _ _ _ _ h3, if_neg (by decide), if_neg]
  rw [State.rd_wr_ne _ _ _ _ _ _ _ _ (key_PC_STEP t), h5]; decide

/-! ## Results -/

/-- Posting a result leaves everything but the tiles alone, and puts the result behind those that wait. -/
theorem State.post_frame (t lat : Nat) (d : Dst) (v : Nat) :
    s.post t lat d v = { s with tiles := (s.post t lat d v).tiles } := by
  unfold State.post; split <;> rfl

@[simp] theorem State.post_rf (t lat : Nat) (d : Dst) (v : Nat) : (s.post t lat d v).rf = s.rf := by
  rw [State.post_frame]
@[simp] theorem State.post_mem (t lat : Nat) (d : Dst) (v : Nat) : (s.post t lat d v).mem = s.mem := by
  rw [State.post_frame]
@[simp] theorem State.post_tc (t lat : Nat) (d : Dst) (v : Nat) : (s.post t lat d v).tc = s.tc := by
  rw [State.post_frame]
@[simp] theorem State.post_rd (t lat : Nat) (d : Dst) (v : Nat) (g : Fld) (u i : Nat) :
    (s.post t lat d v).rd g u i = s.rd g u i := by
  unfold State.rd; rw [State.post_rf]

theorem State.post_tile (t lat : Nat) (d : Dst) (v : Nat) (u : Nat) :
    (s.post t lat d v).tile u
      = if u = t then { s.tile t with results := (s.tile t).results ++ s.resultAt lat d v } else s.tile u := by
  unfold State.post State.resultAt
  split
  · split
    · next h => subst h; simp
    · rfl
  · simp

/-- Posting a list of results. -/
def State.posts (s : State) (t lat : Nat) (rs : List (Dst × Nat)) : State :=
  rs.foldl (fun s r => s.post t lat r.1 r.2) s

theorem State.posts_frame (t lat : Nat) (rs : List (Dst × Nat)) : ∃ x, s.posts t lat rs = { s with tiles := x } := by
  unfold State.posts
  refine foldl_rel (fun a b => ∃ x, b = { a with tiles := x }) (fun a => ⟨_, rfl⟩) ?_ _ ?_ rs s
  · rintro a b c ⟨x, rfl⟩ ⟨y, rfl⟩; exact ⟨y, rfl⟩
  · intro a r; exact ⟨_, State.post_frame a t lat r.1 r.2⟩

theorem State.posts_tile (t lat : Nat) (rs : List (Dst × Nat)) (u : Nat) :
    (s.posts t lat rs).tile u
      = if u = t then { s.tile t with results := (s.tile t).results ++ rs.flatMap fun r => s.resultAt lat r.1 r.2 }
        else s.tile u := by
  unfold State.posts
  induction rs generalizing s with
  | nil => simp; intro h; subst h; rfl
  | cons r rs ih =>
    rw [List.foldl_cons, ih, State.post_tile, State.post_tile]
    split
    · simp [State.resultAt]
    · rfl

/-! ## Slots that compute -/

theorem State.ctrlCase_plain (t addr : Nat) (sl : Slot) (h : sl.op.isCtl = false) : s.ctrlCase t addr sl = none := by
  obtain ⟨pr, ng, o⟩ := sl
  cases o <;> first | rfl | exact absurd h (by simp [SlotOp.isCtl])

theorem State.matIssueCase_plain (t : Nat) (sl : Slot) (h : sl.op.cls ≠ 2) : s.matIssueCase t sl = none := by
  obtain ⟨pr, ng, o⟩ := sl
  cases o <;> first | rfl | exact absurd rfl h

/-- Only a matrix slot has an encoding that a buffer's format reserves. -/
theorem State.matReserved_plain (t : Nat) (sl : Slot) (h : sl.op.cls ≠ 2) : s.matReserved t sl = none := by
  obtain ⟨pr, ng, o⟩ := sl
  cases o <;> first | rfl | exact absurd rfl h

theorem State.waitCase_plain (t : Nat) (o : SlotOp) (h : o.cls ≠ 3) : s.waitCase t o = none := by
  cases o <;> first | rfl | exact absurd rfl h

theorem State.reach_plain (t : Nat) (sl : Slot) (hw : sl.wf = true) (h : sl.op.cls ≠ 3) :
    s.reach t (s.oneSlot t sl) = s := by
  unfold State.reach
  rw [s.onSlots_one s t sl hw]
  obtain ⟨pr, ng, o⟩ := sl
  split
  · cases o <;> first | rfl | exact absurd rfl h
  · rfl

/-- What a scalar or vector slot that neither draws, stores nor queues does: it posts its results. -/
theorem State.runSlot_compute (s0 : State) (t addr : Nat) (o : SlotOp) (rs : List (Dst × Nat)) (hcls : o.cls < 2)
    (hd : s0.drawsV t o = 0) (hst : s0.storeOf t o = none) (hpk : ∀ pr d a b c, o ≠ .pack24 pr d a b c)
    (hsv : ∀ k a, o ≠ .sv k a) (he : s0.eff t ((Config.rng s0.free).toNat % 2 ^ 512) o = .ok rs) :
    s.runSlot s0 t addr o = s.posts t (o.lat s0.isB0 (s0.loadOff t o)) rs := by
  have hc : s.runCompute s0 t addr o = s.posts t (o.lat s0.isB0 (s0.loadOff t o)) rs := by
    unfold State.runCompute
    simp only [hd, he, hst, if_true]
    cases o <;> first | rfl | exact absurd rfl (hpk _ _ _ _ _)
  unfold State.runSlot
  rw [← hc]
  cases o <;> first | rfl | exact absurd rfl (hsv _ _) | exact absurd hcls (by simp [SlotOp.cls])

/-- Issuing such a slot: its results wait to retire, T_PC moves on, nothing else changes. -/
theorem State.issue_compute (t : Nat) (p : Pred) (o : SlotOp) (rs : List (Dst × Nat)) (hw : (wordSlot p o).wf = true)
    (h : s.calm t (wordSlot p o)) (hp : s.predOn t (wordSlot p o) = true) (hcls : o.cls < 2) (hctl : o.isCtl = false)
    (hd : s.drawsV t o = 0) (hst : s.storeOf t o = none) (hpk : ∀ pr d a b c, o ≠ .pack24 pr d a b c)
    (hsv : ∀ k a, o ≠ .sv k a) (hwt : s.slotWait t o = none)
    (he : s.eff t ((Config.rng s.free).toNat % 2 ^ 512) o = .ok rs) :
    afterWord s (s.slotIssue t p o) t
      (rs.flatMap fun r => s.resultAt (o.lat s.isB0 (s.loadOff t o)) r.1 r.2) := by
  have hcan := s.calm_canIssue t _ h
  rw [State.slotIssue_eq, if_pos hcan]
  obtain ⟨x, hx⟩ := State.posts_frame (s.upTile t fun x => { x with wait := 0, skipBp := false }) t
    (o.lat s.isB0 (s.loadOff t o)) rs
  have hrf : (State.posts (s.upTile t fun x => { x with wait := 0, skipBp := false }) t
    (o.lat s.isB0 (s.loadOff t o)) rs).rf = s.rf := by rw [hx]; rfl
  have hrd : ∀ g u i, (State.posts (s.upTile t fun x => { x with wait := 0, skipBp := false }) t
    (o.lat s.isB0 (s.loadOff t o)) rs).rd g u i = s.rd g u i := fun g u i => by unfold State.rd; rw [hrf]
  have hend : (State.posts (s.upTile t fun x => { x with wait := 0, skipBp := false }) t
      (o.lat s.isB0 (s.loadOff t o)) rs).endsBody t (s.rd F.T_PC_ADDR t) = false := by
    have := h.2.2.2.2.2.2.2.1
    unfold State.endsBody at *
    simpa [hrd] using this
  rw [s.tryWord_on t (wordSlot p o) hw h (s.matReserved_plain t _ (by show o.cls ≠ 2; omega)) (s.ctrlCase_plain t _ _ hctl) hp
    ⟨s.matIssueCase_plain t _ (by show o.cls ≠ 2; omega), s.waitCase_plain t o (by omega)⟩
    (s.reach_plain t _ hw (by show o.cls ≠ 3; omega)) hwt hctl _
    (State.runSlot_compute _ s t _ o rs hcls hd hst hpk hsv he) hend
    (by rw [hrd]; exact h.2.2.2.2.2.2.1)]
  refine ⟨?_, ?_, ?_, ?_, ?_⟩
  · exact State.rd_wr_self _ _ _ _ _
  · rw [State.wr_tile, State.posts_tile, if_pos rfl]
    simp [State.resultAt]
  · intro u hu
    rw [State.wr_tile, State.posts_tile, if_neg hu, State.tile_upTile, if_neg hu]
  · intro k hk
    rw [State.aget_wr, if_neg (by simpa using hk), hrf]
  · rw [hx]; rfl

end Sys2Proof.Machine
end

