-- ==== Sys2Proof/Laws/Routes.lean ====
section
/-! SUPPORT. What the shared operations on codes and layouts can answer: a SYNDROME is never 0 and fits its field (R553),
and the check of R127 passes on every timetable whose RELEASE is stamped as R261 says. -/

namespace Sys2Proof.Machine

/-- An error's SYNDROME is not 0 (R553). -/
theorem State.syndrome_ne_zero (s : State) (q : Bool) (m n : Nat) (e : Ecc) (h : e ≠ .ok) : s.syndrome q m n e ≠ 0 := by
  cases e <;> simp_all [State.syndrome]

/-- A SYNDROME fits a field of m values (R553). -/
theorem State.syndrome_lt (s : State) (q : Bool) (m n : Nat) (e : Ecc) (h : 1 < m) : s.syndrome q m n e < m := by
  have k (x : Nat) : x % (m - 1) + 1 < m := by have := Nat.mod_lt x (show 0 < m - 1 by omega); omega
  cases e with
  | ok => simp [State.syndrome]; omega
  | corrected w b => exact k _
  | uncorrectable w p => exact k _

/-- No member of a rising list lies past its last one. -/
theorem le_getLast {l : List Nat} (h : l.Pairwise (· < ·)) {i : Nat} (hi : i ∈ l) : ∃ k, l.getLast? = some k ∧ i ≤ k := by
  induction l generalizing i with
  | nil => cases hi
  | cons a l ih =>
    rw [List.pairwise_cons] at h
    cases l with
    | nil => exact ⟨a, rfl, by simp at hi; omega⟩
    | cons b l =>
      obtain ⟨k, hk, hb⟩ := ih h.2 (List.mem_cons_self ..)
      refine ⟨k, by rw [List.getLast?_cons_cons]; exact hk, ?_⟩
      rcases List.mem_cons.1 hi with rfl | hi
      · have := h.1 b (List.mem_cons_self ..); omega
      · obtain ⟨k', hk', hi'⟩ := ih h.2 hi
        rw [hk] at hk'; cases hk'; exact hi'

/-- Every landing of an XFER crossing at a tile is visible at its RELEASE (R261). -/
theorem State.landed_by_release (s : State) (x : Xing) (t i : Nat) (hx : x.man = none) (hi : i ∈ s.takesOnto t x.phys 9) :
    i + s.ejectTc ≤ s.releaseOf x t := by
  obtain ⟨k, hk, hle⟩ := le_getLast (List.Pairwise.filter _ List.pairwise_lt_range) hi
  have hk : (s.takesOnto t x.phys 9).getLast? = some k := hk
  simp only [State.releaseOf, hx, hk, Option.isSome_none, Option.map_some, Option.getD_some]
  simp only [Bool.false_eq_true, if_false]
  omega

/-- OVERLAP marks no timetable built under R261 (R127). -/
theorem State.overlaps_none (s : State) (o : Obj) (x : Site) (z : Xing) (h : z.man = none) : s.overlaps o x z = none := by
  unfold State.overlaps
  cases z.xfer with
  | none => rfl
  | some a =>
    refine List.find?_eq_none.2 fun lt _ => ?_
    simp only [List.any_eq_true, Bool.and_eq_true, decide_eq_true_eq, not_exists, not_and]
    intro i hi hlt
    have := s.landed_by_release z _ i h hi
    omega

end Sys2Proof.Machine
end

