-- ==== Sys2Proof/Tests/Slice0.lean ====
section
/-! SUPPORT. Tests: every command's check, witnesses of the hypotheses of the statements, worked examples of the spec. -/

-- One test is checked after the other, so that the memory that checking takes stays bounded.
set_option Elab.async false

namespace Sys2Proof.Machine.Test

/-! ## A running tile

Tile 5 of a module whose grid clock runs, at T_PC 0x400: RUNNING, out of every crossing, no breakpoint, no result
pending, g1 = 0x100, g2 = 7. -/

/-- The module powered and its grid clock running. -/
def on : State :=
  { State.reset with power := { State.reset.power with state := .active }, ctl := { base := 2 }, boot := { landSeed := 0xFFFF } }

/-- Tile 5 runs. -/
def live : State :=
  ((((on.wr F.T_STATUS_STATE 1 5).wr F.T_PC_ADDR 0x400 5).setReg 5 (.g 1) 0x100).setReg 5 (.g 2) 7)

/-- The always-true predicate, and one that is false on the running tile. -/
def pt : Pred := ⟨0, false⟩
def pf : Pred := ⟨1, false⟩

theorem test_on_wf : live.wf = true := by and_intros <;> decide +kernel

/-- Hypotheses of ScalarOperationsPostTheirResult, LoadsPostTheBytesTheyRead, StoresWriteTheirBytesOnly,
BranchesLoopsAndEndMoveThePc, MovesBroadcastsAndLaneTests and the other statements about a slot that issues: on the
running tile each of these slots issues, its operands at a boundary of their ranges. -/
theorem test_slots_issue : ∀ o ∈ [SlotOp.alu .add 31 0 31, .alu .mul 0 1 2, .imm .addi 31 1 2047, .shi .shl 3 1 31,
    .cmp .eq 7 1 2, .cmpi .eq 0 1 0, .plog .and 7 0 1, .mem .ld 3 1 0, .mem .ldh 3 1 2047, .mem .st 3 1 1, .mem .sth 3 1 1,
    .vld 15 1 0, .vst 15 1 8191, .br 0x1FFFFE, .brr 1, .loop 0 2 1, .loop 0 0 1, .endp, .vbcast 15 1, .vmov 0 15,
    .vred .any 7 15, .vred .all 0 0, .vbf .fma 1 2 3 4, .vf32 .add true 0 2 4 0, .vf32 .fma false 1 3 5 7, .vcvt 0 1 2,
    .vcvt 1 1 2, .vcvt 2 2 1, .vfun .exp2 1 2, .vred .sum 3 2, .vq8 false 1 2 3 1, .vdq8 2 1 3 0, .rdspec 31 3, .vrand 15,
    .pack24 true 1 2 3 15, .sv .hist0 1, .mrun 1 0 0 0, .mldw 1 1 0, .mzero 63 63 false, .xwait 1 0, .qpost 1,
    .soadd 1 8191, .sowait 1 0, .soset 1 0],
    live.issues 5 pt o := by
  unfold State.issues State.calm
  and_intros <;> decide +kernel
/-! ## Hypotheses of the statements about slots -/

theorem test_hyps_ScalarOperationsPostTheirResult :
    (wordSlot pt (.alu .min 31 1 2)).wf = true ∧ live.predOn 5 (wordSlot pt (.alu .min 31 1 2)) = true := by and_intros <;> decide +kernel

/-- A false slot on the calm tile: p1 holds 0. -/
theorem test_hyps_FalseSlotsHaveNoEffect : (wordSlot pf (.alu .add 31 0 31)).wf = true ∧
    live.calm 5 (wordSlot pf (.alu .add 31 0 31)) ∧ live.predOn 5 (wordSlot pf (.alu .add 31 0 31)) = false ∧
    live.calm 5 (wordSlot pf (.mldw 1 29 1)) ∧ live.predOn 5 (wordSlot pf (.mldw 1 29 1)) = false := by
  unfold State.calm
  and_intros <;> decide +kernel

/-- The first and the last aligned address: 0x100 − 0x100 and 0x5_FFFC. -/
theorem test_hyps_LoadsPostTheBytesTheyRead :
    (BitVec.ofNat 32 (live.g 5 1) + 4 * (0x7C0 : BitVec 11).signExtend 32).toNat = 0 ∧
    ((live.setReg 5 (.g 1) 0x5FFF8).setReg 5 (.g 1) 0x5FFFC).g 5 1 % 4 = 0 ∧ 0x5FFFC < 0x60000 ∧
    live.slotWait 5 (.mem .ld 3 1 0x7C0) = none ∧ live.slotWait 5 (.vld 15 1 0) = none := by and_intros <;> decide +kernel

theorem test_hyps_StoresWriteTheirBytesOnly : live.inExec 5 0x100 64 = false ∧ live.inExec 5 0x5FFFC 4 = false ∧
    live.slotWait 5 (.mem .st 2 1 0) = none ∧ live.slotWait 5 (.vst 15 1 0) = none := by and_intros <;> decide +kernel

/-- A tile of no partition in both loop levels, at the boundary values of a target and of a count. -/
def looping : State :=
  (((live.wr F.T_LOOP_ACTIVE 1 5 0).wr F.T_LOOP_RANGE_START 0x410 5 0).wr F.T_LOOP_RANGE_END 0x440 5 0).setReg 5 (.g 3) 0x7FFFE

theorem test_hyps_BranchesLoopsAndEndMoveThePc :
    looping.issues 5 pt (.brr 3) ∧ looping.g 5 3 % 2 = 0 ∧ looping.g 5 3 < 2 ^ 19 ∧
    (BitVec.ofNat 19 (live.rd F.T_PC_ADDR 5) + 2 * (0x1FFE00 : BitVec 21).signExtend 19).toNat = 0 ∧
    live.rd F.T_LOOP_ACTIVE 5 0 = 0 ∧ live.g 5 2 ≠ 0 ∧ live.issues 5 pt (.loop 0 0 1) ∧ live.g 5 0 = 0 ∧
    looping.issues 5 pt (.loop 1 2 0x7FFF) ∧ looping.rd F.T_LOOP_ACTIVE 5 1 = 0 ∧ looping.rd F.T_LOOP_ACTIVE 5 0 = 1 ∧
    live.issues 5 pt .endp ∧ live.tilePart 5 = none := by
  unfold State.issues State.calm
  and_intros <;> decide +kernel

/-- An answer that is one. -/
theorem ok_of {α β : Type} {x : Except α β} {y : β} (h : x.toOption = some y) : x = .ok y := by
  cases x <;> simp_all [Except.toOption]

/-- Lanes of +0: no lane meets a case, and every result is a zero. -/
theorem test_hyps_VectorArithmeticLaneByLane :
    (∀ j < 32, FOp.lane .add 8 (bf16 (lane (live.v 5 1) 16 j)) (bf16 (lane (live.v 5 2) 16 j)) (bf16 (lane (live.v 5 0) 16 j)) = .ok 0) ∧
    (∀ j < 32, FOp.lane .fma 24 (fp32 (lane (live.v 5 1) 32 (j % 16))) (fp32 0) (fp32 0) = .ok 0) ∧
    (∀ j < 32, cvtNear (lane (live.v2 5 2) 32 j) = .ok 0) ∧ (∀ j < 32, cvtUp (lane (live.v 5 1) 16 j) = .ok 0) ∧
    (∀ j < 16, vExp2 (fp32 (lane (live.v 5 1) 32 j)) = .ok 0x3F800000) ∧ vRcp (fp32 0x3F800000) = .ok 0x3F800000 ∧
    vRsqrt (fp32 0x3F800000) = .ok 0x3F800000 := by
  refine ⟨fun j h => ok_of ?_, fun j h => ok_of ?_, fun j h => ok_of ?_, fun j h => ok_of ?_, fun j h => ok_of ?_, ok_of ?_,
    ok_of ?_⟩ <;> first | (revert j; decide +kernel) | decide +kernel

theorem test_hyps_ReductionsAndBlockScaledConversions : redSum (live.v 5 1) = .ok 0 ∧ redMinMax true (live.v 5 1) = .ok 0 ∧
    redMinMax false (live.v 5 1) = .ok 0 ∧ (∀ j < 32, q8Lane (lane (live.v2 5 2) 32 j) 0 none = .ok 0) ∧
    (∀ j < 32, dq8Lane (lane (live.v 5 1) 8 (32 + j)) 0 = .ok 0) := by
  refine ⟨ok_of ?_, ok_of ?_, ok_of ?_, fun j h => ok_of ?_, fun j h => ok_of ?_⟩ <;>
    first | (revert j; decide +kernel) | decide +kernel

/-- Selector 3 issues; selector 4 is the first, 31 the last reserved one. -/
theorem test_hyps_RdspecCopiesOneSpecialValue : live.issues 5 pt (.rdspec 31 3) ∧ live.calm 5 (wordSlot pt (.rdspec 1 4)) ∧
    live.calm 5 (wordSlot pt (.rdspec 1 31)) ∧ live.rd F.T_HALT_VALID 5 = 0 ∧
    4 ≤ (4 : BitVec 5).toNat ∧ 4 ≤ (31 : BitVec 5).toNat := by
  unfold State.issues State.calm
  and_intros <;> decide +kernel

theorem test_hyps_RandomBitsAreDrawnAndCounted : (∀ j < 32, fp32 (lane (live.v2 5 2) 32 j) = .zero false) ∧
    bits (live.v 5 3) 32 8 ≠ 255 := by and_intros <;> decide +kernel

theorem test_hyps_PruneModeKeepsTheTwoGreatest : pack24Nan (live.v 5 1) 15 = none ∧
    (∀ g < 8, ((List.range 4).filter fun l => decide ((pack24Of (live.v 5 1) 15).2.2.1 (4 * g + l) ≠ 0)).length ≤ 2) := by
  and_intros <;> decide +kernel

theorem test_hyps_Pack24PostsValuesAndMetadata : pack24Nan (live.v 5 1) 3 = none ∧
    live.issues 5 pt (.pack24 false 1 2 3 3) ∧
    (let k := pack24Of (live.v 5 1) 3; (pack24 k.1 k.2.1 k.2.2.1 8).2.2.2) = none := by
  unfold State.issues State.calm
  and_intros <;> decide +kernel

theorem test_hyps_SieveAndMatrixInstructionsQueue : (live.tile 5).sq.length < 2 ∧ (live.tile 5).mq.length < 4 ∧
    (∀ o ∈ [SlotOp.mldw 1 1 0, .mldw 2 29 1, .mldw 3 1 0, .mldw 4 1 1, .mspill 1 64, .mepi 1 2 1 2, .mout 1 0 63 false false,
        .mzero 0 63 false], live.matIssueCase 5 (wordSlot pt o) = none ∧ live.issues 5 pt o) ∧
    ((live.setBufFmt 5 0 1).matIssueCase 5 (wordSlot pt (.mrun 1 0 63 0)) = none) ∧
    ((live.setBufFmt 5 0 1).matIssueCase 5 (wordSlot pt (.mblk 1 32 0 1 0)) = none) ∧
    ((live.setBufFmt 5 1 2).matIssueCase 5 (wordSlot pt (.mlook 1 0 0 1)) = none) ∧ live.tokenFree 5 = true ∧
    (live.wr F.T_MSTATUS_TOKEN 1 5).rd F.T_MSTATUS_TOKEN 5 = 1 ∧ live.issues 5 pt (.mrda 14 63) ∧
    (live.tile 5).mstream = none ∧ (live.tile 5).mq.all (fun m => m.op.isLoad) = true := by
  unfold State.issues State.calm
  and_intros <;> decide +kernel

/-- Slip 3: 256 bytes at 0x2000 of class 0, HEAD at 192 and g4 = 192 to take, all it holds; g5 = 64 to put, all that is
free. -/
def slipped : State :=
  ((((live.wr F.SLIP_SIZE_SIZE 256 5 3).wr F.SLIP_BASE_BASE 0x2000 5 3).wr F.SLIP_HEAD_COUNT 192 5 3).setReg 5 (.g 4) 192).setReg 5 (.g 5) 64

theorem test_hyps_SlipOperationsMoveTheirCounts : slipped.slipSize 5 3 ≠ 0 ∧ slipped.issues 5 pt (.xwait 4 3) ∧
    slipped.g 5 4 ≤ slipped.slipSize 5 3 ∧ slipped.g 5 4 ≤ slipped.slipHeld 5 3 ∧ slipped.issues 5 pt (.xtake 4 3) ∧
    slipped.issues 5 pt (.xput 5 3) ∧ slipped.slipClass 5 3 = 0 ∧ (slipped.g 5 5 : Int) ≤ slipped.slipFree 5 3 := by
  unfold State.issues State.calm
  and_intros <;> decide +kernel

/-- A PUSH descriptor at 0x100 of tile 5. -/
def pushing : State := live.stn (spad 5 0x100) 1 1

/-- A timed descriptor for template 0 at 0x100, partition 0 over the whole grid. -/
def timed : State := ((live.wr F.Q_TPL_VALID 1 0 0).wr F.PT_PART_A_EN 1 0 0).wr F.PT_PART_A_LAST 11 0 0

theorem test_hyps_HubQuayAndManifestSlotsReachTheirUnits :
    live.issues 5 pt (.soadd 1 8191) ∧ (live.upTile 5 fun x => { x with soWait := some (8191, 1) }).issues 5 pt (.sowait 1 8191) ∧
    live.g 5 1 % 64 = 0 ∧ (live.setReg 5 (.g 1) 0x5FFC0).g 5 1 < 0x60000 ∧ live.issues 5 pt (.mf .samp 1) ∧
    live.issues 5 pt (.mf .post 1) ∧ live.issues 5 pt (.mf .rev 1) ∧ (live.tile 5).sampQ.length < 4 ∧
    (live.tile 5).manQ.length < 4 ∧ isPush (pushing.bytes (spad 5 0x100) 64) = true ∧
    (pushing.quay (homeQuay 5)).pushQ.length + (pushing.quay (homeQuay 5)).pushes.length < 64 ∧
    isPush (timed.bytes (spad 5 0x100) 64) = false ∧ timed.tplQuay 5 (byteAt (timed.bytes (spad 5 0x100) 64) 1) = some 0 ∧
    (timed.tile 5).qpost = none ∧ (timed.tile 5).qfail = none ∧ (timed.upTile 5 fun x => { x with qpost := some true }).issues 5 pt (.qpost 1) := by
  unfold State.issues State.calm
  and_intros <;> decide +kernel

/-- Code at 0x400 of tile 5 in the execute slip 0: one word of ADD g3 := g1 + g2 at 0x400, one of that ADD and a VMOV at
0x410. -/
def coded : State :=
  let w := (wordSlot pt (.alu .add 3 1 2)).enc
  let s := ((live.wr F.SLIP_SIZE_SIZE 256 5 0).wr F.SLIP_BASE_BASE 0x400 5 0).wr F.SLIP_ATTR_EXEC 1 5 0
  ((((s.stn (spad 5 0x400) 2 1).stn (spad 5 0x402) 4 w).stn (spad 5 0x410) 2 3).stn (spad 5 0x412) 4 w).stn (spad 5 0x416) 4
    (wordSlot pt (.vmov 1 2)).enc

theorem test_hyps_WordsIssueWhole :
    let o := SlotOp.alu .add 3 1 2
    let o2 := SlotOp.vmov 1 2
    let s := coded
    let u := coded.wr F.T_PC_ADDR 0x410 5
    s.rd F.T_PC_ADDR 5 % 2 = 0 ∧ s.issues 5 pt o ∧ s.allExec 5 0x400 6 = true ∧ s.bytes (spad 5 0x400) 2 = leBytes (2 ^ o.cls) 2 ∧
    s.bytes (spad 5 0x402) 4 = leBytes (wordSlot pt o).enc 4 ∧
    u.issues 5 pt o ∧ u.issues 5 pt o2 ∧ u.rd F.T_PC_ADDR 5 = 0x410 ∧ u.allExec 5 0x410 10 = true ∧
    u.bytes (spad 5 0x410) 2 = leBytes 3 2 ∧ u.bytes (spad 5 0x412) 4 = leBytes (wordSlot pt o).enc 4 ∧
    u.bytes (spad 5 0x416) 4 = leBytes (wordSlot pt o2).enc 4 ∧ o.cls = 0 ∧ o2.cls = 1 ∧ o.isCtl = false ∧
    (∀ d ∈ (wordSlot pt o).writes, d ∉ (wordSlot pt o2).writes) ∧ u.slotWait 5 o = none ∧ u.slotWait 5 o2 = none ∧
    u.storeOf 5 o = none ∧ u.storeOf 5 o2 = none ∧ u.drawsV 5 o2 = 0 ∧
    u.eff 5 0 o = .ok [(.g 3, 0x107)] ∧ u.eff 5 0 o2 = .ok [(.v 1, 0)] := by
  unfold State.issues State.calm
  and_intros <;> first | decide +kernel | (apply ok_of; decide +kernel)

theorem test_hyps_TheEarliestResultRetires : (live.tile 5).results = [] ∧
    ((live.upTile 5 fun x => { x with results := [⟨3, .g 31, 1⟩, ⟨2, .p 7, 1⟩] }).tile 5).results ≠ [] := by and_intros <;> decide +kernel

/-- The watchdog at its limit, the least there is, and one below it. -/
theorem test_hyps_WatchdogAndStopHaltTheTile :
    let s := (live.wr F.T_WDOG_LIMIT_LIMIT 1 5).wr F.T_WDOG_COUNT_TC 1 5
    s.tstate 5 = 1 ∧ s.rd F.T_HALT_VALID 5 = 0 ∧ s.inCrossing 5 = false ∧ s.rd F.T_WDOG_LIMIT_LIMIT 5 ≠ 0 ∧
    s.rd F.T_WDOG_LIMIT_LIMIT 5 ≤ s.rd F.T_WDOG_COUNT_TC 5 ∧ on.tstate 5 ≠ 1 ∧ live.rd F.T_WDOG_LIMIT_LIMIT 5 = 0 ∧
    ((live.wr F.T_WDOG_LIMIT_LIMIT 1 5).rd F.T_WDOG_COUNT_TC 5 < 1) := by and_intros <;> decide +kernel
/-! ## Hypotheses of the statements about tiles, crossings and slacks -/

theorem test_hyps_GoAndResumeStartTheTile :
    let s := on.wr F.T_CODE_STAMP_STAMP 0xB0 5
    let u := (live.wr F.T_STATUS_STATE 2 5).wr F.T_HALT_REASON 0x10 5
    (s.tstate 5 = 0 ∧ (s.wr F.T_STATUS_STATE 2 5).tstate 5 = 2 ∧ (s.wr F.T_STATUS_STATE 3 5).tstate 5 = 3) ∧
    s.power.state = .active ∧ s.inCrossing 5 = false ∧ s.rd F.T_CODE_STAMP_STAMP 5 = s.stepping.id ∧
    (s.wr F.T_STATUS_CROSSING 1 5).inCrossing 5 = true ∧
    (State.reset.upPower fun p => { p with state := .idle }).power.state = .idle ∧ State.reset.inCrossing 5 = false ∧
    live.tstate 5 = 1 ∧ (s.wr F.T_STATUS_STATE 4 5).tstate 5 = 4 ∧ u.tstate 5 = 2 ∧ u.rd F.T_HALT_REASON 5 = 0x10 ∧
    u.power.state = .active ∧ u.inCrossing 5 = false ∧ live.tstate 5 ≠ 2 := by and_intros <;> decide +kernel

/-- v3 holds a NaN in lane 31 alone; g6 to g8 hold the first address past scratchpad, a misaligned one and one of the
execute slip of the coded tile. -/
def cased : State :=
  ((((coded.setReg 5 (.v 3) (0x7FC0 * 2 ^ 496)).setReg 5 (.g 6) 0x60000).setReg 5 (.g 7) 0x101).setReg 5 (.g 8) 0x4FC)

theorem test_hyps_CasesHaltTheTile :
    let sum := fun j => FOp.lane .add 8 (bf16 (lane (cased.v 5 3) 16 j)) (bf16 (lane (cased.v 5 2) 16 j)) (.zero false)
    cased.rd F.T_HALT_VALID 5 = 0 ∧ cased.issues 5 pt (.vbf .add 1 3 2 0) ∧ (∀ j < 31, ∃ x, sum j = .ok x) ∧
    (sum 31).toOption = none ∧ cased.issues 5 pt (.mem .ld 3 6 0) ∧ 0x60000 ≤ cased.g 5 6 ∧
    cased.issues 5 pt (.mem .ld 3 7 0) ∧ cased.g 5 7 % 4 ≠ 0 ∧ cased.issues 5 pt (.mem .st 2 8 0) ∧ cased.g 5 8 < 0x60000 ∧
    cased.g 5 8 % 4 = 0 ∧ cased.inExec 5 0x4FC 4 = true ∧ cased.slotWait 5 (.mem .st 2 8 0) = none ∧
    slipped.issues 5 pt (.xtake 1 3) ∧ slipped.slipSize 5 3 ≠ 0 ∧ slipped.slipAvail 5 3 < slipped.g 5 1 := by
  unfold State.issues State.calm
  and_intros <;> first | decide +kernel | exact fun j h => ⟨0, ok_of (by revert j; decide +kernel)⟩

theorem test_hyps_GoChecksTheCodeStamp : on.tstate 5 = 0 ∧ on.power.state = .active ∧ on.inCrossing 5 = false ∧
    on.rd F.T_CODE_STAMP_STAMP 5 ≠ 0xB0 ∧ (on.wr F.T_CODE_STAMP_STAMP 0xB0 5).rd F.T_CODE_STAMP_STAMP 5 = 0xB0 := by
  and_intros <;> decide +kernel

/-- Barrier 255 of partition 0, crossing 7, EXPECT 2, with one arrival. -/
def barred : State :=
  (((on.wr F.XT_BAR_ALLOC 1 0 255).wr F.XT_BAR_CROSSING 7 0 255).wr F.XT_BAR_EXPECT 2 0 255).wr F.XT_BAR_ARRIVED 1 0 255

/-- The same with an image whose crossing 7 uses template 9 of quay 23 and takes 64 bytes from channel 15 of engine 11,
which holds them; the use is fetched. -/
def planned : State :=
  let plan : Plan := ⟨[], [(23, 9, 7)], [(11, 15, 7, 2 ^ 20, 64)], [], [(7, 2 ^ 23, 2 ^ 11)]⟩
  let s := barred.upCtl fun c => { c with images := [⟨0, 0, 1, 0, 0xB0, 0, 0, 0, 1, [], [], [], [], [], [], plan⟩] }
  (s.upQuay 23 fun x => { x with uses := [⟨9, 0, 0, false, false, true, 0, [], 0⟩] }).upEng 11 fun x =>
    { x with deliver := [(15, List.replicate 64 1)] }

/-- The last arrival and one before it; a core in supervisor mode; a quay whose template is fetched. -/
theorem test_hyps_ArrivalsCountAtTheirBarrier : barred.power.state = .active ∧ barred.rd F.XT_BAR_ALLOC 0 0 = 0 ∧
    barred.rd F.XT_BAR_ALLOC 0 255 = 1 ∧ barred.rd F.XT_BAR_ARRIVED 0 255 + 1 = barred.barExpect 255 ∧
    (barred.wr F.XT_BAR_ARRIVED 0 0 255).rd F.XT_BAR_ARRIVED 0 255 + 1 ≠ (barred.wr F.XT_BAR_ARRIVED 0 0 255).barExpect 255 ∧
    barred.coreReady 15 = true ∧ barred.corePart 15 = 4 ∧ barred.barOf 0 7 = some 255 ∧
    planned.barOf 0 7 = some 255 ∧ (planned.crossMasks 0 7).1.testBit 23 = true ∧
    (∀ e ∈ planned.crossTpls 0 7, e.1 = 23 → planned.tplStatic 23 e.2 = false →
      ∃ u ∈ (planned.quay 23).uses, u.tpl = e.2 ∧ u.run = false) ∧ planned.crossTpls 0 7 = [(23, 9)] ∧
    planned.mfTiles 0 7 = [] ∧ 7 ∉ (planned.quay 23).arrived ∧ planned.quayFenced 23 = false := by
  and_intros <;> decide +kernel

/-- An engine whose grid-in space the crossing fills to the last byte and whose channel holds just what it takes. -/
theorem test_hyps_ArrivalsCountAtTheirBarrier_engine :
    let need := ((List.range 16).map fun i => (planned.chanUse 11 i 0 7).1).sum
    need = 2 ^ 20 ∧ ((planned.eng 11).gridIn.map fun x => x.2.length).sum + ((planned.eng 11).resv.map fun x => x.2).sum + need ≤ 2 ^ 20 ∧
    (∀ i < 16, (((planned.eng 11).owed.filter fun x => x.1 % 16 == i).map fun x => x.2).sum + (planned.chanUse 11 i 0 7).2
      ≤ (chanBytes (planned.eng 11).deliver i).length) ∧ (planned.chanUse 11 15 0 7).2 = 64 ∧ 7 ∉ (planned.eng 11).arrived := by
  and_intros <;> decide +kernel

/-- Crossing 7 of partition 0 awaits its start; tile 5's router holds it, LOCAL with RELEASE 9. -/
def ready7 : State :=
  let s := { live with hub := { live.hub with starting := [⟨0, 7, 1, 0⟩] } }
  ((((s.wr F.DIR_VALID 1 5 7).wr F.XT_RCFG_EN 1 5).wr F.DIR_LOCAL 1 5 7).wr F.DIR_RELEASE 9 5 7).wr F.T_BAR_PENDING_TC 48 5

theorem test_hyps_CrossingsStartAndTilesLeaveThem :
    live.hub.starting.find? (fun x => x.part == 0 && x.num == 255) = none ∧
    ready7.hub.starting.find? (fun x => x.part == 0 && x.num == 7) = some ⟨0, 7, 1, 0⟩ ∧
    ready7.power.state = .active ∧ ready7.checkpoint = true ∧ ready7.frozen = false ∧ ready7.crossRouters 0 7 = [5] ∧ ready7.rd F.XT_RSTATUS_RUN 5 = 0 ∧
    ready7.useBlocks 0 7 = false ∧ ready7.rd F.DIR_LOCAL 5 7 = 1 ∧ ready7.rd F.DIR_RELEASE 5 7 ≠ 0 ∧
    (∀ v ∈ ready7.hub.uses, ¬ (v.part = 0 ∧ v.num = 7)) ∧
    (let s := ((ready7.wr F.T_STATUS_CROSSING 1 5).wr F.XT_RSTATUS_CROSSING 7 5).wr F.XT_SPINE_CYCLE_COUNT 9
     s.inCrossing 5 = true ∧ s.frozen = false ∧ s.releaseDue 5 = true ∧ (s.tile 5).held = 0 ∧
     (s.wr F.XT_SPINE_CYCLE_COUNT 8).releaseDue 5 = false ∧ s.checkpoint = false) ∧ live.inCrossing 5 = false ∧
    (live.wr F.XT_HOLD_STATUS_HOLDING 1).frozen = true := by and_intros <;> decide +kernel

/-- Tile 65's router, at spine cycle 40, runs crossing 7 from entry 0, which lasts 16 cycles: output N takes from L, output S
from S, where a good flit is present now; the oldest flit on its way to L is due. -/
def routing : State :=
  let s := ((on.wr F.XT_RSTATUS_RUN 1 65).wr F.XT_RSTATUS_CROSSING 7 65).wr F.XT_RCFG_EN 1 65
  let s := ((s.wr F.TT_DUR 15 65 0).wr F.TT_OUT (9 + 2 * 2 ^ 4) 65 0).wr F.TT_ISLIP 3 65 0
  let s := ((s.wr F.SLIP_SIZE_SIZE 256 65 3).wr F.SLIP_HEAD_COUNT 64 65 3).wr F.TT_ESLIP 4 65 0
  let s := ((s.wr F.SLIP_SIZE_SIZE 256 65 4).wr F.SLIP_ATTR_CLASS 1 65 4).wr F.SLIP_BASE_BASE 0x1000 65 4
  (s.wr F.XT_SPINE_CYCLE_COUNT 40).upTile 65 fun x =>
    { x with inputs := [⟨2, 40, false, ⟨0, 7, false, false, 5, none⟩⟩],
             ejects := [⟨⟨0, 7, false, false, 5, none⟩, 4, none, none, 7, 0, 40⟩] }

/-- The cycles 2, the first for a sending read on B0, and 15, the entry's last. -/
theorem test_hyps_FlitsMoveThroughTheFabric :
    let f : Flit := ⟨0, 7, false, false, 5, none⟩
    routing.frozen = false ∧ routing.rd F.XT_RSTATUS_RUN 65 = 1 ∧ routing.tstate 65 ≠ 4 ∧ routing.mfEntry 65 7 = none ∧
    routing.entryAt 65 2 4096 (routing.rd F.DIR_FIRST 65 7) 0 = some (0, 0) ∧ routing.entryAt 65 15 4096 0 0 = some (0, 0) ∧
    routing.sel 65 0 1 = 9 ∧ routing.paceOn 65 0 0 2 = true ∧ (routing.tile 65).lastRead = none ∧
    2 = routing.rd F.XT_RSTATUS_CYCLE 65 + routing.latency 3 2 ∧ routing.rd F.TT_RAW 65 0 = 0 ∧ routing.slipSize 65 3 ≠ 0 ∧
    routing.slipHeld 65 3 ≤ routing.slipSize 65 3 ∧
    0 + 64 ≤ (routing.slipHead 65 3 + 2 ^ 32 - aget 0 (routing.tile 65).tails 3) % 2 ^ 32 ∧
    routing.paceOn 65 0 0 0 = true ∧ routing.entryOver 65 = false ∧ hop 65 2 = some (1, 1) ∧
    aget 0 (routing.tile 65).took 2 ≠ 41 ∧ routing.present 65 2 2 = some f ∧
    (∀ r < 10, 1 ≤ r → (routing.sel 65 0 r = 2 ↔ r = 2)) ∧
    (let s := routing.wr F.TT_OUT (2 * 2 ^ 32) 65 0
     (∀ r < 10, 1 ≤ r → (s.sel 65 0 r = 2 ↔ r = 9)) ∧ s.present 65 2 9 = some f ∧ s.slipClass 65 (s.rd F.TT_ESLIP 65 0) = 1 ∧
     s.rd F.XT_RCFG_PART 65 = 0) ∧
    (routing.tile 65).ejects = [⟨f, 4, none, none, 7, 0, 40⟩] ∧ routing.spine = 40 ∧
    64 ≤ routing.slipFree 65 4 ∧ routing.slipSize 65 4 % 64 = 0 ∧ routing.slipHead 65 4 % 64 = 0 ∧ routing.tstate 65 ≠ 1 ∧
    (let s := routing.wr F.XT_RSTATUS_CYCLE 16 65
     s.entryOver 65 = true ∧ s.rd F.TT_LAST 65 0 = 0 ∧ (s.wr F.TT_LAST 1 65 0).rd F.TT_LAST 65 0 = 1) := by
  and_intros <;> decide +kernel

/-- A sample 16 tc before a checkpoint with THERMAL asserted, and one that counts 15; a slack after 0, 15 and 16 tc of
release; a slack one tc over its limit. -/
theorem test_hyps_HoldsAreSampledPolledAndReleased :
    let h := fun (r p : Nat) => { on.wr F.XT_HOLD_STATUS_HOLDING 1 with hub := { on.hub with relTc := r, lastPoll := p, slackTc := 600001 } }
    let hot := (on.upPower fun p => { p with clamp := true }).wr F.XT_SPINE_CYCLE_COUNT 48
    let due := { on.wr F.XT_SPINE_CYCLE_COUNT 64 with hub := { on.hub with sampled := 15, sampleAt := some 48 } }
    on.power.state = .active ∧ on.rd F.XT_HOLD_STATUS_HOLDING = 0 ∧ hot.spine % 64 = 48 ∧ hot.hub.sampleAt ≠ some hot.spine ∧
    hot.causes = 8 ∧ on.spine % 64 ≠ 48 ∧ on.holdDue = false ∧ due.holdDue = true ∧ due.hub.sampled < 16 ∧
    (h 0 1).rd F.XT_HOLD_STATUS_HOLDING = 1 ∧ on.hub.running = [] ∧
    (h 15 15).hub.relTc < 16 ∧ 1 ≤ (h 15 15).hub.lastPoll ∧ (h 15 15).hub.lastPoll < 16 ∧ (h 16 1).hub.relTc = 16 ∧
    (h 0 1).rd F.XT_SLACK_LIMIT_LIMIT ≠ 0 ∧ (h 0 1).rd F.XT_SLACK_LIMIT_LIMIT < (h 0 1).hub.slackTc ∧
    (h 0 1).hub.overlong = false := by and_intros <;> decide +kernel
/-! ## Hypotheses of the statements about units, the hub, credits and accesses -/

/-- A running tile with an MZERO of the rows 0 to 63 queued, and one with an MSPILL. -/
def zeroing : State := live.upTile 5 fun x => { x with mq := [⟨.zero 0 64 false, 0x400, 0, 0, 0, 0⟩] }
def spilling : State := live.upTile 5 fun x => { x with mq := [⟨.spill 127, 0x400, 0x100, 0, 0, 0⟩] }

/-- An SVHIST over no entries, scaled by 1, its record at 0x1000; a tile that waits for a token. -/
def hist : SvInstr := ⟨0, 0x400, 0x3F800000 * 2 ^ 96 + 0x1000 * 2 ^ 224, 0, 0⟩

theorem test_hyps_MatrixAndSieveUnitsRunTheirQueues :
    (zeroing.tile 5).laneBusy false = false ∧
    nextMat false (zeroing.tile 5) (zeroing.tile 5).mq [] = some ⟨.zero 0 64 false, 0x400, 0, 0, 0, 0⟩ ∧ 0 + 64 ≤ 64 ∧
    nextMat false (spilling.tile 5) (spilling.tile 5).mq [] = some ⟨.spill 127, 0x400, 0x100, 0, 0, 0⟩ ∧
    bits 0x100 0 19 % 256 = 0 ∧
    ((live.upTile 5 fun x => { x with mstream := some ⟨.zero 0 64 false, 0x400, 0, 0, 0, 0⟩ }).tile 5).laneBusy false = true ∧
    (live.tile 5).srun = none ∧ live.svBlocked 5 hist = false ∧ (∃ o, live.svRun 5 hist = .ok o) ∧
    awf {} live.tiles = true ∧ domainOf 5 = 0 ∧ ((live.upTile 5 fun x => { x with wait := 6 }).tile 5).wait = 6 ∧
    (live.tile 5).granted = false ∧
    (∀ u < 5, domainOf u = 0 → (live.tile u).wait = 6 → (live.tile u).granted = true) ∧ live.poolOver 0 0 = true ∧
    (live.wr F.PW_TOKEN_CAP_CAP 0 0 0).poolOver 0 0 = false ∧ live.tokenFree 5 = true ∧
    (live.wr F.PW_TOKEN_CAP_CAP 0 0 0).tokenFree 5 = false ∧ live.rd F.T_MSTATUS_TOKEN 5 = 0 ∧
    ({ live with roster := { live.roster with refused := [(5, 0x400, 2)] } } : State).roster.refused.find? (fun e => e.1 == 5) =
      some (5, 0x400, 2) ∧ live.tstate 5 ≠ 4 ∧ live.rd F.T_HALT_VALID 5 = 0 := by
  have h : (live.svRun 5 hist).toOption.isSome = true := by decide +kernel
  and_intros <;> first | decide +kernel | exact ⟨_, ok_of (Option.some_get h).symm⟩

/-- The MZERO at the front of the queue begins; an MRUN of one row whose places are done ends; a lane holds a load. -/
theorem test_hyps_MatrixAndSieveUnitsRunTheirQueues_exec :
    (match (live.mBegin 5 ⟨.zero 0 64 false, 0x400, 0, 0, 0, 0⟩) with | .ok _ => true | .error _ => false) = true ∧
    live.stands 5 = false ∧ ((live.wr F.T_STATUS_CROSSING 1 5).wr F.XT_HOLD_STATUS_HOLDING 1).stands 5 = true ∧
    (MOp.run 0 1 0).places [] ≤ 1 ∧ (MOp.ldw 0 0).places [] = 0 := by
  and_intros <;> decide +kernel

/-- Object 8191, owned by tile 5 of partition 0, with COUNT one below the greatest. -/
def object : State :=
  (((on.wr F.SO_CTL_ALLOC 1 0 8191).wr F.SO_CTL_OWNER 5 0 8191).wr F.SO_STATE_COUNT 0xFFFFFFFE 0 8191)

theorem test_hyps_HubOperationsReachAndChangeObjects :
    let add : HubOp := ⟨0, 9, 1, 8191, 1, 0, false, 0x400, false⟩
    let set : HubOp := ⟨0, 5, 2, 8191, 0xFFFFFFFF, 0, false, 0x400, false⟩
    let ans : State := { on with hub := { on.hub with answers := [⟨1, 15, 1, 8191, 0⟩] } }
    on.power.state = .active ∧ on.coreReady 15 = true ∧
    ans.hub.answers.find? (fun a => a.cls == 1 && a.unit == 15 && a.op != 3) = some ⟨1, 15, 1, 8191, 0⟩ ∧
    ans.isFenced 1 15 = false ∧ object.hub.waits = [] ∧ object.hub.marks = [] ∧ object.rd F.SO_CTL_ALLOC 0 8191 = 1 ∧
    object.rd F.SO_CTL_PART 0 8191 = 0 ∧ object.rd F.SO_CTL_BROKEN 0 8191 = 0 ∧
    ({ object with hub := { object.hub with inbox := [add] } } : State).hub.inbox = [add] ∧
    object.rd F.SO_STATE_COUNT 0 8191 + 1 < 2 ^ 32 ∧ object.rd F.SO_CTL_OWNER 0 8191 = set.unit ∧ set.val < 2 ^ 32 ∧
    add.unit ≠ set.unit ∧ object.rd F.SO_STATE_TARGET 0 8191 ≤ object.rd F.SO_STATE_COUNT 0 8191 ∧
    ((object.upTile 9 fun x => { x with soWait := some (8191, 0) }).tile 9).soWait = some (8191, 0) := by
  and_intros <;> decide +kernel

/-- A STOPPED tile's slip 31 of class 2 and 4,096 bytes; credit 15 of it, of quay 23, open for 128 bytes; the credit
closed. -/
def credited : State :=
  let s := ((on.wr F.SLIP_SIZE_SIZE 4096 5 31).wr F.SLIP_BASE_BASE 0x1000 5 31).wr F.SLIP_ATTR_CLASS 2 5 31
  let s := (((s.wr F.T_CRED_A_STATE 1 5 15).wr F.T_CRED_A_SLIP 31 5 15).wr F.T_CRED_A_CLASS 2 5 15).wr F.T_CRED_A_UNIT 23 5 15
  ((s.wr F.T_CRED_B_BYTES 128 5 15).wr F.SLIP_RSV_BYTES 128 5 31).wr F.SLIP_RSV_CREDITS 1 5 31

def closed : State := (credited.wr F.T_CRED_A_STATE 2 5 15).upTile 5 fun x => { x with credOrd := [15] }

theorem test_hyps_CreditsAreAskedGrantedWrittenAndAppended :
    let w : State := credited.upTile 5 fun x => { x with creds := [⟨31, 3968, 2, 23⟩] }
    credited.tstate 5 ≠ 4 ∧ credited.slipSize 5 31 = 4096 ∧ credited.rd F.SLIP_ATTR_EXEC 5 31 = 0 ∧
    credited.slipClass 5 31 = 2 ∧ (4096 : BitVec 20).toNat % 64 = 0 ∧ credited.slipSize 5 30 = 0 ∧
    (w.tile 5).creds = [⟨31, 3968, 2, 23⟩] ∧ ((3968 : Nat) : Int) ≤ w.slipFree 5 31 ∧ w.freeRec 5 = some 0 ∧
    credited.tstate 5 ≠ 1 ∧ credited.credState 5 15 = 1 ∧ (List.replicate 64 (0 : Byte)).length = 64 ∧
    64 + 64 ≤ credited.rd F.T_CRED_B_BYTES 5 15 ∧ credited.rd F.T_CRED_A_SLIP 5 15 = 31 ∧
    credited.rd F.T_CRED_A_START 5 15 + 64 < 2 ^ 32 ∧ credited.slipSize 5 31 % 64 = 0 ∧
    credited.rd F.T_CRED_A_START 5 15 % 64 = 0 ∧ credited.rd F.T_CRED_A_CLASS 5 15 = 2 ∧
    credited.rd F.T_CRED_A_UNIT 5 15 = 23 ∧ closed.firstCred 5 31 = some 15 ∧ closed.credState 5 15 = 2 ∧
    closed.firstCred 5 30 = none := by and_intros <;> decide +kernel

/-- Window 7 of a STOPPED tile lets task 63 and the debug path's task 127 (window 0) reach the last 64 bytes. -/
def windowed : State :=
  let s := ((on.wr F.T_WIN_BASE_EN 1 5 7).wr F.T_WIN_BASE_TASK 63 5 7).wr F.T_WIN_BASE_BASE 0x5FFC0 5 7
  let s := ((s.wr F.T_WIN_BOUND_BOUND 0x60000 5 7).wr F.T_WIN_BASE_READ 1 5 7).wr F.T_WIN_BASE_WRITE 1 5 7
  let s := ((s.wr F.T_WIN_BASE_EN 1 5 0).wr F.T_WIN_BASE_TASK 127 5 0).wr F.T_WIN_BASE_BASE 0x5FFC0 5 0
  ((s.wr F.T_WIN_BOUND_BOUND 0x60000 5 0).wr F.T_WIN_BASE_READ 1 5 0).wr F.T_WIN_BASE_WRITE 1 5 0

/-- The debug path has begun an access to the last 8 bytes of tile 5's scratchpad. -/
def debugging : State :=
  ((windowed.wr F.DBG_CTL_DONE 0).wr F.DBG_ADDR_ADDR (spad 5 0x5FFF8)).upBoot fun b => { b with debug := true }

theorem test_hyps_WindowAndDebugAccessesReachTheTile :
    windowed.coreReady 0 = true ∧ windowed.tstate 5 ≠ 4 ∧ 0x5FFC0 % 64 = 0 ∧ 0x5FFF8 % 8 = 0 ∧ 0x5FFF8 < 0x60000 ∧
    windowed.winOk 5 63 0x5FFC0 64 false = true ∧ windowed.winOk 5 63 0x5FFC0 64 true = true ∧ windowed.tstate 5 ≠ 1 ∧
    windowed.winOk 5 63 0x5FFB8 8 false = false ∧ windowed.winOk 5 0 0x5FFC0 64 true = false ∧
    windowed.rd F.L_FAULT_VALID 0 = 0 ∧ windowed.rd F.DBG_CTL_DONE = 1 ∧ debugging.rd F.DBG_CTL_DONE = 0 ∧
    debugging.rd F.DBG_ADDR_ADDR = spad 5 0x5FFF8 ∧ debugging.rd F.DBG_CTL_WRITE = 0 ∧
    debugging.winOk 5 127 0x5FFF8 8 false = true ∧ (debugging.wr F.DBG_CTL_WRITE 1).rd F.DBG_CTL_WRITE = 1 ∧
    debugging.winOk 5 127 0x5FFF8 8 true = true ∧ debugging.tstate 5 ≠ 1 ∧ windowed.tstate 5 = 0 ∧
    windowed.rd F.SLIP_RSV_CREDITS 5 31 = 0 ∧ (windowed.tile 5).creds = [] ∧
    windowed.slipSize 5 31 ≠ (0x5FFFF : BitVec 64).toNat % 2 ^ 19 / 64 * 64 ∧ live.tstate 5 = 1 ∧
    (live.wr F.T_STATUS_STATE 2 5).tstate 5 = 2 ∧ (live.wr F.T_STATUS_STATE 3 5).tstate 5 = 3 := by
  and_intros <;> decide +kernel

/-- The first and the last word of a bank. -/
theorem test_hyps_EccReportsAreRecordedAndScrubsAdvance : live.power.state = .active ∧ live.tstate 5 ≠ 4 ∧
    aget 0 (live.tile 5).scrub 15 < 768 ∧
    aget 0 ((live.upTile 5 fun x => { x with scrub := [(15, 767)] }).tile 5).scrub 15 = 767 ∧
    State.reset.power.state ≠ .active := by and_intros <;> decide +kernel

theorem test_hyps_ReadsClearAndWritesStore : live.tstate 5 ≠ 4 ∧ live.isFenced 1 15 = false ∧ live.coreReady 15 = true ∧
    (on.upPins fun p => { p with rails := 5, pwrGood := true }).barUp = true ∧ on.rd F.MSIX_PEND = 0 := by
  and_intros <;> decide +kernel

/-! ## Hypotheses of the statements about steps and power -/

theorem test_hyps_StepRunsTheFrontCommand :
    ({ State.reset with pending := [.pinEnBreak, .cfAbort 11] } : State).pending = .pinEnBreak :: [.cfAbort 11] := by
  decide +kernel

theorem test_hyps_PowerLossAndTheResetPinClearTheModule :
    let f := State.reset.upPins fun p => { p with filtering := true, resetN := false }
    State.reset.pins.resetN = true ∧ f.pins.filtering = true ∧ f.pins.resetN = false ∧ f.pins.swClosed = true ∧
    State.reset.pins.filtering = false ∧ State.reset.pins.swClosed = true ∧ State.reset.ctl.base = 1 ∧
    State.reset.pins.rails = 0 ∧ State.reset.pins.ramping = false ∧ State.reset.pins.thermTrip = false ∧
    (State.reset.upPins fun p => { p with thermTrip := true }).pins.thermTrip = true := by and_intros <;> decide +kernel

theorem test_hyps_TheModulePowersUp :
    let o := State.reset.upPins fun p => { p with swClosed := false, pinEn := true }
    let r := State.reset.upPins fun p => { p with ramping := true, rails := 3 }
    let l := State.reset.upPins fun p => { p with ramping := true, rails := 4 }
    o.pins.swClosed = false ∧ o.pins.pinEn = true ∧ o.pins.underV = false ∧ o.pins.overV = false ∧
    State.reset.pins.swClosed = true ∧ r.pins.ramping = true ∧ r.pins.rails < 4 ∧ l.pins.ramping = true ∧
    4 ≤ l.pins.rails := by and_intros <;> decide +kernel

theorem test_hyps_RailAndThermalFailuresPowerTheDieDown :
    let r := State.reset.upPins fun p => { p with ramping := true, rails := 4, inReset := false }
    r.pins.ramping = true ∧ r.pins.rails < 5 ∧ r.pins.stby = true ∧ r.pins.inReset = false ∧ (4 : Fin 6).val ≤ r.pins.rails ∧
    (0 : Fin 6).val ≤ r.pins.rails ∧ (r.upPins fun p => { p with inReset := true }).pins.inReset = true := by and_intros <;> decide +kernel

/-- ADD g31 := g0 + g31 under p7, negated, in the word of its class, and the word 0 in the class of X slots. -/
theorem test_hyps_SlotEncodingRoundTrip : 3 < 4 ∧ (⟨7, true, .alu .add 31 0 31⟩ : Slot).enc < 2 ^ 32 ∧
    decodeSlot 0 (⟨7, true, .alu .add 31 0 31⟩ : Slot).enc = .ok ⟨7, true, .alu .add 31 0 31⟩ := by
  and_intros <;> first | decide +kernel | (apply ok_of; decide +kernel)

/-! ## Hypotheses of the statements about the manifest engine -/

/-- A sampling descriptor of 10 edges, its fan-out 2, in the scratchpad of tile 65, its slips 4 (seeds) and 5 (records)
and its row pointers and columns. -/
def sampleBody : List Byte :=
  leBytes 10 4 ++ [0x26, 3] ++ leBytes 77 2 ++ leBytes 0x1000 6 ++ leBytes 0 2 ++ leBytes 0x2000 6 ++ leBytes 0 2 ++
    leBytes 5 5 ++ leBytes 0 3 ++ leBytes 2 4 ++ [4, 5] ++ leBytes 0 18 ++ leBytes 0 8

def sampling : State :=
  let s := (on.wr F.T_STATUS_STATE 1 65).setBytes (spad 65 0x100) sampleBody
  let s := ((s.stn (spad 65 0x1008) 8 2).stn (spad 65 0x1010) 8 2).stn (spad 65 0x1018) 8 5
  let s := (((s.stn (spad 65 0x2000) 4 7).stn (spad 65 0x2004) 4 8).stn (spad 65 0x2008) 4 9).stn (spad 65 0x200c) 4 1
  let s := (s.wr F.SLIP_BASE_BASE 0x4000 65 4).wr F.SLIP_SIZE_SIZE 0x400 65 4
  let s := ((s.wr F.SLIP_BASE_BASE 0x5000 65 5).wr F.SLIP_SIZE_SIZE 0x400 65 5).wr F.SLIP_ATTR_CLASS 3 65 5
  let s := ((s.wr F.SLIP_HEAD_COUNT 8 65 4).stn (spad 65 0x4000) 4 0).stn (spad 65 0x4004) 4 1
  s.upTile 65 fun x => { x with sampQ := [{ kind := 0, addr := 0x600, off := 0x100 }] }

def sampled0 : MfDesc := { kind := 0, addr := 0x600, off := 0x100, body := sampleBody }
def samplingRun (d : MfDesc) : State := sampling.upTile 65 fun x => { x with sampQ := [], sampRun := some d }



/-- The same descriptor over a graph in GDDR7 whose nodes have no edges. -/
def sampledFar : MfDesc := { sampled0 with body := sampled0.body.set 4 0x2E }

theorem test_hyps_SamplingDescriptorsRunSeedBySeed :
    let e : MfDesc := { (⟨0, 0x600, 0x100, [], 0, 0, 0, 0, 0, [], [], [], false⟩ : MfDesc) with
      body := sampling.bytes (spad 65 0x100) 64 }
    let bad := sampling.wr F.SLIP_SIZE_SIZE 0 65 5
    let s := samplingRun sampled0
    let f := samplingRun sampledFar
    (sampling.tile 65).manHalt = false ∧ sampling.tstate 65 ≠ 4 ∧ (sampling.tile 65).sampRun = none ∧
    (sampling.tile 65).sampQ = { kind := 0, addr := 0x600, off := 0x100 } :: [] ∧ e = sampled0 ∧
    sampling.mfCase 65 sampled0 = none ∧ sampling.badSeed 65 sampled0 = none ∧ (sampling.tile 65).manRun = none ∧
    (bad.mfCase 65 sampled0).isSome = true ∧ sampled0.kind = 0 ∧ bad.tstate 65 = 1 ∧ bad.rd F.T_HALT_VALID 65 = 0 ∧
    sampled0.addr < 2 ^ 19 ∧ (s.tile 65).sampRun = some sampled0 ∧ sampled0.seed < sampled0.count ∧
    s.mfReady 65 sampled0 = true ∧ s.badSeed 65 sampled0 = none ∧
    sampledFar.seed < sampledFar.count ∧ f.mfReady 65 sampledFar = true ∧ f.badSeed 65 sampledFar = none ∧
    ((f.mfReads 65 sampledFar).1 ++ (f.mfReads 65 sampledFar).2)[sampledFar.reads]? = some 0x1000 ∧
    f.gmap 0x1000 = some (1, 0) ∧ f.polices (f.tilePartN 65) false = false ∧
    f.servesRead 0x1000 64 3 65 = true ∧ (f.quay 1).edcBad = false ∧ sampled0.dead = false ∧
    (s.mfReads 65 sampled0).1.length + (s.mfReads 65 sampled0).2.length ≤ sampled0.reads ∧
    s.mfTake 65 sampled0 = .ok (0, [0, 1], 0) ∧ s.mfIds 65 sampled0 0 [0, 1] = .ok [7, 8] ∧
    s.slipSize 65 5 = 0x400 ∧ s.slipHead 65 5 = 0 ∧ s.mfDone 65 { sampled0 with seed := 2 } = true ∧
    s.power.state = .active := by
  and_intros <;> first | decide +kernel | (apply ok_of; decide +kernel)

/-- Manifest 2 of tile 65, of crossing 9 of partition 1 and barrier 30: three destinations of one slot, requests of two
rows and a null one; its run 1 and that run's end, its reports. -/
def manBody : List Byte :=
  [2, 0, 0, 0] ++ leBytes 3 4 ++ [4, 5] ++ leBytes 1 2 ++ leBytes 0x6000 4 ++ List.replicate 48 0
def posted : MfDesc := { kind := 1, addr := 0x600, off := 0x100, body := manBody }

def slotting : State :=
  let s := ((sampling.wr F.MF_MT_CTL_VALID 1 65 2).wr F.MF_MT_CTL_REQ 1 65 2).wr F.MF_MT_CTL_FX 9 65 2
  let s := (s.wr F.MF_MT_GEOM_ROWBYTES 64 65 2).wr F.MF_MT_GEOM_NDST 3 65 2
  let s := (s.wr F.MF_MT_GEOM_SLOTS 1 65 2).wr F.MF_MT_BOUND_PER 10 65 2
  let s := (s.wr F.MF_MT_BOUND_CARRY_BOUND 1 65 2).wr F.MF_MT_AREA_STAGE 0x280 65 2
  let s := (s.wr F.SLIP_HEAD_COUNT 12 65 4).wr F.XT_RCFG_PART 1 65
  let s := ((s.stn (spad 65 0x4000) 4 5).stn (spad 65 0x4004) 4 0xffffffff).stn (spad 65 0x4008) 4 6
  let s := ((s.wr F.XT_BAR_ALLOC 1 0 30).wr F.XT_BAR_PART 1 0 30).wr F.XT_BAR_CROSSING 9 0 30
  (s.wr F.XT_BAR_EXPECT 5 0 30).upTile 65 fun x => { x with sampQ := [], manRun := some posted }

def use9 : CarryUse := ⟨1, 9, [65], 1, 0, [65], [], [], false⟩
def ran : MfDesc := { posted with run := 1, pend := [(2, 6)], slots := [(0, 0, 0, 1)], done := [1] }
def ending (d : Option MfDesc) : State :=
  (slotting.upTile 65 fun x => { x with manRun := d }).upHub fun h => { h with uses := [use9] }

theorem test_hyps_ManifestUsesRunAndCarryOver :
    let full := { use9 with ended := [65], reported := [65], any := true }
    let none9 := { use9 with ended := [65], reported := [65] }
    let rep : State := (ending (some ran)).upHub fun h => { h with reports := [(65, 1, 9, true)] }
    let car : State := (ending (some ran)).upHub fun h => { h with uses := [full] }
    let bar := (ending (some ran)).wr F.MF_MT_BOUND_CARRY_BOUND 0 65 2
    (slotting.tile 65).manRun = some posted ∧ slotting.mfDue 65 = none ∧ posted.kind = 1 ∧ posted.run = 0 ∧
    slotting.hub.uses = [] ∧ slotting.mfReady 65 posted = true ∧ slotting.mfFirst 65 posted = none ∧
    slotting.rd F.XT_RCFG_PART 65 = 1 ∧ slotting.mfCross 65 posted = 9 ∧ slotting.barOf 1 9 = some 30 ∧
    slotting.rd F.XT_BAR_ARRIVED 0 30 + 1 ≠ slotting.barExpect 30 ∧ slotting.power.state = .active ∧
    (ending none).hub.uses = [use9] ∧ use9.part = (ending none).rd F.XT_RCFG_PART 65 ∧ use9.expect = 0 ∧ 65 ∈ use9.engines ∧
    65 ∉ use9.ended ∧ (ending none).hub.running ++ (ending none).hub.starting = [] ∧ ((ending none).tile 65).manRun = none ∧
    ((ending (some ran)).tile 65).manRun = some ran ∧ ran.kind = 1 ∧ ran.dead = false ∧ 0 < ran.run ∧
    (ending (some ran)).mfCross 65 ran = use9.num ∧
    ran.pend.length ≤ (ending (some ran)).rd F.MF_MT_BOUND_CARRY_BOUND 65 ran.mnum ∧ ran.run ≠ 255 ∧
    bar.rd F.MF_MT_BOUND_CARRY_BOUND 65 ran.mnum < ran.pend.length ∧ bar.tstate 65 = 1 ∧ bar.rd F.T_HALT_VALID 65 = 0 ∧
    rep.hub.reports = [(65, 1, 9, true)] ∧ rep.hub.uses = [use9] ∧ car.hub.uses = [full] ∧
    use9.reported.length < use9.engines.length ∧ full.engines.length ≤ full.reported.length ∧ full.any = true ∧
    car.barOf 1 9 = some 30 ∧ posted.dead = false ∧ none9.engines.length ≤ none9.reported.length ∧ none9.any = false := by
  and_intros <;> decide +kernel

/-! ## Hypotheses of the statements about quays -/

/-- Quay 5 with template 255 (128 bytes a use, rows of 64, a stride of 0x18000 bytes); a post of it by tile 65 and one with
a reserved byte set; a use of it, waiting and started. -/
def quay5 (static : Nat) : State :=
  (((on.wr F.T_STATUS_STATE 1 65).wr F.Q_TPL_VALID 1 5 255).wr F.Q_TPL_RSIZE 1 5 255).wr F.Q_TPL_TEMPLATE
    (static * 2 ^ 16 + 128 * 2 ^ 48 + 64 * 2 ^ 80 + 0x5000 * 2 ^ 112 + 0x18000 * 2 ^ 176) 5 255
def timedPost (x : Byte) : QPost := ⟨65, 0x600, [0, 0xFF, x, 0, 0, 0, 0, 0] ++ leBytes 0x5000 6 ++ List.replicate 50 0⟩
def use5 : Use := ⟨255, 0x5000, 0x18000, false, false, false, 0, [], 0⟩
def onQuay (s : State) (f : QuayX → QuayX) : State := s.upQuay 5 f

/-- A push of two rows of 64 bytes at 0x5000 into slip 31 of tile 65, in chunks of 64; one with a reserved bit; the tile
with the slip and credit 15 of it, of quay 5. -/
def push5 (flags : Byte) : QPost :=
  ⟨65, 0x600, [flags, 0, 0xFF, 0x1F, 31, 0, 0, 0] ++ leBytes 0x5000 6 ++ [0, 0] ++ leBytes 0x40000 5 ++ [0, 0, 0] ++
    leBytes 2 4 ++ leBytes 64 4 ++ leBytes 64 4 ++ List.replicate 28 0⟩
def pushed (pos : Nat) : State :=
  let s := ((on.wr F.T_STATUS_STATE 1 65).wr F.SLIP_SIZE_SIZE 4096 65 31).wr F.SLIP_ATTR_CLASS 2 65 31
  let s := (((s.wr F.T_CRED_A_STATE 1 65 15).wr F.T_CRED_A_SLIP 31 65 15).wr F.T_CRED_A_CLASS 2 65 15).wr F.T_CRED_A_UNIT 5 65 15
  (s.wr F.T_CRED_B_BYTES 64 65 15).upQuay 5 fun x => { x with pushes := [⟨push5 4, pos, pos / 64, 0x5000 + pos, 64, some 15⟩] }

theorem test_hyps_QuaysStreamAndPush :
    let s := quay5 0
    let u := { use5 with started := true }
    let r : QReq := ⟨0x5000, none, 1, 15, false, 0, 0⟩
    let x (pos : Nat) : Push := ⟨push5 4, pos, pos / 64, 0x5000 + pos, 64, some 15⟩
    s.quayFenced 5 = false ∧ 65 < 3072 ∧ 15 < 16 ∧
    (onQuay s fun y => { y with posts := [timedPost 0] }).quay 5 = { posts := [timedPost 0] } ∧ s.tplRoom 5 255 = true ∧
    byteAt (timedPost 0).body 1 = 255 ∧ s.timedCase 5 (timedPost 0).body = none ∧
    s.timedCase 5 (timedPost 1).body = some (opCase 0x010C) ∧ s.tstate 65 = 1 ∧ s.rd F.T_HALT_VALID 65 = 0 ∧
    0x600 < 2 ^ 19 ∧ use5.started = false ∧ use5.failed = false ∧ use5.flits = [] ∧ (s.quay 5).owed = [] ∧
    ((onQuay (quay5 1) fun y => { y with owed := [255] }).quay 5).owed = [(255 : BitVec 8).toNat] ∧
    (onQuay s fun y => { y with uses := [u] }).serves 5 4 = true ∧ (onQuay s fun y => { y with uses := [{ u with run := true }] }).serves 5 2 = true ∧
    (s.quay 5).edcBad = false ∧ (onQuay s fun y => { y with reads := [r] }).serves 5 4 = true ∧
    s.rd F.Q_STATUS_SELFREF 5 = 0 ∧ s.quays = [] ∧
    ((onQuay s fun y => { y with uses := [use5] }).quay 5).uses = [use5] ∧ use5.tpl = (255 : BitVec 8).toNat ∧
    (s.quay 5).uses = [] ∧ (quay5 1).tplValid 5 255 = true ∧ (quay5 1).tplStatic 5 255 = true ∧
    (onQuay s fun y => { y with uses := [u] }).stagingUse 5 = some u ∧ s.stagingUse 5 = none ∧
    ((onQuay s fun y => { y with reads := [r] }).quay 5).reads = [r] ∧
    ((onQuay s fun y => { y with pushQ := [push5 0] }).quay 5).pushQ = [push5 0] ∧ (s.quay 5).pushes = [] ∧
    pushReserved (push5 0) = false ∧ (pushed 0).credRefusal 65 (push5 0).slip 64 2 = 0 ∧ pushReserved (push5 8) = true ∧
    (s.tile 65).qpost ≠ some false ∧ ((pushed 64).quay 5).pushes = [x 64] ∧ (x 64).post = push5 4 ∧ (x 64).size = 64 ∧
    (∀ i < 1, (pushed 64).gbad ((x 64).addrOf i) 64 = none ∧ (pushed 64).servesRead ((x 64).addrOf i) 64 2 5 = true) ∧ (pushed 64).polices ((pushed 64).tilePartN 65) false = false ∧
    (pushed 64).credWriteCode 65 15 2 5 0 64 = 0 ∧ (pushed 64).rd F.T_CRED_A_START 65 15 + 64 ≤ 2 ^ 32 ∧
    64 ≤ (pushed 64).slipSize 65 31 ∧ (push5 4).seg = false ∧ (push5 4).rows * (push5 4).rowBytes = 64 + 64 ∧
    ((pushed 0).quay 5).pushes = [x 0] ∧ 0 + 64 < (push5 4).rows * (push5 4).rowBytes ∧
    (push5 4).slip = (pushed 0).rd F.T_CRED_A_SLIP 65 15 ∧ min (push5 4).chunk (128 - (0 + 64)) = 64 ∧
    (pushed 0).rd F.SLIP_ATTR_EXEC 65 31 = 0 ∧ (pushed 0).slipClass 65 31 = 2 ∧ (pushed 0).power.state = .active := by
  and_intros <;> decide +kernel

theorem test_hyps_QuaysStreamAndPush_next : ((quay5 0).pushNext ⟨push5 0, 0, 0, 0x5000, 0, none⟩ .ok).2 = .ok 64 :=
  ok_of (by decide +kernel)

/-- Crossing 7 of partition 0 runs, in whose window quay 5 may refresh. -/
def windowing (debt : Nat) : State :=
  let s := ((on.wr F.Q_RWIN_EN 1 5 7).wr F.PT_PART_A_EN 1 0 0).wr F.PT_PART_A_LAST 11 0 0
  (s.wr F.Q_STATUS_DEBT debt 5).upHub fun h => { h with running := [⟨0, 7, 1, 0⟩] }

/-- A block of sixteen lanes of one value; a write of three bytes at the end of a block; a gradient at 0x5040. -/
def lanes16 (v : Nat) : List Byte := leBytes (joinLanes 32 (List.replicate 16 v)) 64
def write3 : QReq := ⟨0x507D, some [1, 2, 3], 1, 15, false, 0, 0⟩
def grad5 (v : Nat) : QReq := ⟨0x5040, some (lanes16 v), 0, 65, true, 0, 0⟩

theorem test_hyps_QuaysRefreshAbsorbAndAdd :
    let b := (on.wr F.T_STATUS_STATE 1 65).stn 0x5040 64 (joinLanes 32 (List.replicate 16 0x40000000))
    (windowing 6).rd F.Q_STATUS_SELFREF 5 = 0 ∧ (windowing 6).rd F.Q_STATUS_DEBT 5 < 7 ∧
    (windowing 7).rd F.Q_STATUS_DEBT 5 = 7 ∧ (windowing 7).rd F.Q_STATUS_SELFREF 5 = 0 ∧ on.openWindow 5 = none ∧
    (windowing 1).openWindow 5 = some 0 ∧ 0 < (windowing 1).rd F.Q_STATUS_DEBT 5 ∧ ((windowing 1).quay 5).winAt ≠ 0 + 1 ∧
    ((onQuay on fun x => { x with resWait := [write3], wab := List.replicate 2047 write3 }).quay 5).resWait = [write3] ∧
    ((onQuay on fun x => { x with resWait := [write3], wab := List.replicate 2047 write3 }).quay 5).blocks < 2048 ∧
    2048 ≤ ((onQuay on fun x => { x with resWait := [write3], wab := List.replicate 2048 write3 }).quay 5).blocks ∧
    ((onQuay on fun x => { x with reserved := [write3] }).quay 5).reserved = [write3] ∧ write3.add = false ∧
    write3.data ≠ none ∧ (grad5 0).add = true ∧ (⟨0x5000, none, 1, 15, false, 0, 0⟩ : QReq).data = none ∧
    ((onQuay on fun x => { x with wab := [write3] }).quay 5).wab = [write3] ∧ write3.addr % 64 + 3 ≤ 64 ∧
    (onQuay on fun x => { x with wab := [write3] }).serves 5 4 = true ∧ (onQuay on fun x => { x with wab := [write3] }).pressing 5 = false ∧
    (onQuay b fun x => { x with grads := [grad5 0x3F800000] }).serves 5 2 = true ∧ (on.quay 5).edcBad = false ∧
    on.gmap write3.addr = some (5, 0x7D) ∧ write3.unit < 16 ∧ on.quayFenced 5 = false ∧
    on.gmap (0x507D : BitVec 48).toNat = some (5, 0x7D) ∧ on.gmap (0x6040 : BitVec 48).toNat = some (6, 0x40) ∧
    ((onQuay b fun x => { x with grads := [grad5 0x3F800000] }).quay 5).grads = [grad5 0x3F800000] ∧ 0x5040 % 64 = 0 ∧
    on.gmap 0x5040 = some (5, 0x40) ∧ b.tstate 65 = 1 ∧
    b.rd F.T_HALT_VALID 65 = 0 ∧ (b.tile 65).qpost ≠ some false ∧
    (lanes (fun i => fadd (lane (b.ldn (gkey 5 0x40) 64) 32 i) (lane (leVal (lanes16 0x3F800000)) 32 i)) 16 0).toOption =
      some (List.replicate 16 0x40400000) ∧
    (lanes (fun i => fadd (lane (b.ldn (gkey 5 0x40) 64) 32 i) (lane (leVal (lanes16 0x7FC00000)) 32 i)) 16 0).toOption = none := by
  and_intros <;> decide +kernel

theorem test_hyps_QuaysRetryTrainAndPin :
    let t := on.wr F.Q_STATUS_TRAINED 1 5
    let r := ({ State.reset with ctl := { base := 1 } } : State).upPins fun p => { p with rails := 5, pwrGood := true }
    let v : BitVec 64 := 3 + 2 ^ 12 + 7 * 2 ^ 16
    let p := (((t.wr F.QR_PIN_B_NSTRIPES 4 0 1).wr F.QR_PIN_B_NSTRIPES 4 0 3).wr F.QR_PIN_A_EN 1 0 3).wr F.QR_PIN_A_BANDS 2 0 3
    (on.isFenced 2 5 = false ∧ (on.quay 5).retries < 3 ∧ 3 ≤ ((onQuay on fun x => { x with retries := 3 }).quay 5).retries) ∧
    on.rd F.FT_STATE_OUT = 0 ∧ t.rd F.Q_STATUS_SELFREF 5 = 0 ∧ t.rd F.Q_STATUS_TRAINED 5 = 1 ∧ r.ctl.base = 1 ∧
    r.pins.pwrGood = true ∧ r.boot.failed = none ∧ r.boot.booted = none ∧ on.coreReady 15 = true ∧ on.hub.running = [] ∧
    (3 : BitVec 64).getLsbD 12 = false ∧ v.getLsbD 12 = true ∧
    (∀ o < 4, t.rd F.QR_PIN_A_EN 0 o = 0) ∧ p.rd F.QR_PIN_A_EN 0 3 = 1 ∧ 1 ∈ p.pinQuays 3 ∧
    1 ∈ ((p.wr F.QR_PIN_A_BANDS v.toNat 0 1).wr F.QR_PIN_A_PBASE (v.toNat / 2 ^ 16) 0 1).pinQuays 1 ∧
    p.rd F.QR_PIN_B_SBASE 0 1 < p.rd F.QR_PIN_B_SBASE 0 3 + p.rd F.QR_PIN_B_NSTRIPES 0 3 ∧
    p.rd F.QR_PIN_B_SBASE 0 3 < p.rd F.QR_PIN_B_SBASE 0 1 + p.rd F.QR_PIN_B_NSTRIPES 0 1 := by
  and_intros <;> decide +kernel

/-! ## Hypotheses of the statements about confluence engines -/

/-- A descriptor of KIND at 0x8000: COLLID 0x77, STEP 5, three ranks of which this is rank 1, its peer list at 0x10000, SRC
0x20000, DST 0x30000, NELEM 192. -/
def descBytes (kind : Byte) : List Byte :=
  [kind, 0, 1, 0] ++ leBytes 0x77 4 ++ leBytes 5 4 ++ leBytes 3 2 ++ leBytes 1 2 ++ leBytes 0x10000 6 ++ [0, 0] ++
    leBytes 0x20000 6 ++ [0, 0] ++ leBytes 0x30000 6 ++ [0, 0] ++ leBytes 0 8 ++ leBytes 192 5 ++ leBytes 0 5 ++
    leBytes 99 2 ++ leBytes 1000 4 ++ leBytes 10 2 ++ leBytes 0 6 ++ List.replicate 56 0

/-- Engine 11 with a descriptor of a kind posted. -/
def posting (kind : Byte) : State :=
  let s := ((on.setBytes 0x8000 (descBytes kind)).stn 0x10000 4 (4 + 5 * 65536)).stn 0x10004 4 (5 * 65536)
  (s.stn 0x10008 4 (9 + 5 * 65536)).upEng 11 fun e => { e with queue := [0x8000] }

/-- The collective of the descriptor running in a phase. -/
def collOf (kind : Byte) (phase : Nat) : Coll := ((posting kind).collAt 0x8000).enter phase
def running (kind : Byte) (phase : Nat) : State :=
  (posting kind).upEng 11 fun e => { e with queue := [], run := some (collOf kind phase) }

theorem test_hyps_CollectivesStartAndEnd :
    (on.eng 11).queue.length < 8 ∧
    8 ≤ ((on.upEng 11 fun e => { e with queue := List.replicate 8 0x8000 }).eng 11).queue.length ∧
    ((posting 2).eng 11).queue = 0x8000 :: [] ∧ ((posting 2).eng 11).run = none ∧ (collOf 2 3).kind = 2 ∧
    (collOf 3 1).kind = 3 ∧ (posting 2).collOk ((posting 2).collAt 0x8000) = true ∧ (collOf 2 3).phaseDone = false ∧
    (posting 3).collOk ((posting 3).collAt 0x8000) = true ∧ (collOf 3 1).phaseDone = false ∧
    ((posting 2).stn 0x8001 1 9).collOk (((posting 2).stn 0x8001 1 9).collAt 0x8000) = false ∧
    ((running 2 3).eng 11).run = some (collOf 2 3) ∧ (collOf 2 3).phase ≠ 5 ∧ 0 < (collOf 2 3).rounds ∧
    find2 (collOf 2 3).recs 0 = none ∧ (collOf 2 3).replica = false ∧ (collOf 2 5).phase = 5 ∧
    ((running 2 5).eng 11).queue.length < 16 := by and_intros <;> decide +kernel

/-- A segment of TYPE 2 of a rank for a chunk, and one of TYPE 0; data for channel 15 of an engine. -/
def segOf (ty rank chunk n : Nat) : List Byte :=
  leBytes 0x77 4 ++ leBytes 5 4 ++ leBytes rank 2 ++ [0] ++ leBytes ty 1 ++ leBytes chunk 2 ++ leBytes n 2 ++
    List.replicate 16 0 ++ List.replicate n 7
def chanSeg : List Byte :=
  leBytes 0 8 ++ leBytes 9 2 ++ [0, 4] ++ leBytes 15 2 ++ leBytes 64 2 ++ List.replicate 16 0 ++ List.replicate 64 7
def channeled : State :=
  ((on.wr F.CF_CHAN_A_EN 1 11 15).wr F.CF_CHAN_A_KIND 3 11 15).wr F.CF_CHAN_A_PEER 9 11 15

theorem test_hyps_EnginesReadReceiveAndChannel :
    let c := collOf 2 3
    let s := running 2 3
    let seg := segOf 2 0 0 128
    let own : Coll := { c with copies := aadd c.copies (2 * segKey seg) 1, taken := aput 0 c.taken (2 * segKey seg) 1,
                               recv0 := c.recv0 + 128 }
    (s.eng 11).run = some c ∧ s.servesRead (c.readAddr c.read) 64 4 11 = true ∧ (s.quay 8).edcBad = false ∧ c.phase = 3 ∧ c.kind = 2 ∧ c.read < c.reads ∧ s.gmap (c.readAddr c.read) = some (8, 0x1000) ∧
    c.dst % 64 = 0 ∧ c.nelem % 64 = 0 ∧ (∀ x ∈ cuts c.nelem 2016, ¬ (64 * c.read < x.1 + x.2 ∧ x.1 + x.2 ≤ 64 * (c.read + 1))) ∧
    (s.gmap (c.dst + c.r * c.nelem + 64 * c.read)).isSome = true ∧ ({ c with read := c.read + 1 } : Coll).phaseDone = false ∧
    0 < c.rounds ∧ find2 c.recs 0 = none ∧ (s.port 11).inbox.contains (0, seg) = false ∧ segOk [1, 2] = false ∧
    segOk seg = true ∧ segAt seg 0x0B 1 = 2 ∧ (on.eng 11).run = none ∧ c.owns (leBytes 1 4 ++ seg.drop 4) = false ∧
    segOk (leBytes 1 4 ++ seg.drop 4) = true ∧ segOk chanSeg = true ∧ segAt chanSeg 0x0B 1 = 4 ∧
    segAt chanSeg 0x0C 2 = 15 ∧ channeled.chanKind 11 15 = 3 ∧ channeled.rd F.CF_CHAN_A_PEER 11 15 = segAt chanSeg 0x08 2 ∧
    c.owns seg = true ∧ c.replica = false ∧ c.fits seg = true ∧ s.canPlace 11 c seg = true ∧
    aget 0 c.taken (2 * segKey seg) = 0 ∧ own.phaseDone = false ∧ segAt seg 0x0C 2 ≠ c.next ∧ (s.eng 11).spill = [] ∧
    (s.eng 11).fwdBytes + seg.length ≤ 262144 ∧ ((running 3 1).eng 11).run = some (collOf 3 1) ∧
    segOk (segOf 0 0 1 2) = true ∧ (collOf 3 1).owns (segOf 0 0 1 2) = true ∧ (collOf 3 1).fits (segOf 0 0 1 2) = true ∧
    (running 3 1).canPlace 11 (collOf 3 1) (segOf 0 0 1 2) = false ∧ on.chanRunning 11 15 = false := by
  and_intros <;> decide +kernel

/-- A running crossing that uses the channel. -/
theorem test_hyps_EnginesReadReceiveAndChannel_used :
    (planned.upHub fun h => { h with running := [⟨0, 7, 1, 0⟩] }).chanRunning 11 15 = true := by decide +kernel

/-! ## Hypotheses of the statements about the landing cluster and the roster -/

/-- Core 15 in supervisor mode with 2 MiB of landing SRAM; with a line at 0x5040; with a stalled read. -/
def landing : State := ((on.wr F.L_CFG_LSRAM 2).wr F.L_STATUS_SUPER 1 15)
def line5 (dirty locked : Bool) : CLine := ⟨0x5040, List.replicate 64 5, dirty, locked⟩
def cached (dirty locked : Bool) : State := { landing with cache := [line5 dirty locked] }
def stalled (m : MemRead) : State := landing.upCore 15 fun x => { x with mem := some m }

/-- Window 63 of task 63: the first page of its space on the landing SRAM's second, readable. -/
def winTask : State :=
  ((((landing.wr F.L_WIN_B_EN 1 0 63).wr F.L_WIN_B_TASK 63 0 63).wr F.L_WIN_B_PBASE 0x300010001 0 63).wr F.L_WIN_B_R 1 0 63)

theorem test_hyps_LandingAccessesTranslateAndReach :
    landing.coreReady 15 = true ∧ 64 ∈ coreSizes ∧ landing.rd F.L_STATUS_SUPER 15 = 1 ∧ (landing.core 15).handler = false ∧
    (sramBase ≤ 0x3000101FFFC0 ∧ 0x3000101FFFC0 + 64 ≤ sramBase + landing.rd F.L_CFG_LSRAM * 2 ^ 20 ∧
      landing.line 0x3000101FFFC0 = none ∧ 0x3000101FFFC0 % 64 = 0) ∧
    landing.gmap 0x507F = some (5, 0x7F) ∧ (landing.core 15).streams = [] ∧
    (cached false false).line 0x507F = some (line5 false false) ∧ (line5 false false).locked = false ∧
    ((cached false false).cache.filter fun y => y.addr != 0x5040).length < (cached false false).cacheLines ∧
    (cached false true).line 0x507F = some (line5 false true) ∧ landing.line 0x507F = none ∧
    landing.cache.length < landing.cacheLines ∧ 0x507D % 2 ≠ 0 ∧ spad 3071 0xFFFC0 % 64 = 0 ∧
    (List.range 64).find? (fun w => winTask.lwinCovers w 63 0xFC0 64 && winTask.lwinAllows w .read) = some 63 ∧
    sramBase ≤ (winTask.rd F.L_WIN_B_PBASE 0 63 * 4096 + (0xFC0 - winTask.rd F.L_WIN_A_VBASE 0 63 * 4096)) % 2 ^ 48 ∧
    (∀ w < 64, (winTask.lwinCovers w 63 0x1000 64 && winTask.lwinAllows w .read) = false) ∧
    (∀ w < 64, (winTask.lwinCovers w 63 0xFC0 64 && winTask.lwinAllows w .write) = false) ∧
    ((stalled ⟨0x507F, 1, 0x507F⟩).core 15).mem = some ⟨0x507F, 1, 0x507F⟩ ∧ 0x507F < 0x1800000000 ∧
    landing.quayFenced 5 = false ∧ landing.servesRead 0x507F 1 1 15 = true ∧ (landing.quay 5).edcBad = false ∧ landing.polices (landing.corePart 15) false = false ∧
    ((stalled ⟨spad 5 0x5FFC0, 64, 0⟩).core 15).mem = some ⟨spad 5 0x5FFC0, 64, 0⟩ ∧ landing.tstate 5 ≠ 4 := by
  and_intros <;> decide +kernel

/-- The core waiting on object 8191, the answer come or not; asking for and holding credit 15 of a tile. -/
def coreWait (b : Bool) (code : Nat) : State := landing.upCore 15 fun x => { x with soWait := some (8191, b, code) }
def answerTo (b : Bool) : State := (coreWait b 0).upHub fun h => { h with answers := [⟨1, 15, 3, 8191, 1⟩] }
def coreAsks : State :=
  ((landing.wr F.SLIP_SIZE_SIZE 4096 5 31).wr F.SLIP_ATTR_CLASS 4 5 31).upCore 15 fun x => { x with cred := some (5, 31, 128) }
def coreHas : State :=
  let s := (((coreAsks.wr F.T_CRED_A_STATE 1 5 15).wr F.T_CRED_A_SLIP 31 5 15).wr F.T_CRED_A_CLASS 4 5 15).wr F.T_CRED_A_UNIT 15 5 15
  (s.wr F.T_CRED_B_BYTES 128 5 15).upCore 15 fun x => { x with credRec := some 15 }

theorem test_hyps_LandingCoresWaitAndHoldCredits :
    landing.coreReady 15 = true ∧ landing.power.state = .active ∧ landing.hub.waits ++ landing.hub.inbox = [] ∧
    landing.hub.answers = [] ∧ (landing.core 15).soWait = none ∧ ((coreWait false 0).core 15).soWait = some (8191, false, 0) ∧
    (coreWait false 0).coreReady 15 = true ∧ (coreWait false 3).coreReady 15 = true ∧
    ((coreWait false 3).core 15).soWait = some (8191, false, 3) ∧ (coreWait false 4).coreReady 15 = true ∧
    ((coreWait false 4).core 15).soWait = some (8191, false, 4) ∧ 4 < 2 ^ 16 ∧ (landing.core 15).handler = false ∧
    (landing.core 15).cred = none ∧ coreAsks.credRefusal 5 31 4096 4 = 0 ∧ coreHas.coreHolds 15 = true ∧
    coreHas.coreReady 15 = true ∧ (coreAsks.core 15).cred ≠ none ∧ (coreAsks.core 15).credRec = none ∧
    (coreHas.core 15).credRec = some 15 ∧ (List.replicate 64 (1 : Byte)).length = 64 ∧ (0x7FFC0 : BitVec 19).toNat % 64 = 0 ∧
    (List.replicate 8 (1 : Byte)).length ≠ 32 ∧ (List.replicate 8 (1 : Byte)).length ≠ 64 ∧
    (coreHas.core 15).cred = some (5, 31, 128) ∧ coreHas.credWriteCode 5 15 4 15 64 64 = 0 ∧
    coreHas.rd F.T_CRED_A_SLIP 5 15 = 31 ∧ coreHas.slipSize 5 31 % 64 = 0 ∧ coreHas.slipSize 5 31 ≠ 0 ∧
    coreHas.rd F.T_CRED_A_START 5 15 % 64 = 0 ∧ coreHas.rd F.T_CRED_A_START 5 15 + 64 < 2 ^ 32 ∧
    (answerTo false).hub.answers.find? (fun w => w.cls == 1 && w.unit == 15 && w.op == 3) = some ⟨1, 15, 3, 8191, 1⟩ ∧
    ((answerTo false).core 15).soWait = some (8191, false, 0) ∧ ((answerTo true).core 15).soWait = some (8191, true, 0) ∧
    (answerTo true).isFenced 1 15 = false ∧ (answerTo false).isFenced 1 15 = false ∧ ((coreWait true 0).wr F.L_SOWAIT_LIMIT_LC 9 15).rd F.L_SOWAIT_LIMIT_LC 15 ≠ 0 ∧
    (coreWait true 0).rd F.L_SOWAIT_LIMIT_LC 15 = 0 ∧ ((coreWait true 0).wr F.L_STATUS_SUPER 0 15).rd F.L_STATUS_SUPER 15 = 0 ∧
    (landing.core 15).credWait = false := by and_intros <;> decide +kernel

/-- Slot 7 of core 15 declares two lines at 0x5000; the stream of it; a cache operation over the line held. -/
def declared : State :=
  ((landing.wr F.L_STRM_BASE_BASE 0x5000 15 7).wr F.L_STRM_SHAPE_ROWLINES 2 15 7).wr F.L_STRM_SHAPE_ROWS 1 15 7 |>.wr
    F.L_STRM_CTL_LEAD 256 15 7
def stream7 : Stream := ⟨7, false, 0x5000, 2, 1, 0, 256, 0, [], [], 0, []⟩
def streaming : State := (declared.wr F.L_STRM_CTL_ACTIVE 1 15 7).upCore 15 fun x => { x with streams := [stream7] }
def cacheOp (op : Nat) : State :=
  (((cached true false).wr F.L_CACHE_OP_A_BASE 0x140).wr F.L_CACHE_OP_B_LINES 2).wr F.L_CACHE_OP_B_OP op |>.wr F.L_CACHE_OP_B_DONE 0

theorem test_hyps_StreamsCacheAndEpoch :
    declared.coreReady 15 = true ∧ declared.streamOk 15 7 = some 0x5000 ∧ landing.streamOk 15 7 = none ∧
    (landing.core 15).handler = false ∧ landing.rd F.L_STATUS_SUPER 15 = 1 ∧ landing.rd F.L_CACHE_OP_B_DONE = 1 ∧
    min (31 : BitVec 5).toNat 16 ≠ landing.rd F.L_CFG_LSRAM ∧ (∀ u < 16, (landing.wr F.L_STATUS_SUPER 1 u).rd F.L_STATUS_SUPER u = 1) ∧
    (∀ u < 16, ((List.range 16).foldl (fun s u => s.wr F.L_STATUS_SUPER 1 u) landing).rd F.L_STATUS_SUPER u = 1) ∧
    (∀ z ∈ (cached true false).cache, z.addr < sramBase) ∧
    (0x100000001 : BitVec 64).toNat % 2 ^ 32 = (landing.rd F.L_EPOCH_EPOCH + 1) % 2 ^ 32 ∧
    ((0x100000001 : BitVec 64).getLsbD 32).toNat ≠ landing.rd F.L_EPOCH_LIVE ∧
    ((1 : BitVec 64).getLsbD 32).toNat = landing.rd F.L_EPOCH_LIVE ∧
    (0x100000002 : BitVec 64).toNat % 2 ^ 32 ≠ (landing.rd F.L_EPOCH_EPOCH + 1) % 2 ^ 32 ∧
    (landing.wr F.L_STATUS_SUPER 0 15).rd F.L_STATUS_SUPER 15 = 0 ∧ (streaming.core 15).streams = [stream7] ∧
    stream7.next < stream7.total ∧ stream7.next < stream7.far + stream7.lead * 64 ∧ stream7.next ∉ stream7.seen ∧
    streaming.line (stream7.lineAddr 0) = none ∧ stream7.lineAddr 0 % 64 = 0 ∧
    streaming.gmap (stream7.lineAddr 0) = some (5, 0) ∧ streaming.cache.length < streaming.cacheLines ∧
    (cacheOp 3).rd F.L_CACHE_OP_B_DONE = 0 ∧ (cacheOp 3).cache = [line5 true false] ∧ (line5 true false).addr < sramBase ∧
    (cacheOp 3).rd F.L_CACHE_OP_A_BASE ≤ (line5 true false).addr / 64 ∧
    (line5 true false).addr / 64 < (cacheOp 3).rd F.L_CACHE_OP_A_BASE + (cacheOp 3).rd F.L_CACHE_OP_B_LINES := by
  and_intros <;> decide +kernel

/-- Entry 16383 in a STATE (word 1) with LENGTH 1 and MAXLEN 2; a list with its record in lane 0. -/
def entry (state : Nat) : State :=
  ((on.entWr 16383 1 state).entWr 16383 4 1).entWr 16383 5 2 |>.entWr 16383 10 0x3F800000
def record : RRec := ⟨0, 0, 16383, 0, [], 0, 1, false, false, 0, false, false, false⟩
def list1 : RList := { num := 1, lanes := 1, records := [record], began := 0 }
def commit1 : Commit := ⟨5, 0x400, 1, 0, 0, 262143, 0⟩
def roster (f : Roster → Roster) (s : State) : State := { s with roster := f s.roster }
def building (n : Nat) : State :=
  roster (fun r => { r with build := some { list1 with records := [] } }) ((on.wr F.ROS_LOG_HEAD_COUNT n).wr F.ROS_LOG_CFG_SIZE 64)
def committing : State :=
  roster (fun r => { r with cur := some list1, inflight := [commit1] }) (((entry 2).wr F.ROS_CTL_EN 1).wr F.ROS_LISTNO_CURRENT 1)
def applying : State := roster (fun r => { r with inflight := [], commits := [commit1] }) committing

theorem test_hyps_RosterAdmitsBuildsAndCommits :
    let en := on.wr F.ROS_CTL_EN 1
    let published := roster (fun r => { r with build := some { list1 with voided := true } }) on
    let pool (fill : Nat) := ((on.wr F.ROS_POOL_CFG_NPAGES 8).wr F.ROS_POOL_CFG_SIZE 4).wr F.ROS_POOL_FILL_FILL fill
    (entry 0).entState 16383 = 0 ∧ (entry 0).ent 16383 8 < 262144 ∧ (entry 3).entState 16383 ≠ 0 ∧
    (((entry 0).entWr 16383 1 0x10000).entWr 16383 7 0x10000).admitOk 16383 = true ∧
    (((entry 0).entWr 16383 1 0x10000).entWr 16383 7 0x10000).entState 16383 = 0 ∧ (on.entWr 16383 4 0).admitOk 16383 = false ∧ 262144 ≤ ((entry 0).entWr 16383 8 262144).ent 16383 8 ∧
    (entry 2).entState 16383 ∈ [1, 2] ∧ (entry 2).outstanding 16383 = false ∧ committing.entState 16383 ∈ [1, 2] ∧
    committing.outstanding 16383 = true ∧ (entry 3).entState 16383 ∈ [0, 3] ∧ (entry 3).entState 16383 = 3 ∧
    (entry 2).entState 16383 ≠ 3 ∧ landing.coreReady 15 = true ∧ landing.rd F.L_STATUS_SUPER 15 = 1 ∧
    landing.entState 16383 = 0 ∧ ((entry 2).wr F.ROS_CTL_EN 1).rd F.ROS_CTL_EN ≠ 0 ∧ ((entry 2).core 15).handler = false ∧
    ((entry 2).wr F.L_STATUS_SUPER 0 15).rd F.L_STATUS_SUPER 15 = 0 ∧ en.rd F.ROS_CTL_EN = 1 ∧ en.roster.build = none ∧
    en.roster.trig = false ∧ en.roster.cur = none ∧ (roster (fun r => { r with trig := true }) en).roster.trig = true ∧
    en.visitOrder = [] ∧ (building 64).roster.build.isSome = true ∧ (building 64).rd F.ROS_STATUS_LOGWAIT = 0 ∧
    (building 65).logRoom 0 = false ∧ (building 64).logRoom 0 = true ∧
    ((building 64).wr F.ROS_STATUS_LOGWAIT 1).rd F.ROS_STATUS_LOGWAIT = 1 ∧
    published.roster.build = some { list1 with voided := true } ∧ published.unretired 7 0 = false ∧ record.void = false ∧
    committing.roster.inflight = [commit1] ∧ commit1.tile = 5 ∧ committing.roster.cur = some list1 ∧
    (list1.records.find? fun r => r.lane == commit1.lane && r.recNo == commit1.recNo) = some record ∧
    committing.rd F.ROS_LISTNO_CURRENT = commit1.listno ∧ record.applied = false ∧ commit1.token < 262144 ∧
    committing.roster.commits.length < 1024 ∧ (committing.wr F.ROS_CTL_EN 0).rd F.ROS_CTL_EN = 0 ∧
    applying.roster.commits = commit1 :: [] ∧ applying.roster.build = none ∧ applying.roster.cur = some list1 ∧
    applying.entState 16383 ∈ [1, 2] ∧ applying.entLen 16383 + 1 < 2 ^ 21 ∧
    (7 : BitVec 32).toNat < (pool 3).rd F.ROS_POOL_CFG_NPAGES ∧ (pool 3).rd F.ROS_POOL_FILL_FILL < (pool 3).rd F.ROS_POOL_CFG_SIZE ∧
    (pool 0).rd F.ROS_POOL_CFG_NPAGES ≤ (8 : BitVec 32).toNat ∧ (pool 4).rd F.ROS_POOL_CFG_SIZE ≤ (pool 4).rd F.ROS_POOL_FILL_FILL ∧
    (pool 0).rd F.ROS_POOL_FILL_FILL = 0 ∧ 0 < (pool 1).rd F.ROS_POOL_FILL_FILL := by
  and_intros <;> decide +kernel

/-! ## Hypotheses of the statements about links -/

/-- Port 11 in a state, in mode 1 to 4,094 with its cable; with frames queued and kept for replay. -/
def port11 (state : Nat) : State :=
  (((on.wr F.FL_STATUS_STATE state 11).wr F.FL_CTL_EN 1 11).wr F.FL_STATUS_CABLE 1 11).upBoot fun b =>
    { b with portMode := [(11, 1)], portPeer := [(11, 4094)], dstMap := [(11, 2 ^ 4094)], sysid := 9 }
def frameTo (dst tries : Nat) : TxFrame := ⟨65535, 1, dst, List.replicate 20 0, tries⟩
def upWith (f : PortX → PortX) : State := (port11 4).upPort 11 f

theorem test_hyps_FabricPortsComeUpAndGoDown :
    (port11 1).plState 11 = 1 ∧ (port11 1).rd F.FL_CTL_EN 11 = 1 ∧ (port11 1).rd F.FL_STATUS_CABLE 11 = 1 ∧
    (port11 1).rd F.FL_STATUS_LOWPOWER 11 = 0 ∧ aget 0 (port11 1).boot.portMode 11 ≠ 0 ∧ (port11 2).plState 11 = 2 ∧
    (port11 3).plState 11 = 3 ∧ (port11 5).plState 11 = 5 ∧ (port11 3).guardAdmits 11 9 4094 = true ∧
    (port11 3).guardAdmits 11 9 4095 = false ∧ on.pins.pwrGood = false ∧
    ((port11 4).upPins fun p => { p with pwrGood := true }).pins.pwrGood = true ∧ 5 ≤ (port11 5).plState 11 ∧ (port11 4).plState 11 = 4 ∧ (port11 0).plState 11 ≤ 1 := by
  and_intros <;> decide +kernel

/-- A fetch of 2 MiB under way whose first request has its bytes but the last. -/
def fetch1 (tries got : Nat) : Fetch := ⟨7, 0, 2 ^ 20, 10, tries, got⟩
def load1 (next : Nat) (r : Fetch) : Load := ⟨0, 1, 3000, 2 ^ 21, 0, 0, 0x10000, next, [r]⟩
def loading (next : Nat) (r : Fetch) : State :=
  ((port11 4).upBoot fun b => { b with dstMap := [(11, 2 ^ 3000)] }).upCtl fun c => { c with load := some (load1 next r) }

theorem test_hyps_FramesAreSequencedAcknowledgedAndReplayed :
    let body : List Byte := List.replicate 20 0
    let msg : List Byte := 1 :: List.replicate 19 0
    let q := upWith fun p => { p with txq := [frameTo 4094 0], credit1 := 1 }
    let r (n : Nat) := upWith fun p => { p with replay := [frameTo 4094 n] }
    (port11 4).plState 11 = 4 ∧ body.length ≤ 2048 ∧ messageOk msg = true ∧ ((port11 4).port 11).rxSeq = 0 ∧
    ((port11 4).port 11).unacked < 15 ∧ ((port11 4).port 11).nakFor ≠ some 0 ∧
    ((upWith fun p => { p with nakFor := some 0 }).port 11).nakFor = some 0 ∧ frameOk (List.replicate 64 1) = false ∧
    ((port11 4).port 11).resendTo = none ∧ (65535 + 65536 - ((port11 4).port 11).ackSeq) % 65536 ≤ 0 ∧
    ((r 1).port 11).replay.length = 1 ∧ (0 + 65536 - ((r 1).port 11).ackSeq) % 65536 ≤ 1 ∧
    (q.port 11).txq = frameTo 4094 0 :: [] ∧ (frameTo 4094 0).body.length ≤ 2048 ∧ q.guardPasses 11 4094 = true ∧
    frameWords 20 ≤ (q.port 11).credit1 ∧ ((q.port 11).replayWords + frameWords 20) * 64 ≤ 262144 ∧
    q.guardPasses 11 4093 = false ∧ ((upWith fun p => { p with txq := [frameTo 4094 0] }).port 11).credit1 < frameWords 20 ∧
    ((r 7).port 11).replay.getLast? = some (frameTo 4094 7) ∧ (frameTo 4094 7).tries < 8 ∧ 8 ≤ (frameTo 4094 8).tries ∧
    0 < ((upWith fun p => { p with unacked := 1 }).port 11).unacked ∧ (port11 3).plState 11 ≠ 4 ∧
    ((channeled.wr F.CF_CHAN_A_KIND 2 11 15)).chanKind 11 (15 : BitVec 4).toNat = 2 ∧
    (loading (2 ^ 20) (fetch1 0 (2 ^ 20 - 20))).ctl.load = some (load1 (2 ^ 20) (fetch1 0 (2 ^ 20 - 20))) ∧
    (fetch1 0 0).id = (7 : BitVec 32).toNat ∧ (2 ^ 20 - 20 : BitVec 64).toNat = 0 + (2 ^ 20 - 20) ∧
    2 ^ 20 - 20 + body.length ≤ (fetch1 0 0).len ∧ (1 : BitVec 8).toNat ∈ [1, 2] ∧
    (load1 (2 ^ 20) (fetch1 0 0)).next + 2 ^ 20 ≤ (load1 (2 ^ 20) (fetch1 0 0)).length ∧
    (fetch1 0 (2 ^ 20)).len ≤ (fetch1 0 (2 ^ 20)).got ∧
    (loading (2 ^ 20) (fetch1 1 0)).fetchPorts (load1 (2 ^ 20) (fetch1 1 0)).ingest = [11] ∧ (fetch1 1 0).tries < 2 ∧
    2 ≤ (fetch1 2 0).tries := by and_intros <;> decide +kernel

/-! ## Hypotheses of the statements about power, partitions and switches -/

/-- The image of a client in partition 3: tile 5, all four roasts, entry 0x400 in each; the partition with client 1 as the
current one and an image of client 15; running; waiting at the boundary object 9. -/
def image3 (c : Nat) : Image :=
  { part := 3, client := c, model := 5, digest := 0, stepid := 0xB0, gen := 0, area := 0, length := 64, roasts := 15,
    tiles := [5], entries := [(0, 5, 0x400)], curs := [], resumes := [(0, 1, 5, 0x402), (3, 1, 5, 0x440)], objs := [9], tables := [], plan := ⟨[], [], [], [], []⟩ }
def part3 : State :=
  let s := (((on.wr F.PT_PART_A_EN 1 0 3).wr F.PT_PART_A_LAST 11 0 3).wr F.PT_PART_A_CLIENT 1 0 3).wr F.PT_MODEL_MODEL_ID 5
  let s := ((s.wr F.QR_PIN_A_EN 1 0 3).wr F.T_CODE_STAMP_STAMP 0xB0 5).wr F.SO_CTL_OWNER 0x6000 0 9
  s.upCtl fun c => { c with images := [image3 1, image3 15] }
def run3 : State := (part3.setRun 3 true).wr F.T_STATUS_STATE 1 5
def bound3 : State :=
  let s := ((run3.wr F.SLIP_SIZE_SIZE 256 5 0).wr F.SLIP_BASE_BASE 0x400 5 0).wr F.SLIP_ATTR_EXEC 1 5 0
  (((s.wr F.T_PC_ADDR 0x400 5).stn (spad 5 0x400) 2 0x100).upTile 5 fun x => { x with soWait := some (9, 0) }).upHub fun h => { h with waits := [⟨0, 5, 3, 9, 0, 3, false, 0x400, false⟩] }

theorem test_hyps_PowerIsMeteredGrantedAndStopped :
    let r := ((part3.wr F.QR_REG_RING_EN 1 0 3).wr F.QR_REG_RING_BURST 1 0 3)
    let b := bound3.wr F.PW_GRANT_WATTS 700
    let im := image3 1
    let start := State.reset.upPower fun x => { x with state := .starting }
    r.polices 3 false = true ∧ 1024 * 1024 ≤ r.level 3 false ∧ r.level 3 false < 1024 * 1025 ∧
    (∀ u < 4, part3.partEn u = true ↔ u = 3) ∧ part3.client 3 = 1 ∧ on.powered = true ∧
    (landing.roastMask 3 = 0 ∧ landing.adopt 3 = landing.roastOf 3) ∧
    b.adopt 3 = 3 ∧ b.roastOf 3 = 0 ∧ (b.roastMask 3).testBit 3 = true ∧ b.run 3 = true ∧ b.sameBoundary 3 1 = true ∧
    b.curImage 3 = some im ∧ b.placed 3 = [5] ∧ b.clockRuns = true ∧ b.inCrossing 5 = false ∧
    b.rd F.T_CODE_STAMP_STAMP 5 = b.stepid ∧ im.resumes.find? (fun e => e.1 == b.adopt 3 && e.2.1 == 1 && e.2.2.1 == 5) = some (b.adopt 3, 1, 5, 0x440) ∧ 0x440 < 2 ^ 19 ∧ 0x440 % 2 = 0 ∧
    (∀ w ∈ b.hub.waits, w.cls = 0 ∧ w.unit = 5) ∧
    (on.wr F.DBG_CTL_DONE 1).quietGrid = true ∧ on.frozen = false ∧ on.checkpoint = true ∧ (on.wr F.XT_SPINE_CYCLE_COUNT 63).checkpoint = false ∧ State.reset.clockRuns = false ∧ run3.quietGrid = false ∧
    (on.wr F.XT_HOLD_STATUS_HOLDING 1).frozen = true ∧ start.power.state = .starting ∧ start.boot.entropy = true ∧
    start.tiles = [] ∧ (start.upBoot fun b => { b with entropy := false }).boot.entropy = false ∧
    start.rd F.FT_STATE_OUT = 0 ∧ (start.eng 11).run = none ∧ start.plState 11 < 2 ∧ on.power.state ≠ .starting := by
  and_intros <;> decide +kernel

/-- A switch of partition 3 from client 1 to client 15 in a phase, tile 5 stopped by it. -/
def switch3 (phase : Nat) (cs : List Context) : State :=
  (((part3.wr F.T_STATUS_STATE 2 5).wr F.T_HALT_REASON 0x10 5).upCtl fun c =>
    { c with switch := some ⟨[(3, 15)], false, 5, phase, 0⟩, contexts := cs })
def context3 : Context := ⟨3, 15, [(5, [(0x5FFFF, 7)], [])], [], [], true⟩

theorem test_hyps_ContextSwitchesAndDrain :
    let w := run3.upCtl fun c => { c with swWait := some (8, 0, 15 * 16 ^ 3, 5), order := [.management],
                                          mgmt := some { op := 8, tag := 9, args := [], began := true } }
    let busy := (switch3 1 []).upTile 5 fun x => { x with creds := [⟨31, 64, 2, 5⟩] }
    part3.ctl.order = [] ∧ part3.modState = 2 ∧ part3.ctl.swWait = none ∧ part3.ctl.switch = none ∧
    part3.switchBad false 5 (3, 15) = false ∧ part3.run 3 = false ∧ part3.placed 3 = [5] ∧ part3.tstate 5 ≠ 1 ∧ part3.rd F.T_HALT_VALID 5 = 0 ∧
    run3.modState = 3 ∧ run3.switchBad false 5 (3, 15) = false ∧ run3.run 3 = true ∧ run3.partAtBoundary 3 = false ∧
    State.reset.modState ∉ [2, 3] ∧ w.ctl.swWait = some (8, 0, 15 * 16 ^ 3, 5) ∧
    w.allAtBoundary (w.switchParts 8 0 (15 * 16 ^ 3)) = false ∧ w.ctl.order = [.management] ∧
    w.heldOn .management = some { op := 8, tag := 9, args := [], began := true } ∧
    (switch3 1 []).client 3 = 1 ∧ (switch3 1 []).placed 3 = [5] ∧ (switch3 1 []).tileDrained 5 = true ∧
    busy.tileDrained 5 = false ∧ (switch3 1 []).canResume 5 = true ∧ (switch3 1 []).clockRuns = true ∧
    (switch3 1 []).inCrossing 5 = false ∧ (switch3 2 []).image 3 1 = some (image3 1) ∧ (switch3 2 []).rd F.QR_PIN_B_NSTRIPES 0 3 = 0 ∧
    (switch3 4 [context3]).ctl.contexts = [context3] ∧ context3.part = 3 ∧ context3.client = 15 ∧ context3.fresh = true ∧
    context3.lost = [] ∧ context3.tiles = [(5, [(0x5FFFF, 7)], [])] ∧ 0x5FFFF < 0x60000 ∧
    (switch3 4 [context3]).tileFenced 5 = false ∧ (switch3 4 []).ctl.contexts = [] ∧ part3.ctl.drain = none ∧
    part3.roster.build = none ∧ part3.roster.trig = false ∧ (∀ u < 4, part3.run u = false) ∧
    (∀ k < 12, part3.engBusy k = false) ∧ run3.ctl.drain = none ∧ run3.roster.build = none ∧
    ((run3.upCtl fun c => { c with drain := some 2 }).ctl.drain = some 2) := by and_intros <;> decide +kernel

/-- A command that a port holds alone is in its turn. -/
theorem test_turnIs (s : State) (op : Nat) (args : List Byte) :
    (s.upCtl fun c => { c with order := [.control], control := some { op := op, tag := 9, args := args } }).turnIs op args
      (some .control) := ⟨rfl, 9, rfl⟩

/-! ## Hypotheses of the statements about ports, management and boot -/

/-- The module with its rails up, whose control port holds a command, begun or with a result. -/
def powered : State := on.upPins fun p => { p with rails := 5, pwrGood := true }
def holds (op : Nat) (args : List Byte) (r : Option Nat) : State :=
  powered.upCtl fun c => { c with order := [.control], control := some { op := op, tag := 9, args := args, result := r } }

theorem test_hyps_TheControlPortTakesAnswersAndReports :
    powered.barUp = true ∧ powered.rd F.CP_MB_STATUS_BUSY = 0 ∧
    (powered.wr F.CP_MB_STATUS_BUSY 1).rd F.CP_MB_STATUS_BUSY = 1 ∧ State.reset.barUp = false ∧ powered.mgmtUp = true ∧
    powered.ctl.mgmt = none ∧ (powered.upCtl fun c => { c with mgmt := some { op := 1, tag := 9, args := [] } }).ctl.mgmt ≠ none ∧
    (holds 3 [] (some 0)).heldOn .control = some { op := 3, tag := 9, args := [], result := some 0 } ∧
    (holds 3 [] (some 0)).ctl.resetReq = false ∧ (holds 3 [] none).heldOn .control = some { op := 3, tag := 9, args := [] } ∧
    (holds 3 [] none).ctl.order = [.control] ∧ relayedOp 3 = true ∧ (holds 3 [] none).rd F.FT_STATE_OUT = 0 ∧
    powered.powered = true ∧ State.reset.powered = false ∧
    (holds 1 [] none).heldOn .control = some { op := 1, tag := (9 : BitVec 16).toNat, args := [] } ∧
    powered.heldOn .control = none ∧ powered.ctl.d3hot = false ∧ powered.pins.pwrGood = true ∧ State.reset.pins.pwrGood = false := by and_intros <;> decide +kernel

theorem test_hyps_RelayedCommandsActAndAnswer :
    let ing := part3.upBoot fun b => { b with ingest := [3000], dstMap := [(11, 2 ^ 3000)] }
    let mixed := (part3.upCtl fun c => { c with images := [{ image3 15 with model := 6 }] })
    let full := part3.upFault fun f => { f with reqs := List.replicate 8 ⟨0, 6, false, 3⟩ }
    part3.modState ∈ [2, 3, 4] ∧ part3.ctl.load = none ∧ part3.partEn 3 = true ∧ part3.switching 3 = false ∧
    part3.client 3 = 1 ∧ part3.run 3 = false ∧ ing.boot.ingest.contains 3000 = true ∧ ing.fetchPorts 3000 = [11] ∧
    part3.boot.ingest.contains 3000 = false ∧ State.reset.modState ∉ [2, 3, 4] ∧ part3.image 3 15 = some (image3 15) ∧
    (image3 15).tables = [] ∧ part3.curImage 3 = some (image3 1) ∧ part3.resumable 3 = false ∧
    part3.rd F.FT_FENCE_GEN_GEN = (image3 1).gen ∧ part3.startRoast (image3 1) = 0 ∧ (image3 1).tiles = [5] ∧
    (image3 1).entries = [(0, 5, 0x400)] ∧ part3.tstate 5 ∉ [1, 4] ∧ part3.clockRuns = true ∧ part3.inCrossing 5 = false ∧
    part3.rd F.T_CODE_STAMP_STAMP 5 = part3.stepid ∧ on.curImage 3 = none ∧ run3.modState ∈ [3, 4] ∧ run3.run 3 = true ∧
    run3.switching 3 = false ∧ run3.placed 3 = [5] ∧ run3.tstate 5 = 1 ∧ run3.inCrossing 5 = false ∧
    State.reset.modState ∉ [3, 4] ∧ (∀ u < 4, run3.switching u = false) ∧ (3071 : BitVec 16).toNat < 3072 ∧
    3072 ≤ (3072 : BitVec 16).toNat ∧ run3.tstate 3071 ≠ 1 ∧ part3.isFenced 0 3071 = false ∧
    (part3.wr F.T_STATUS_STATE 4 3071).isFenced 0 3071 = true ∧ part3.fault.reqs.length + 0 < 8 ∧
    8 ≤ full.fault.reqs.length ∧ part3.fault.active = none ∧ run3.rd F.T_HALT_VALID 5 = 0 ∧ on.modState = 2 ∧ on.ctl.images = [] ∧
    (∀ u < 4, on.switching u = false) ∧ partsBad [0x3B0, 0, 0, 0] [0x6000000, 0, 0, 0] = none ∧ on.partsMixed [0x3B0, 0, 0, 0] = false ∧
    mixed.partsMixed [0x1FB0, 0, 0, 0] = true ∧ partsBad [0x1FB0, 0, 0, 0] [0, 0, 0, 0] = none ∧ State.reset.modState ∉ [2, 3] := by and_intros <;> decide +kernel

/-- An object area that begins at 0x100000 and holds 1 MiB. -/
theorem test_hyps_RelayedCommandsActAndAnswer_area (h : Config.objectArea = (0x100000, 0x100000)) (hb : part3.objectBase = 0x100000) :
    part3.objectBase + (0x100000 : BitVec 32).toNat ≤ Config.objectArea.1 + Config.objectArea.2 := by
  rw [h, hb]; decide

/-- The standby rail up and the pilot running; a command of the management port. -/
def managed (st : PState) (op : Nat) (args : List Byte) (left : Nat) : State :=
  (powered.upPower fun p => { p with state := st }).upCtl fun c => { c with mgmt := some { op := op, tag := 9, args := args, left := left } }

/-- The arguments of SET_POWER: a limit of 550 W and a grant of 300 W, the least there are. -/
def setArgs (fl : Nat) : List Byte := leBytes fl 1 ++ leBytes 0 1 ++ leBytes 550 2 ++ leBytes 300 2 ++ leBytes 0 2

/-- Limits at both ends, grants at both ends; power off and on; the reset asked for; DROWSE and WAKE; slot B staged and
activated. -/
theorem test_hyps_ThePilotSetsPowerSleepsAndStages :
    let up := (powered.upPower fun p => { p with state := .idle })
    let off := managed .off 0x20 (setArgs 8) 8 |>.upCtl fun c => { c with base := 0 }
    let turn := fun (op : Nat) (s : State) => s.upCtl fun c => { c with order := [.control], control := some { op := op, tag := 9, args := [] } }
    let asleep := up.upCtl fun c => { c with base := 7 }
    let same := asleep.upBoot fun b => { b with fwHash := asleep.sramHash }
    let rs := holds 0x21 (leBytes 0 8) none
    let rq := powered.upCtl fun c => { c with resetReq := true, mgmt := some { op := 0x21, tag := 9, args := leBytes 0 8, result := some 0 } }
    let stage := managed .active 0x22 (stageArgs 1 1 0 [7]) 0
    let act := (managed .active 0x23 (leBytes 1 8) 0).upBoot fun b => { b with slotSt := (4, 2), booted := some 0 }
    (∀ fl ∈ [1, 2, 4, 8], (managed .idle 0x20 (setArgs fl) fl).ctl.mgmt = some { op := 0x20, tag := 9, args := setArgs fl, left := fl }) ∧
    550 ≤ (550 : BitVec 16).toNat ∧ (700 : BitVec 16).toNat ≤ 700 ∧ (549 : BitVec 16).toNat < 550 ∧ 700 < (701 : BitVec 16).toNat ∧
    powered.ctl.mgmt = none ∧ powered.limitNow = 700 ∧ 300 ≤ (300 : BitVec 16).toNat ∧ (700 : BitVec 16).toNat ≤ powered.limitNow ∧
    (299 : BitVec 16).toNat < 300 ∧ powered.limitNow < (701 : BitVec 16).toNat ∧ powered.powered = true ∧ powered.modState ≠ 0 ∧
    off.modState = 0 ∧ off.ctl.base = 0 ∧ off.ctl.faulted = false ∧ off.pins.railFault = false ∧ off.pins.thermTrip = false ∧
    off.pins.swClosed = true ∧ rs.heldOn .control = some { op := 0x21, tag := 9, args := leBytes 0 8 } ∧
    (rs.upPins fun p => { p with thermTrip := true }).pins.thermTrip = true ∧ rs.pins.thermTrip = false ∧
    rq.ctl.resetReq = true ∧ rq.ctl.mgmt = some { op := 0x21, tag := 9, args := leBytes 0 8, result := some 0 } ∧
    up.mayDrowse = true ∧ up.power.state = .idle ∧ up.cache = [] ∧ (∀ u < 24, (up.quay u).wab = [] ∧ (up.quay u).reserved = [] ∧ (up.quay u).resWait = [] ∧ (up.quay u).grads = [] ∧ (up.quay u).reads = []) ∧
    State.reset.mayDrowse = false ∧ asleep.ctl.base = 7 ∧ asleep.ctl.faulted = false ∧ asleep.ctl.updating = false ∧
    asleep.ctl.drain = none ∧ asleep.ctl.switch = none ∧ same.boot.entropy = true ∧ (∀ u < 4, same.run u = false) ∧
    up.ctl.base ≠ 7 ∧ (turn 0x24 up).ctl.order = [.control] ∧ (turn 0x25 asleep).ctl.order = [.control] ∧
    stage.ctl.mgmt = some { op := 0x22, tag := 9, args := stageArgs 1 1 0 [7] } ∧ stage.modState = 2 ∧
    stage.boot.booted ≠ some 1 ∧ [(7 : Byte)].length ≤ 4096 ∧ act.ctl.mgmt = some { op := 0x23, tag := 9, args := leBytes 1 8 } ∧
    act.modState = 2 ∧ act.boot.booted ≠ some 1 ∧ act.ctl.control = none ∧ slotOf act.boot.slotSt 1 = 2 := by
  and_intros <;> decide +kernel

/-- The firmware in the landing SRAM as it was hashed at start-up, and not (R482): nothing hashed against another value. -/
theorem test_hyps_ThePilotSetsPowerSleepsAndStages_hash :
    let asleep := powered.upCtl fun c => { c with base := 7 }
    let same := asleep.upBoot fun b => { b with fwHash := asleep.sramHash }
    same.sramHash = same.boot.fwHash ∧ asleep.sramHash ≠ asleep.boot.fwHash := by
  and_intros <;> decide +kernel

/-- A boot from reset with slot A valid or on trial, its check of an erased slot (FORMAT, 0x02), the supervisor's word,
the management endpoint, and an SPDM connection at each of its states. -/
theorem test_hyps_TheModuleBootsAndTheEndpointAnswers :
    let r := State.reset
    let trial := fun (k : Nat) => r.upBoot fun b => { b with slotSt := (4, 3), next := 1, tries := k }
    let four := r.upBoot fun b => { b with booted := some 0, step := 4, slotSt := (4, 4) }
    let eight := fun (st : Nat × Nat) => r.upBoot fun b => { b with booted := some 0, step := 8, slotSt := st, quayUp := List.range 24 }
    r.bootable = true ∧ (r.upBoot fun b => { b with failed := some 3 }).bootable = false ∧ r.boot.ownerGen = r.boot.counters.2.2 ∧
    (r.upBoot fun b => { b with ownerGen := 1 }).boot.ownerGen ≠ (r.upBoot fun b => { b with ownerGen := 1 }).boot.counters.2.2 ∧
    r.boot.next = 0 ∧ slotOf r.boot.slotSt 0 = 4 ∧ (∀ k ≤ 3, (trial k).bootable = true ∧ (trial k).boot.next = 1 ∧
      (trial k).boot.ownerGen = (trial k).boot.counters.2.2 ∧
      slotOf (trial k).boot.slotSt 1 = 3 ∧ (trial k).boot.tries = k ∧ slotOf (trial k).boot.slotSt (1 - 1) = 4) ∧
    four.boot.booted = some 0 ∧ four.boot.step = 4 ∧ four.boot.verifyFrom2 0 ≠ 0 ∧ slotOf four.boot.slotSt 0 ≠ 3 ∧
    slotOf four.boot.slotSt (1 - 0) = 4 ∧ four.boot.entropy = true ∧
    (∀ st ∈ [(4, 0), (3, 4)], (eight st).boot.booted = some 0 ∧ (eight st).boot.step = 8 ∧ (eight st).boot.failed = none ∧
      (eight st).ctl.base = 1 ∧ (eight st).ctl.faulted = false ∧ (eight st).ctl.updating = false ∧ (eight st).ctl.drain = none ∧
      (eight st).ctl.switch = none ∧ (∀ u < 4, (eight st).run u = false) ∧ ∀ q < 24, q ∈ (eight st).boot.quayUp) ∧
    slotOf (eight (4, 0)).boot.slotSt 0 ≠ 3 ∧ slotOf (eight (3, 4)).boot.slotSt 0 = 3 ∧ r.power.state ≠ .starting ∧ r.boot.step ≠ 8 ∧ r.pins.bus ≠ some false ∧
    (r.upPins fun p => { p with bus := some false }).mgmtUp = true ∧ r.mgmtUp = true ∧
    (0 : BitVec 8).toNat ∈ [0, 255] ∧ (255 : BitVec 8).toNat ∈ [0, 255] ∧ (254 : BitVec 8).toNat ∉ [0, 255] := by
  and_intros <;> decide +kernel

/-- An SPDM connection over MCTP at each of its states, with a request of each kind. -/
theorem test_hyps_TheModuleBootsAndTheEndpointAnswers_spdm :
    let spdm := fun (k : Nat) => powered.upBoot (fun b => { b with booted := some 0, step := 9 }) |>.upCtl fun c => { c with spdm := [(0, k)] }
    let alg := [0x12, 0xE3, 0, 0, 36, 0, 1, 0] ++ leBytes 0x10 4 ++ leBytes 1 4 ++ leBytes 0 16
    (∀ k < 4, (spdm k).spdmUp false = true ∧ (spdm k).spdmAt false = k ∧ (spdm k).boot.failed = none ∧ 5 ≤ (spdm k).boot.step) ∧
    State.reset.spdmUp true = false ∧ powered.spdmUp true = true ∧ byteAt alg 0 = 0x12 ∧ byteAt alg 1 = 0xE3 ∧
    (leAt alg 8 4).testBit 4 = true ∧ (leAt alg 12 4).testBit 0 = true ∧
    (∀ m ∈ [0xE1, 0xE3, 0x81, 0x82, 0x83, 0xE0], byteAt [0x12, m, 0, 0xFF, 0, 0, 0, 0] 0 = 0x12 ∧
      byteAt [0x12, m, 0, 0xFF, 0, 0, 0, 0] 1 = m ∧ byteAt [0x12, m, 0, 0xFF, 0, 0, 0, 0] 2 % 16 = 0 ∧
      (byteAt [0x12, m, 0, 0xFF, 0, 0, 0, 0] 2).testBit 0 = false ∧ byteAt [0x12, m, 0, 0xFF, 0, 0, 0, 0] 3 = 0xFF) ∧
    byteAt [0x10, 0x84, 0, 0] 0 = 0x10 ∧ byteAt [0x10, 0x84, 0, 0] 1 = 0x84 ∧ byteAt [0x12, 0x83, 0, 0] 3 = 0 := by
  and_intros <;> decide +kernel

/-- The certificate chain of any length that has a byte: offset 0 lies inside it. -/
theorem test_hyps_TheModuleBootsAndTheEndpointAnswers_chain (h : 0 < Config.certLen) :
    leAt [0x12, 0x82, 0, 0xFF, 0, 0, 0, 0] 4 2 < Config.certLen := by
  have e : leAt [0x12, 0x82, 0, 0xFF, 0, 0, 0, 0] 4 2 = 0 := by decide
  rw [e]; exact h

/-- Fence requests in their queue and in hand, a corrected-error window at and below its limit, a lease free, held and
run out. -/
theorem test_hyps_UnitsAreFencedReclaimedAndLeased :
    let req := fun (k u : Nat) (un : Bool) => on.upFault fun f => { f with reqs := [⟨k, u, un, 3⟩] }
    let sup := on.wr F.L_STATUS_SUPER 1 15
    let held := fun (m : Nat) => ((sup.wr F.FT_LEASE_STATE_HELD 1 0 31).wr F.FT_LEASE_STATE_HOLDER 15 0 31).wr F.FT_LEASE_STATE_REMAIN m 0 31
    let corr := (on.wr F.FT_CORR_LIMIT_COUNT 2).upFault fun f => { f with corr := [(4097, 2)] }
    (req 0 3071 false).fault.reqs = [⟨0, 3071, false, 3⟩] ∧ (req 0 3071 false).fault.active = none ∧ ((req 0 3071 false).tile 3071).creds = [] ∧
    (req 1 15 false).fault.reqs = [⟨1, 15, false, 3⟩] ∧ (req 0 0 true).fault.reqs = [⟨0, 0, true, 3⟩] ∧ (3 : Nat) ≠ 1 ∧
    (req 0 3071 false).rd F.T_HALT_VALID 3071 = 0 ∧ on.fault.active = none ∧
    ((on.upFault fun f => { f with active := some ⟨0, 3071, false, 3⟩ }).fault.active = some ⟨0, 3071, false, 3⟩) ∧
    (let w := on.upHub fun h => { h with waits := [⟨1, 15, 3, 9, 0, 0, false, 0, false⟩] }
     ∀ x ∈ w.hub.waits, x.cls < 2 ∧ x.op = 3) ∧
    corr.fault.corr = [(4097, 2)] ∧ corr.rd F.FT_CORR_LIMIT_COUNT = 2 ∧ on.rd F.FT_CORR_LIMIT_COUNT ≠ 1 ∧
    sup.rd F.L_STATUS_SUPER 15 = 1 ∧ sup.coreReady 15 = true ∧ (on.wr F.L_STATUS_SUPER 0 15).rd F.L_STATUS_SUPER 15 = 0 ∧ (on.wr F.L_STATUS_SUPER 0 15).coreReady 15 = true ∧
    sup.rd F.FT_LEASE_STATE_HELD 0 31 = 0 ∧ 1 ≤ (1 : BitVec 20).toNat ∧ (1000000 : BitVec 20).toNat ≤ 1000000 ∧
    (held 5).rd F.FT_LEASE_STATE_HELD 0 31 = 1 ∧ (held 5).rd F.FT_LEASE_STATE_HOLDER 0 31 = 15 ∧
    (held 0).rd F.FT_LEASE_STATE_REMAIN 0 31 = 0 ∧ (held 5).rd F.FT_LEASE_STATE_REMAIN 0 31 ≠ 0 ∧
    (held 5).rd F.FT_LEASE_STATE_HOLDER 0 31 ≠ 0 := by and_intros <;> decide +kernel

/-- The machine after reset, the running tile, and the step that the empty queue takes. -/
theorem test_hyps_EveryStepKeepsTheCanonicalForm : State.reset.wf = true ∧ live.wf = true ∧ (∃ n, step State.reset = .next n) := by
  and_intros <;> first | decide +kernel | exact ⟨_, rfl⟩

/-! ## The checks of WellFormed

For each check commands that it refuses, and the sizes at its ends that it lets through. -/

theorem test_wf_credited_write : (∀ d ∈ [0, 31, 33, 63, 65], (Instr.creditedWrite 0 0 0 0 0 (List.replicate d 0) false).wf = false) ∧
    ∀ d ∈ [32, 64], (Instr.creditedWrite 0 0 0 0 0 (List.replicate d 0) false).wf = true := by decide

theorem test_wf_task_window_access : (∀ n ∈ [0, 3, 128], (Instr.taskWindowAccess 0 (.super 0) 0 n none .ok).wf = false) ∧
    (Instr.taskWindowAccess 0 (.super 0) 0 4 (some [1, 2]) .ok).wf = false ∧
    (Instr.taskWindowAccess 0 (.super 0) 0 1 (some [1]) .ok).wf = true := by decide

theorem test_wf_landing_access : (Instr.landingAccess .debug 0 8 .read [] .ok).wf = false ∧
    (Instr.landingAccess .host 0 8 .read [] .ok).wf = false ∧ (Instr.landingAccess (.super 0) 0 5 .read [] .ok).wf = false ∧
    (Instr.landingAccess (.super 0) 0 8 .write [1] .ok).wf = false ∧ (Instr.landingAccess (.task 15 63) 0 64 .read [] .ok).wf = true := by
  decide

theorem test_wf_credit_aperture_store : (∀ d ∈ [0, 3, 65], (Instr.creditApertureStore 0 0 (List.replicate d 0)).wf = false) ∧
    (Instr.creditApertureStore 0 0 (List.replicate 64 0)).wf = true := by decide

theorem test_wf_ring_request : (Instr.ringRequestArrive 0 ⟨0, true, [], 0, 0⟩).wf = false ∧
    (Instr.ringRequestArrive 0 ⟨0, true, List.replicate 65 0, 0, 0⟩).wf = false ∧ (Instr.ringRequestArrive 0 ⟨0, false, [], 0, 0⟩).wf = true := by
  decide

theorem test_wf_frames_and_acknowledges : (∀ d ∈ [0, 63, 65], (Instr.frameReceive 0 (List.replicate d 0)).wf = false) ∧
    (Instr.ackReceive 0 (List.replicate 63 0)).wf = false ∧ (Instr.ackReceive 0 (List.replicate 64 0)).wf = true ∧
    (Instr.frameReceive 0 (List.replicate 128 0)).wf = true := by decide

theorem test_wf_segments_and_fetched_data : (Instr.segmentReceive 0 []).wf = false ∧ (Instr.segmentReceive 0 (List.replicate 2033 0)).wf = false ∧
    (Instr.segmentReceive 0 (List.replicate 2032 0)).wf = true ∧ (Instr.fetchDataReceive 0 0 0 []).wf = false ∧
    (Instr.fetchDataReceive 0 0 0 [1]).wf = true := by and_intros <;> decide +kernel

theorem test_wf_control_port : (Instr.cpDoorbell .control (List.replicate 8193 0)).wf = false ∧
    (Instr.setPartitions [0, 0, 0] [0, 0, 0, 0]).wf = false ∧ (Instr.setPartitions [0, 0, 0, 0] []).wf = false ∧
    (Instr.stageImage 0 0 0 []).wf = false ∧ (Instr.stageImage 0 0 0 (List.replicate 4097 0)).wf = false ∧
    (Instr.stageImage 0 0 0 (List.replicate 4096 0)).wf = true := by and_intros <;> decide +kernel

theorem test_wf_links_and_cables : (∀ w ∈ [0, 3, 8], (Instr.controlPortLinkTrained w 1 false).wf = false) ∧
    (Instr.controlPortLinkTrained 4 0 false).wf = false ∧ (Instr.controlPortLinkTrained 4 7 false).wf = false ∧
    (Instr.controlPortLinkTrained 4 6 true).wf = true ∧ (Instr.regulatorAdmit 0 false 0).wf = false ∧
    (Instr.cableInsert 0 65536).wf = false ∧ (Instr.cableInsert 0 65535).wf = true := by decide

/-! ## Reset, the queue, and words -/

/-- No row of the table gives a command bits, so no word spells one. -/
theorem test_no_word_spells_a_command : decodeTableWord 32 0xFFFFFFFF = none ∧ (State.reset.withFetchWord 32 1).pending = [] := by decide

/-- Two commands wait: the first in is the first out. -/
theorem test_first_in_first_out :
    step { State.reset with pending := [.entropyHealthFail, .setdasa 5] } =
      .next { State.reset with boot := { State.reset.boot with entropy := false }, pending := [.setdasa 5] } := rfl

/-! ## The worked example of R252 -/

/-- From T(3, 5) to T(45, 30): 42 hops east and 25 north NEAR; FAR 5 east, express from 8 to 40, 5 east, 3 north, express
from 8 to 24, 6 north; each span exceeds 8, so AUTO goes FAR. -/
theorem test_routes_example :
    let far := List.replicate 5 3 ++ List.replicate 4 7 ++ List.replicate 5 3 ++ List.replicate 3 1 ++ List.replicate 2 5 ++ List.replicate 6 1
    routeMoves 1 (64 * 5 + 3) (64 * 30 + 45) = List.replicate 42 3 ++ List.replicate 25 1 ∧
    routeMoves 2 (64 * 5 + 3) (64 * 30 + 45) = far ∧ routeMoves 0 (64 * 5 + 3) (64 * 30 + 45) = far := by decide +kernel

/-! ## An image that verifies

The statement about IMAGE_STREAM_COMPLETE has a case for an image whose every check passes. Its digests are SHA-256 of
65,536 bytes and more, so this witness is proved about the image, not evaluated: the least image there is, of
65,536 bytes of firmware and 8,192 of configuration. -/

/-- A digest has 32 bytes. -/
theorem sha256_length (m : List Byte) : (sha256 m).length = 32 := by simp [sha256, beBytes, leBytes]

/-- A list of bytes stored from an address. -/
def storedAt (b : Nat) : List Byte → List Host.Cell
  | [] => []
  | x :: l => (b, x) :: storedAt (b + 1) l

theorem aget_storedAt (d : Byte) (l : List Byte) (b j : Nat) (h : j < l.length) : aget d (storedAt b l) (b + j) = l.getD j 0 := by
  induction l generalizing b j with
  | nil => exact absurd h (Nat.not_lt_zero _)
  | cons x l ih =>
    cases j with
    | zero => simp [storedAt, aget]
    | succ j =>
      have e : b + (j + 1) = b + 1 + j := by omega
      simp only [storedAt, aget, show ¬ b + (j + 1) = b by omega, if_false, List.getD_cons_succ]
      rw [e]
      exact ih _ _ (by simpa using h)

theorem map_getD_take (l : List Byte) (o n : Nat) (h : o + n ≤ l.length) :
    (List.range n).map (fun i => l.getD (o + i) 0) = (l.drop o).take n := by
  refine List.ext_getElem (by simp; omega) fun i h1 h2 => ?_
  simp at h1
  simp [List.getD_eq_getElem?_getD, show o + i < l.length by omega]

/-- A flash whose slot A holds a list of bytes. -/
theorem fbytes_stored (b : BootX) (l : List Byte) (o n : Nat) (hb : b.flash = storedAt (slotAt 0) l) (h : o + n ≤ l.length) :
    b.fbytes 0 o n = (l.drop o).take n := by
  rw [← map_getD_take l o n h]
  refine List.map_congr_left fun i hi => ?_
  have hi := List.mem_range.1 hi
  unfold BootX.fbyte
  rw [hb, Nat.add_assoc, aget_storedAt _ _ _ _ (by omega)]

theorem take_drop_append (a b : List Byte) (k n : Nat) (h : a.length = k) (o : Nat) : ((a ++ b).drop (k + o)).take n = (b.drop o).take n := by
  rw [← h, List.drop_append, List.drop_eq_nil_of_le (by omega)]; simp

theorem take_head (a b : List Byte) (n : Nat) (h : a.length = n) : ((a ++ b).drop 0).take n = a := by
  rw [← h]; simp

/-- The firmware and the configuration: no ingest endpoint, no port in use, one module of identity 0. -/
def fwImg : List Byte := List.replicate 65536 0xFF
def cfgImg : List Byte :=
  leBytes 1 8 ++ leBytes 1 2 ++ List.replicate (0x1840 + 36 - 10) 0 ++ List.replicate 24 0xFF ++ List.replicate (8192 - 0x1840 - 60) 0

/-- The header's fields around its digests. -/
def headA : List Byte := leBytes 0x49545242 4 ++ leBytes 0x0100 2 ++ leBytes 0 2 ++ leBytes 0 4 ++ leBytes 65536 4
def headB : List Byte := leBytes 0 4 ++ leBytes 8192 4 ++ leBytes 0 8
def img : List Byte := headA ++ (sha256 fwImg ++ (headB ++ (sha256 cfgImg ++ (List.replicate 4000 0 ++ (fwImg ++ cfgImg)))))

theorem cfgImg_length : cfgImg.length = 8192 := by decide +kernel
theorem fwImg_length : fwImg.length = 65536 := List.length_replicate ..
theorem headA_length : headA.length = 16 := rfl
theorem headB_length : headB.length = 16 := rfl
theorem img_length : img.length = 0x1000 + 65536 + 8192 := by
  simp only [img, List.length_append, headA_length, headB_length, sha256_length, List.length_replicate, fwImg_length, cfgImg_length]

theorem img_headA (o n : Nat) (h : o + n ≤ 16) : (img.drop o).take n = (headA.drop o).take n := by
  unfold img
  rw [List.drop_append_of_le_length (by rw [headA_length]; omega),
    List.take_append_of_le_length (by rw [List.length_drop, headA_length]; omega)]
theorem img_digest : (img.drop 0x10).take 32 = sha256 fwImg := by
  unfold img
  rw [show 0x10 = 16 + 0 from rfl, take_drop_append _ _ 16 _ headA_length, take_head _ _ _ (sha256_length _)]
theorem img_headB (o n : Nat) (h : o + n ≤ 16) : (img.drop (0x30 + o)).take n = (headB.drop o).take n := by
  unfold img
  rw [show 0x30 + o = 16 + (32 + o) by omega, take_drop_append _ _ 16 _ headA_length, take_drop_append _ _ 32 _ (sha256_length _),
    List.drop_append_of_le_length (by rw [headB_length]; omega),
    List.take_append_of_le_length (by rw [List.length_drop, headB_length]; omega)]
theorem img_cfgDigest : (img.drop 0x40).take 32 = sha256 cfgImg := by
  unfold img
  rw [show 0x40 = 16 + (32 + (16 + 0)) from rfl, take_drop_append _ _ 16 _ headA_length, take_drop_append _ _ 32 _ (sha256_length _),
    take_drop_append _ _ 16 _ headB_length, take_head _ _ _ (sha256_length _)]
theorem img_tail (o n : Nat) : (img.drop (0x60 + o)).take n = ((List.replicate 4000 0 ++ (fwImg ++ cfgImg)).drop o).take n := by
  unfold img
  rw [show 0x60 + o = 16 + (32 + (16 + (32 + o))) by omega, take_drop_append _ _ 16 _ headA_length,
    take_drop_append _ _ 32 _ (sha256_length _), take_drop_append _ _ 16 _ headB_length, take_drop_append _ _ 32 _ (sha256_length _)]
theorem img_zeros : (img.drop 0x160).take 3744 = List.replicate 3744 0 := by
  rw [show 0x160 = 0x60 + 256 from rfl, img_tail, List.drop_append_of_le_length (by rw [List.length_replicate]; omega),
    List.take_append_of_le_length (by rw [List.length_drop, List.length_replicate] <;> omega), List.drop_replicate, List.take_replicate, Nat.min_def]; rfl
theorem img_fw : (img.drop 0x1000).take 65536 = fwImg := by
  rw [show 0x1000 = 0x60 + (4000 + 0) from rfl, img_tail, take_drop_append _ _ 4000 _ (List.length_replicate ..),
    take_head _ _ _ fwImg_length]
theorem img_cfg : (img.drop (0x1000 + 65536)).take 8192 = cfgImg := by
  rw [show 0x1000 + 65536 = 0x60 + (4000 + (65536 + 0)) from rfl, img_tail, take_drop_append _ _ 4000 _ (List.length_replicate ..),
    take_drop_append _ _ 65536 _ fwImg_length, List.drop_zero, ← cfgImg_length, List.take_length]

/-- The boot state in which slot A holds that image. -/
def goodBoot : BootX := { booted := some 0, step := 4, flash := storedAt (slotAt 0) img }

theorem goodBoot_bytes (o n : Nat) (h : o + n ≤ 0x1000 + 65536 + 8192) : goodBoot.fbytes 0 o n = (img.drop o).take n :=
  fbytes_stored _ _ _ _ rfl (by rw [img_length]; exact h)

theorem goodBoot_fwLen : goodBoot.fwLenOf 0 = 65536 := by
  unfold BootX.fwLenOf BootX.hdr
  rw [goodBoot_bytes _ _ (by omega), img_headA _ _ (by omega)]; decide +kernel
theorem goodBoot_cfgLen : goodBoot.cfgLenOf 0 = 8192 := by
  unfold BootX.cfgLenOf BootX.hdr
  rw [goodBoot_bytes _ _ (by omega), show 0x034 = 0x30 + 4 from rfl, img_headB _ _ (by omega)]; decide +kernel
theorem goodBoot_fwPart : goodBoot.fwPart 0 = fwImg := by
  unfold BootX.fwPart
  rw [goodBoot_fwLen, goodBoot_bytes _ _ (by omega), img_fw]
theorem goodBoot_cfgPart : goodBoot.cfgPart 0 = cfgImg := by
  unfold BootX.cfgPart
  rw [goodBoot_fwLen, goodBoot_cfgLen, goodBoot_bytes _ _ (by omega), img_cfg]

theorem goodBoot_hdrA (o n v : Nat) (h : o + n ≤ 16) (e : leVal ((headA.drop o).take n) = v) : goodBoot.hdr 0 o n = v := by
  unfold BootX.hdr
  rw [goodBoot_bytes _ _ (by omega), img_headA _ _ h, e]
theorem goodBoot_hdrB (o n v : Nat) (h : o + n ≤ 16) (e : leVal ((headB.drop o).take n) = v) : goodBoot.hdr 0 (0x30 + o) n = v := by
  unfold BootX.hdr
  rw [goodBoot_bytes _ _ (by omega), img_headB _ _ h, e]

theorem goodBoot_format : goodBoot.formatBad 0 = false := by
  have z : goodBoot.fbytes 0 0x160 3744 = List.replicate 3744 0 := by rw [goodBoot_bytes _ _ (by omega), img_zeros]
  unfold BootX.formatBad BootX.imageLen
  simp only [goodBoot_fwLen, goodBoot_cfgLen, z, goodBoot_hdrA 0 4 0x49545242 (by omega) (by decide +kernel),
    goodBoot_hdrA 4 2 0x0100 (by omega) (by decide +kernel), goodBoot_hdrA 6 2 0 (by omega) (by decide +kernel),
    goodBoot_hdrB 8 8 0 (by omega) (by decide +kernel), slotSize]
  decide +kernel

/-- Every check passes where the signatures do. -/
theorem goodBoot_verifies (hr : ∀ d g, Config.romKeyOk 1 d g = true) (he : ∀ k d g, Config.ecdsaOk k d g = true) :
    goodBoot.verifyFrom2 0 = 0 := by
  have d1 : goodBoot.fbytes 0 0x010 32 = sha256 fwImg := by rw [goodBoot_bytes _ _ (by omega), img_digest]
  have d2 : goodBoot.fbytes 0 0x040 32 = sha256 cfgImg := by rw [goodBoot_bytes _ _ (by omega), img_cfgDigest]
  have c : cfgBad cfgImg = false := by decide +kernel
  unfold BootX.verifyFrom2
  have o : goodBoot.ownerKey = 0 := rfl
  have v : goodBoot.counters = (0, 0, 0) := rfl
  simp only [goodBoot_format, goodBoot_fwPart, goodBoot_cfgPart, d1, d2, hr, he, c, o, v]
  simp

/-- Hypotheses of TheModuleBootsAndTheEndpointAnswers about an image that verifies, for a module of identity 0. -/
theorem test_hyps_TheModuleBootsAndTheEndpointAnswers_image (hr : ∀ d g, Config.romKeyOk 1 d g = true)
    (he : ∀ k d g, Config.ecdsaOk k d g = true) (hi : Config.identityHash = 0) :
    goodBoot.booted = some 0 ∧ goodBoot.step = 4 ∧ goodBoot.verifyFrom2 0 = 0 ∧ goodBoot.entropy = true ∧
    ((modEntries (goodBoot.cfgPart 0)).find? fun e => beVal (e.take 32) == Config.identityHash.toNat) =
      some ((cfgImg.drop 0x1840).take 64) := by
  rw [goodBoot_cfgPart, hi]
  exact ⟨rfl, rfl, goodBoot_verifies hr he, rfl, by decide +kernel⟩

/-- The first example of FIPS 180-4's test values, the message abc. -/
theorem test_sha256_abc : beVal (sha256 [0x61, 0x62, 0x63]) =
    0xba7816bf8f01cfea414140de5dae2223b00361a396177a9cb410ff61f20015ad := by decide +kernel

/-- A table of two partitions, each with half the roast columns and half of GDDR7, and two unused ones. -/
theorem test_hyps_RelayedCommandsActAndAnswer_partitions :
    let a : List (BitVec 64) := [0x350, 0x5B6, 0, 0]
    let m : List (BitVec 64) := [0xC00000 * 2 ^ 25, 0xC00000 + 0xC00000 * 2 ^ 25, 0, 0]
    on.modState = 2 ∧ on.ctl.images = [] ∧ a.length = 4 ∧ m.length = 4 ∧ State.reset.modState ∉ [2, 3] ∧
    partsBad (a.map BitVec.toNat) (m.map BitVec.toNat) = none := by and_intros <;> decide +kernel

end Sys2Proof.Machine.Test
end

section
/-! # Every command keeps the canonical form, the queue and the stepping

`State.Keeps s₀ s` says what every step keeps. Below it stands one lemma for each operation of the model, under the
operation's own name and in the order of the model's files: from a state that keeps it, the operation's result keeps it
too. Each proof follows its operation's definition, one step of the proof for each step of the definition; where a
definition uses a state more than once, the proof names what it keeps with `have`. -/

-- One lemma is checked after the other, so that the memory that checking takes stays bounded.
set_option Elab.async false

namespace Sys2Proof.Machine

/-- A state reached from another without harm to what every step keeps: memory and register file stay in canonical
form, and the commands that wait and the stepping are the same. -/
structure State.Keeps (s₀ s : State) : Prop where
  memory : Memory.wf s₀ = true → Memory.wf s = true
  regs : Regs.wf s₀ = true → Regs.wf s = true
  queue : s.pending = s₀.pending
  die : s.stepping = s₀.stepping

/-- The state that a part of the matrix unit's work leaves, whether a case stopped it or not. -/
def MRes.state : MRes → State
  | .ok s => s
  | .error e => e.1

namespace State.Keeps

theorem refl (s : State) : s.Keeps s := ⟨id, id, rfl, rfl⟩

theorem wf {s₀ s : State} (h : s₀.Keeps s) (hw : s₀.wf = true) : s.wf = true := by
  simp only [State.wf, Bool.and_eq_true] at hw ⊢
  exact ⟨h.memory hw.1, h.regs hw.2⟩

variable {s₀ s : State} (h : s₀.Keeps s)
include h

/-- A change of neither the register file, memory, queue nor stepping. -/
theorem other {n : State} (hr : n.rf = s.rf := by rfl) (hm : n.mem = s.mem := by rfl)
    (hp : n.pending = s.pending := by rfl) (hd : n.stepping = s.stepping := by rfl) : s₀.Keeps n := by
  refine ⟨?_, ?_, hp.trans h.queue, hd.trans h.die⟩
  · simpa only [Memory.wf, hm] using h.memory
  · simpa only [Regs.wf, hr] using h.regs

theorem wr {f : Fld} {v u i : Nat} : s₀.Keeps (s.wr f v u i) :=
  ⟨h.memory, fun hw => Regs.wf_wr s f v u i (h.regs hw), h.queue, h.die⟩

theorem dropRf {p : Nat → Bool} : s₀.Keeps (s.dropRf p) :=
  ⟨h.memory, fun hw => Regs.wf_dropRf s p (h.regs hw), h.queue, h.die⟩

theorem setByte {a : Nat} {b : Byte} : s₀.Keeps (s.setByte a b) :=
  ⟨fun hw => Memory.wf_setByte s a b (h.memory hw), h.regs, h.queue, h.die⟩

theorem dropMem {p : Nat → Bool} : s₀.Keeps (s.dropMem p) :=
  ⟨fun hw => Memory.wf_dropMem s p (h.memory hw), h.regs, h.queue, h.die⟩

theorem setBytes {a : Nat} {l : List Byte} : s₀.Keeps (s.setBytes a l) := by
  induction l generalizing s a with
  | nil => exact h
  | cons b r ih => exact ih h.setByte

omit h in
theorem ite {c : Prop} {_ : Decidable c} {n m : State} (hn : s₀.Keeps n) (hm : s₀.Keeps m) :
    s₀.Keeps (if c then n else m) := by
  split <;> assumption

theorem foldl {β : Type} {f : State → β → State} {l : List β}
    (hf : ∀ {n : State} {b : β}, s₀.Keeps n → s₀.Keeps (f n b)) : s₀.Keeps (l.foldl f s) := by
  induction l generalizing s with
  | nil => exact h
  | cons b r ih => exact ih (hf h)

theorem setCores {l : List (Nat × CoreX)} : s₀.Keeps { s with cores := l } := h.other

theorem setTick {n : Nat} : s₀.Keeps { s with tick := n } := h.other

theorem setTc {n : Nat} : s₀.Keeps { s with tc := n } := h.other

theorem putRf {l : Cells} {k : Nat × Nat → Nat} :
    s₀.Keeps { s with rf := l.foldl (fun m e => aput 0 m (k e) e.2) s.rf } := by
  refine ⟨h.memory, fun hw => ?_, h.queue, h.die⟩
  have hr : awf 0 s.rf = true := h.regs hw
  clear h
  unfold Regs.wf
  dsimp only
  generalize s.rf = m at hr
  induction l generalizing m with
  | nil => exact hr
  | cons e r ih => exact ih _ (awf_aput _ _ _ _ hr)

theorem pair {α : Type} {a : α} : s₀.Keeps (s, a).1 := h

theorem done : s₀.Keeps (MRes.state (.ok s)) := h

theorem stopped {c : Case} : s₀.Keeps (MRes.state (.error (s, c))) := h

theorem foldlFst {α β : Type} {f : State × α → β → State × α} {a : α} {l : List β}
    (hf : ∀ {n : State} {a : α} {b : β}, s₀.Keeps n → s₀.Keeps (f (n, a) b).1) : s₀.Keeps (l.foldl f (s, a)).1 := by
  induction l generalizing s a with
  | nil => exact h
  | cons b r ih => exact ih (hf h)

omit h in
theorem iteFst {α : Type} {c : Prop} {_ : Decidable c} {n m : State × α} (hn : s₀.Keeps n.1) (hm : s₀.Keeps m.1) :
    s₀.Keeps (if c then n else m).1 := by
  split <;> assumption

omit h in
theorem iteRes {c : Prop} {_ : Decidable c} {n m : MRes} (hn : s₀.Keeps n.state) (hm : s₀.Keeps m.state) :
    s₀.Keeps (if c then n else m).state := by
  split <;> assumption

omit h in
theorem map {r : MRes} {f : State → State} (hr : s₀.Keeps r.state) (hf : ∀ {n}, s₀.Keeps n → s₀.Keeps (f n)) :
    s₀.Keeps (MRes.state (r.map f)) := by
  cases r with
  | ok s => exact hf hr
  | error e => exact hr

/-! ## Machine/Ops -/

theorem inc {f : Fld} {n u i : Nat} : s₀.Keeps (s.inc f n u i) := h.wr

theorem stn {a n v : Nat} : s₀.Keeps (s.stn a n v) := h.setBytes

theorem upTile {t : Nat} {f : TileX → TileX} : s₀.Keeps (s.upTile t f) := h.other

theorem mapTiles {f : Nat → TileX → TileX} : s₀.Keeps (s.mapTiles f) := h.other

theorem upQuay {q : Nat} {f : QuayX → QuayX} : s₀.Keeps (s.upQuay q f) := h.other

theorem upCore {c : Nat} {f : CoreX → CoreX} : s₀.Keeps (s.upCore c f) := h.other

theorem upEng {k : Nat} {f : EngX → EngX} : s₀.Keeps (s.upEng k f) := h.other

theorem upPort {k : Nat} {f : PortX → PortX} : s₀.Keeps (s.upPort k f) := h.other

theorem drawn : s₀.Keeps s.drawn := h.other

theorem upHub {f : Hub → Hub} : s₀.Keeps (s.upHub f) := h.other

theorem upFault {f : FaultX → FaultX} : s₀.Keeps (s.upFault f) := h.other

theorem upPins {f : Pins → Pins} : s₀.Keeps (s.upPins f) := h.other

theorem upPower {f : PowerX → PowerX} : s₀.Keeps (s.upPower f) := h.other

theorem upCtl {f : CtlX → CtlX} : s₀.Keeps (s.upCtl f) := h.other

theorem upBoot {f : BootX → BootX} : s₀.Keeps (s.upBoot f) := h.other

theorem upRos {f : Roster → Roster} : s₀.Keeps (s.upRos f) := h.other

theorem msix {v : Nat} : s₀.Keeps (s.msix v) := ite h.upCtl h.wr

theorem msixFlush : s₀.Keeps s.msixFlush := h.foldl fun h => ite h.wr.upCtl h

theorem cpEvent {n : Nat} : s₀.Keeps (s.cpEvent n) := ite h <| ite h.wr.msix h.wr

theorem alertSync : s₀.Keeps s.alertSync := by
  unfold State.alertSync; exact h.upPins

theorem logRec {e : Event} {actor : Nat} : s₀.Keeps (s.logRec e actor) := h.upFault.cpEvent.alertSync

theorem event {cls kind unit code data actor : Nat} : s₀.Keeps (s.event cls kind unit code data actor) :=
  have h1 := ite h.upFault h.inc.wr
  ite h1.logRec h1

theorem addIdle {t cause n : Nat} : s₀.Keeps (s.addIdle t cause n) := h.inc

theorem creditBar {t cause : Nat} : s₀.Keeps (s.creditBar t cause) := h.addIdle.wr

theorem markHalted {t : Nat} : s₀.Keeps (s.markHalted t) := h.wr

theorem returnToken {t : Nat} : s₀.Keeps (s.returnToken t) := ite h.wr.wr h

theorem tokenCheck {t : Nat} : s₀.Keeps (s.tokenCheck t) := ite h h.returnToken

theorem dropPosts {t : Nat} : s₀.Keeps (s.dropPosts t) := h.other

theorem dropWait {t : Nat} : s₀.Keeps (s.dropWait t) :=
  have h1 := ite h.upHub.dropPosts h.upHub
  h1.creditBar.upTile.tokenCheck

theorem haltFill {t reason slot addr detail aux : Nat} : s₀.Keeps (s.haltFill t reason slot addr detail aux) :=
  h.wr.wr.wr.wr.wr.wr.wr

theorem haltRecord {t reason slot addr detail aux : Nat} : s₀.Keeps (s.haltRecord t reason slot addr detail aux) :=
  ite (wr (ite h.haltFill h)) h.haltFill.markHalted.event

theorem halt {t reason slot addr detail aux : Nat} : s₀.Keeps (s.halt t reason slot addr detail aux) :=
  ite h.haltRecord h.haltRecord.dropWait.wr.upTile

theorem evlog {t code cls source : Nat} : s₀.Keeps (s.evlog t code cls source) := h.wr.wr.wr.wr.inc.inc

theorem eccNote {t off reader syn : Nat} {unc : Bool} : s₀.Keeps (s.eccNote t off reader syn unc) :=
  have h1 := ite h.inc h.inc
  ite h1.wr.wr.wr.wr.wr.upFault.event h1.wr.wr.wr.wr.wr.upFault.upTile

theorem readCheck {t : Nat} {l : List (Nat × Nat)} {reader : Nat} {ecc : Ecc} :
    s₀.Keeps (s.readCheck t l reader ecc).1 := by
  unfold State.readCheck
  split
  · exact h
  · exact iteFst h h.eccNote.pair
  · exact iteFst h h.eccNote.pair

/-! ## Machine/Scratch -/

theorem putSlip {t i c : Nat} {d : List Byte} : s₀.Keeps (s.putSlip t i c d) := h.foldl fun h => h.setByte

theorem headAdd {t i n : Nat} : s₀.Keeps (s.headAdd t i n) := h.inc

theorem credQueue {t slip bytes cls unit : Nat} : s₀.Keeps (s.credQueue t slip bytes cls unit) := h.upTile

theorem openCred {t c : Nat} {r : CredReq} : s₀.Keeps (s.openCred t c r) := by
  unfold State.openCred; exact h.wr.wr.wr.wr.wr.wr.wr.inc.inc.upTile

theorem freeCred {t c : Nat} : s₀.Keeps (s.freeCred t c) := h.wr.upTile

theorem credWrite {t c off : Nat} {d : List Byte} {last : Bool} : s₀.Keeps (s.credWrite t c off d last) :=
  ite h.putSlip.upTile.inc.wr h.putSlip.upTile.inc

theorem appendCreds {t slip n : Nat} : s₀.Keeps (s.appendCreds t slip n) := by
  induction n generalizing s with
  | zero => exact h
  | succ n ih =>
    unfold State.appendCreds
    split
    · exact ite (ih h.headAdd.wr.wr.freeCred) h
    · exact h

theorem releaseCred {t c st : Nat} : s₀.Keeps (s.releaseCred t c st) := h.wr.wr.wr.upTile.inc

theorem reclaimSlip {t slip cls unit : Nat} : s₀.Keeps (s.reclaimSlip t slip cls unit) := by
  unfold State.reclaimSlip
  dsimp only
  split
  · exact h
  · exact wr (h.foldl fun h => h.releaseCred)

theorem refuse {t who code : Nat} : s₀.Keeps (s.refuse t who code) := h.upTile

/-! ## Machine/Ctl -/

theorem cpFields : s₀.Keeps s.cpFields := wr (h.foldl fun h => h.wr.wr.wr)

theorem settle {old : State} : s₀.Keeps (s.settle old) :=
  have h1 := ite h.cpFields h.cpFields.upCtl
  ite h1 h1.cpEvent.alertSync

theorem setRun {p : Nat} {b : Bool} : s₀.Keeps (s.setRun p b) := h.wr

theorem setResumable {p : Nat} {b : Bool} : s₀.Keeps (s.setResumable p b) := h.wr

theorem gridStart : s₀.Keeps s.gridStart := ite h.upPower h

theorem matrixReset {p : Nat → Bool} : s₀.Keeps (s.matrixReset p) := h.dropRf

theorem clockBegin : s₀.Keeps s.clockBegin := by
  unfold State.clockBegin
  exact
    have h1 := h.dropRf.matrixReset.other.mapTiles.upHub
    h1.upPower

theorem clearHalt {t : Nat} : s₀.Keeps (s.clearHalt t) := h.foldl fun h => h.wr

theorem clearLoops {t : Nat} : s₀.Keeps (s.clearLoops t) := h.foldl fun h => h.wr.wr.wr.wr

theorem applyGo {t : Nat} : s₀.Keeps (s.applyGo t) :=
  ite h.clearHalt.clearLoops.wr.wr.upTile.halt h.clearHalt.clearLoops.wr.wr.upTile.wr

theorem applyResume {t : Nat} : s₀.Keeps (s.applyResume t) := h.clearHalt.wr.wr.upTile.wr

theorem go {t : Nat} : s₀.Keeps (s.go t) := ite h <| ite h <| ite h.upTile <| ite h.applyGo h.gridStart.upTile

theorem resume {t : Nat} : s₀.Keeps (s.resume t) := ite h <| ite h <| ite h.upTile h.applyResume

theorem stop {t : Nat} : s₀.Keeps (s.stop t) := ite h.halt h

theorem applyHeld {t : Nat} : s₀.Keeps (s.applyHeld t) := by
  unfold State.applyHeld
  split
  · exact ite h.upTile h.applyGo
  · exact ite h.applyResume h.upTile
  · exact h

/-! ## Machine/Flags -/

theorem setReg {t : Nat} {d : Dst} {v : Nat} : s₀.Keeps (s.setReg t d v) := by
  unfold State.setReg
  split
  · exact ite h h.wr
  · exact h.wr
  · exact ite h h.wr

theorem post {t lat : Nat} {d : Dst} {v : Nat} : s₀.Keeps (s.post t lat d v) := ite h h.upTile

/-! ## Machine/Tile -/

theorem caseHalt {t slot addr : Nat} {c : Case} : s₀.Keeps (s.caseHalt t slot addr c) := h.halt

theorem runCompute {s0 : State} {t addr : Nat} {o : SlotOp} : s₀.Keeps (s.runCompute s0 t addr o) := by
  unfold State.runCompute
  extract_lets nbits rnd s1 s2 s3
  have h1 : s₀.Keeps s1 := ite h h.inc.drawn
  have h2 : s₀.Keeps s2 := by
    dsimp only [s2]
    split
    · exact h1.caseHalt
    · exact h1.foldl fun h => h.post
  have h3 : s₀.Keeps s3 := by
    dsimp only [s3]
    split
    · exact ite h2 h2.inc
    · exact ite h2.wr h2
    · exact h2
  split
  · exact h3
  · split
    · exact h3.caseHalt
    · exact h3.setBytes

/-! ## Machine/Sync -/

theorem arrive {b cls : Nat} : s₀.Keeps (s.arrive b cls) := ite h <| ite h.wr.inc.upHub h.wr

theorem release {t : Nat} : s₀.Keeps (s.release t) := h.wr.applyHeld

theorem startRouter {c cause : Nat} {carry : Bool} {t : Nat} : s₀.Keeps (s.startRouter c cause carry t) :=
  ite (have h1 := h.wr.wr.wr.upTile.creditBar.upTile.wr.wr
     ite h1.wr.release h1.wr)
    h.wr.wr.wr.upTile

theorem openUse {part c : Nat} : s₀.Keeps (s.openUse part c) := ite h.upHub <| by
  split
  · exact h
  · exact h.upHub

theorem mapQuays {f : QuayX → QuayX} : s₀.Keeps (s.mapQuays f) := h.other

theorem mapEngs {f : EngX → EngX} : s₀.Keeps (s.mapEngs f) := h.other

theorem bindUses {part c : Nat} : s₀.Keeps (s.bindUses part c) := h.foldl fun h => h.upQuay

theorem unbind {part c : Nat} : s₀.Keeps (s.unbind part c) := by
  unfold State.unbind
  exact
    have h1 := h.foldl fun h => h.upQuay
    h1.mapQuays

theorem crossingStart {part c : Nat} : s₀.Keeps (s.crossingStart part c) := by
  unfold State.crossingStart
  split
  · exact h
  · refine ite h ?_
    exact
      have h1 := h.openUse.bindUses.mapQuays.mapEngs.upHub
      h1.foldl fun h => h.startRouter

theorem abandon {p : Nat → Bool} : s₀.Keeps (s.abandon p) := by
  unfold State.abandon
  exact
    have h1 := h.foldl fun h => h.foldl fun h => ite h.wr.upTile.release h.wr.upTile
    have h2 := h1.foldl fun h => h.foldl fun h => h.release
    have h3 := h2.foldl fun h => h.unbind
    h3.mapQuays.mapEngs.upHub

theorem soAnswer {x : HubOp} {code : Nat} : s₀.Keeps (s.soAnswer x code) :=
  ite (ite h.upTile <| ite h.halt h) <| ite h.upHub <| ite h.upTile.halt h

theorem soSet {x : HubOp} : s₀.Keeps (s.soSet x) := by
  unfold State.soSet
  split
  · exact h.wr.wr.soAnswer
  · exact h.soAnswer

theorem soAdd {x : HubOp} : s₀.Keeps (s.soAdd x) := by
  unfold State.soAdd
  split
  · exact
      have h1 := ite h.inc h.inc
      h1.soAnswer
  · exact h.soAnswer

theorem soEval {l : List HubOp} : s₀.Keeps (s.soEval l) := by
  induction l generalizing s with
  | nil => exact h
  | cons x r ih =>
    unfold State.soEval
    split
    · exact ite (ih h.soAnswer) <| ite (ih h.soAnswer) (ih h.upHub)
    · exact ih h.soAnswer

theorem soMark {cls unit : Nat} : s₀.Keeps (s.soMark cls unit) :=
  h.foldl fun h => h.wr.inc.upHub.foldl fun h => h.soAnswer

theorem hubCycle : s₀.Keeps s.hubCycle :=
  have h1 := h.upHub.foldl fun h => h.soSet
  have h2 := h1.foldl fun h => h.soSet
  have h3 := h2.foldl fun h => h.soAdd
  h3.upHub.soEval.foldl fun h => h.soMark

theorem toHub {x : HubOp} : s₀.Keeps (s.toHub x) := h.gridStart.upHub

/-! ## Machine/Matrix -/

theorem setBufFmt {t w f : Nat} : s₀.Keeps (s.setBufFmt t w f) := ite h.wr h.wr

theorem takeToken {t : Nat} : s₀.Keeps (s.takeToken t) := ite h h.wr.inc.upTile

theorem setAcc {t a : Nat} {l : List Nat} : s₀.Keeps (s.setAcc t a l) := h.foldl fun h => h.wr

theorem matIssue {s0 : State} {t addr : Nat} {o : SlotOp} : s₀.Keeps (s.matIssue s0 t addr o) := by
  unfold State.matIssue
  split
  · exact h.foldl fun h => h.post
  · split
    · exact h
    · exact
        have h1 := ite h.takeToken h
        h1.upTile

theorem setWimg {t w i : Nat} {l : List Byte} : s₀.Keeps (s.setWimg t w i l) := h.foldl fun h => h.wr

theorem mLoad {t fmt w v so m : Nat} : s₀.Keeps (s.mLoad t fmt w v so m).state := by
  unfold State.mLoad
  dsimp only
  split
  · exact h.setBufFmt.stopped
  · exact h.setWimg.setWimg.setWimg.setBufFmt.done

theorem setPair {t a : Nat} {ss cs : List Nat} : s₀.Keeps (s.setPair t a ss cs) := h.setBytes

theorem spillRow {t a : Nat} : s₀.Keeps (s.spillRow t a).state := by
  unfold State.spillRow
  dsimp only
  split
  · exact h.stopped
  · split
    · exact h.stopped
    · exact h.stopped
    · exact h.setPair.setAcc.wr.done

theorem addRow {t w fmt a inst : Nat} {row sc : List Byte} : s₀.Keeps (s.addRow t w fmt a inst row sc).state := by
  unfold State.addRow
  split
  · exact h.stopped
  · exact iteRes h.setAcc.wr.spillRow h.setAcc.wr.done

theorem blkStart {t acc rbs w r0 r1 : Nat} : s₀.Keeps (s.blkStart t acc rbs w r0 r1).state := by
  unfold State.blkStart
  cases s.blkCase t w r0 with
  | some d => exact h.stopped
  | none =>
    cases s.fromTail t (bits r0 19 5) (bits r0 0 19) 64 with
    | error c => exact h.stopped
    | ok l =>
      dsimp only
      cases segCheck l (if s.bufFmt t w = 2 then 1 else 0) (bits r1 0 16) rbs with
      | some e => exact h.stopped
      | none => exact h.inc.upTile.done

theorem clearRows {f : Fld} {t acc n : Nat} : s₀.Keeps (s.clearRows f t acc n) := h.wr

theorem mZero {t acc : Nat} {pair : Bool} {n i : Nat} : s₀.Keeps (s.mZero t acc pair n i).state := by
  induction n generalizing s i with
  | zero => exact h
  | succ n ih =>
    unfold State.mZero
    dsimp only; split
    · exact h
    · have h1 := h.setAcc (t := t) (a := acc + i) (l := zeros32) |>.wr (f := F.CNT) (v := 0) (u := t) (i := acc + i)
      exact ih (ite h1.clearRows.clearRows.setPair h1.clearRows.clearRows)

theorem outRow {t a i dest : Nat} {fold keep : Bool} : s₀.Keeps (s.outRow t a i dest fold keep).state := by
  have h1 : s₀.Keeps (if fold then s.spillRow t a else .ok s : MRes).state := iteRes h.spillRow h.done
  unfold State.outRow
  refine iteRes h <| iteRes h ?_
  split <;> rename_i e
  · exact h
  · rw [e] at h1
    split
    · exact h1
    · exact h1
    · dsimp only; split
      · exact h1
      · exact
          have h2 := ite h1.inc h1
          have h3 := ite h2.inc.drawn h2
          have h4 := ite h3.inc h3
          have h5 := ite h4.setBytes.setAcc.wr h4.setBytes
          have h6 := ite h5.setPair h5
          done (clearRows (ite h6 h6.clearRows))

theorem lookRow {t p tr : Nat} : s₀.Keeps (s.lookRow t p tr).state := by
  unfold State.lookRow
  dsimp only
  split
  · exact h.stopped
  · refine iteRes h.inc.clearRows.clearRows.done ?_
    exact done (ite h.inc.clearRows.clearRows.inc.inc.drawn.inc.wr h.inc.clearRows.clearRows.inc.inc.drawn.wr)

theorem skipRows {t : Nat} {m : MInstr} {n : Nat} : s₀.Keeps (s.skipRows t m n) := by
  induction n generalizing s with
  | zero => exact h
  | succ n ih =>
    unfold State.skipRows
    refine ite (ih (upTile (inc ?_))) ?_ <;> split
    · exact ite h.inc h
    · exact h
    · exact ite h.inc h
    · exact h

theorem rowAt {t : Nat} {m : MInstr} {p : Nat} : s₀.Keeps (s.rowAt t m p).state := by
  unfold State.rowAt
  split
  · dsimp only
    split
    · exact h.stopped
    · exact h.stopped
    · exact h.addRow
  · dsimp only
    split
    · exact h.stopped
    · exact h.stopped
    · exact h.addRow
  · exact h.outRow
  · exact h.lookRow
  · exact h.done

theorem mBegin {t : Nat} {m : MInstr} : s₀.Keeps (s.mBegin t m).state := by
  unfold State.mBegin
  dsimp only
  split
  · exact h.mLoad
  · split
    · exact h.stopped
    · exact h.done
  · exact h.blkStart
  · exact h.mZero
  · exact iteRes h.stopped h.wr.wr.done
  · exact iteRes h.stopped h.wr.wr.wr.wr.wr.wr.done
  · split
    · exact h.stopped
    · exact h.done
  · exact h.done
  · exact h.wr.done

theorem matHalt {t : Nat} {m : MInstr} {c : Case} : s₀.Keeps (s.matHalt t m c) := h.upTile.halt.tokenCheck

theorem matRead {t : Nat} {m : MInstr} {l : List (Nat × Nat)} {ecc : Ecc} {go : State → MRes}
    (hgo : ∀ {n}, s₀.Keeps n → s₀.Keeps (go n).state) : s₀.Keeps (s.matRead t m l ecc go).1 := by
  have h1 := h.readCheck (t := t) (l := l) (reader := 1) (ecc := (eccSplit (wordsOf l).length ecc).1)
  unfold State.matRead
  dsimp only; split <;> rename_i e <;> rw [e] at h1
  · refine matHalt ?_
    split
    · exact h1.setBufFmt
    · exact h1
  · have h2 := hgo h1
    split <;> rename_i e2 <;> rw [e2] at h2
    · exact h2
    · exact h2.matHalt

theorem matRow {t : Nat} {m : MInstr} {ecc : Ecc} : s₀.Keeps (s.matRow t m ecc).1 := by
  unfold State.matRow
  extract_lets n s1 p
  have h1 : s₀.Keeps s1 := by
    dsimp only [s1]
    split
    · exact h.skipRows
    · exact h.skipRows
    · exact h
  exact iteFst h1 (h1.matRead fun h => map h.rowAt fun h => h.upTile)

theorem matRows {t : Nat} {m : MInstr} {ecc : Ecc} {n : Nat} : s₀.Keeps (s.matRows t m ecc n) := by
  induction n generalizing s ecc with
  | zero => exact h
  | succ n ih =>
    have h1 := h.matRow (t := t) (m := m) (ecc := ecc)
    unfold State.matRows
    split <;> rename_i e <;> rw [e] at h1
    · exact ih h1
    · exact h1

theorem matTick {t : Nat} : s₀.Keeps (s.matTick t) := by
  unfold State.matTick
  split
  · exact ite h h.matRows
  · exact h

theorem matStart {t : Nat} {load : Bool} {ecc : Ecc} : s₀.Keeps (s.matStart t load ecc) := by
  unfold State.matStart
  refine ite h ?_
  split
  · exact h
  · rename_i m _
    extract_lets s1 s2
    have h2 : s₀.Keeps s2 := ite h.upTile.upTile h.upTile.upTile
    have h3 := h2.matRead (t := t) (m := m) (l := s2.beginSpans t m) (ecc := ecc) fun h => h.mBegin (t := t) (m := m)
    split <;> rename_i e <;> rw [e] at h3
    · exact ite h3 h3.matRows
    · exact ite h3.upTile h3

theorem matFinish {t : Nat} {load : Bool} {ecc : Ecc} : s₀.Keeps (s.matFinish t load ecc) :=
  ite h <| ite h.upTile.tokenCheck <| by
    split
    · exact h
    · exact h.matRows.upTile.tokenCheck

/-! ## Machine/Sieve -/

theorem svIssue {s0 : State} {t addr : Nat} {o : SvOp} {a rnd : Nat} : s₀.Keeps (s.svIssue s0 t addr o a rnd) := by
  unfold State.svIssue; exact h.upTile

theorem svHalt {t : Nat} {m : SvInstr} {c : Case} : s₀.Keeps (s.svHalt t m c) := h.upTile.halt

theorem svStart {t : Nat} {ecc : Ecc} : s₀.Keeps (s.svStart t ecc) := by
  unfold State.svStart
  dsimp only
  split
  · refine ite h ?_
    split
    · exact h.readCheck.svHalt
    · split
      · exact h.readCheck.svHalt
      · exact h.readCheck.upTile
  · exact h

theorem svFinish {t : Nat} : s₀.Keeps (s.svFinish t) := by
  unfold State.svFinish
  refine ite h ?_
  split
  · exact h
  · split
    · exact h.svHalt
    · exact
        have h1 := ite h.upTile.setBytes.inc h.upTile.setBytes
        have h2 := ite h1.inc h1
        have h3 := ite h2.inc.inc.inc.drawn h2.inc.inc.inc
        by
          dsimp only
          split
          · exact h3
          · exact h3.inc.upRos

/-! ## Machine/Gddr -/

theorem gset {a : Nat} {l : List Byte} : s₀.Keeps (s.gset a l) := by
  induction l generalizing s a with
  | nil => exact h
  | cons b r ih =>
    unfold State.gset
    refine ih ?_
    split
    · exact h.setByte
    · exact h

theorem weigh {p n : Nat} : s₀.Keeps (s.weigh p n) := ite h.upPower h

theorem chargeQ {p q n : Nat} : s₀.Keeps (s.chargeQ p q n) := h.inc.weigh

theorem chargeF {p k n : Nat} : s₀.Keeps (s.chargeF p k n) := h.inc.weigh

theorem spend {p : Nat} {fab : Bool} {n : Nat} : s₀.Keeps (s.spend p fab n) := h.upPower

theorem waited {p : Nat} {fab : Bool} : s₀.Keeps (s.waited p fab) := by
  unfold State.waited
  dsimp only
  split
  · exact h
  · exact
      have h1 := ite h.inc h.inc
      h1.upPower

theorem bucketAdmit {p : Nat} {fab : Bool} {n : Nat} : s₀.Keeps (s.bucketAdmit p fab n).1 :=
  iteFst h <| iteFst h.waited.upPower.pair <| iteFst h.spend.pair <| iteFst h.upPower.pair h

theorem gcountRead {a n : Nat} {ring : Nat → Bool} : s₀.Keeps (s.gcountRead a n ring) :=
  h.foldl fun h => ite h.inc.upQuay.inc h.inc.upQuay

theorem chargeRead {a n p : Nat} {ring : Nat → Bool} : s₀.Keeps (s.chargeRead a n p ring) :=
  h.foldl fun h => h.chargeQ

theorem qecc {q a reader syn : Nat} {unc : Bool} : s₀.Keeps (s.qecc q a reader syn unc) :=
  have h1 := ite h.inc h.inc
  ite h1.wr.wr.wr.wr.wr.event h1.wr.wr.wr.wr.wr.upFault

theorem readBurst {a : Nat} {e : Ecc} : s₀.Keeps (s.readBurst a e).1 := by
  unfold State.readBurst
  split
  · exact h
  · exact iteFst h.upQuay.pair h

theorem gcheck {a reader : Nat} {e : Ecc} : s₀.Keeps (s.gcheck a reader e).1 := by
  unfold State.gcheck
  dsimp only
  split
  · exact h.readBurst.pair
  · exact h.readBurst.pair
  · exact h.readBurst.qecc.upQuay.pair
  · exact h.readBurst.qecc.pair

theorem wabSync {q : Nat} : s₀.Keeps (s.wabSync q) := ite h.wr.wr.wr.wr h.wr.wr.wr

theorem gpost {a : Nat} {d : List Byte} {cls unit : Nat} : s₀.Keeps (s.gpost a d cls unit) := by
  unfold State.gpost; exact h.foldl fun h => by
    split
    · exact h
    · exact h.upQuay

theorem qaccept {q : Nat} {r : QReq} : s₀.Keeps (s.qaccept q r) := h.upQuay

theorem retire {q : Nat} {r : QReq} {e : Ecc} : s₀.Keeps (s.retire q r e) :=
  have h1 := upQuay (iteFst h.inc.gcheck h)
  ite h1 h1.gset.inc.chargeQ

theorem flushBefore {q : Nat} {r : QReq} : s₀.Keeps (s.flushBefore q r) :=
  have h1 := h.foldl fun h => h.retire
  h1.upQuay.wabSync

/-! ## Machine/Quay -/

theorem timedAccept {q : Nat} : s₀.Keeps (s.timedAccept q) := by
  unfold State.timedAccept
  split
  · exact h
  · exact h.upQuay.upTile

theorem fetchStart {q t : Nat} : s₀.Keeps (s.fetchStart q t) := by
  unfold State.fetchStart
  split
  · exact h
  · exact ite h <| ite h.upQuay h.upQuay

theorem upUse {q : Nat} {u : Use} {f : Use → Use} : s₀.Keeps (s.upUse q u f) := h.upQuay

theorem accessComplete {q : Nat} {e : Ecc} : s₀.Keeps (s.accessComplete q e) := by
  unfold State.accessComplete
  refine ite h ?_
  split
  · exact ite h h.upQuay.gcheck.inc.inc.upUse
  · split
    · exact h
    · exact ite h h.upQuay.gcheck.inc.inc.upQuay

theorem takeStaged {q t : Nat} : s₀.Keeps (s.takeStaged q t).1 := by
  unfold State.takeStaged
  split
  · exact h
  · exact
      have h1 := ite h.upQuay <| ite h.upUse h
    h1

theorem quayArrive {q part c : Nat} : s₀.Keeps (s.quayArrive q part c) :=
  ite (by
    split
    · exact h
    · exact h.gridStart.arrive.upQuay) h

theorem refreshDue {q : Nat} : s₀.Keeps (s.refreshDue q) := ite h <| ite h.wr.inc.upQuay h.wr

theorem refreshTick {q : Nat} : s₀.Keeps (s.refreshTick q) :=
  ite h <| ite h.upQuay <| ite (ite h.upQuay.wr h.upQuay) h

theorem refreshWindow {q : Nat} : s₀.Keeps (s.refreshWindow q) := by
  unfold State.refreshWindow
  split
  · exact h
  · exact ite h.wr.inc.upQuay h

theorem pushFail {q : Nat} {x : Push} {c : Case} : s₀.Keeps (s.pushFail q x c) := h.upQuay.halt

theorem pushNext {x : Push} {e : Ecc} : s₀.Keeps (s.pushNext x e).1 := iteFst (by
  split
  · exact h
  · exact h.gcheck.pair) h

theorem pushAsk {q : Nat} {x : Push} {e : Ecc} : s₀.Keeps (s.pushAsk q x e) := by
  have h1 := h.pushNext (x := x) (e := e)
  unfold State.pushAsk
  split <;> rename_i e1 <;> rw [e1] at h1
  · exact h1.pushFail
  · dsimp only
    split
    · exact h1.upQuay.credQueue
    · exact h1.pushFail

theorem pushStart {q : Nat} {e : Ecc} : s₀.Keeps (s.pushStart q e) := by
  unfold State.pushStart
  split
  · exact h
  · exact ite h <| ite h.upQuay.pushFail h.upQuay.pushAsk

theorem credRefused {t c cls unit code : Nat} : s₀.Keeps (s.credRefused t c cls unit code) :=
  have h1 := ite h.evlog h
  ite h1.freeCred h1

theorem credFill {t c cls unit off : Nat} {l : List (List Byte)} : s₀.Keeps (s.credFill t c cls unit off l).1 := by
  induction l generalizing s off with
  | nil => exact h
  | cons d r ih =>
    unfold State.credFill
    split
    · exact ih h.credWrite
    · exact h.credRefused

theorem pushCheck {l : List Nat} {es : List Ecc} : s₀.Keeps (s.pushCheck l es).1 := by
  induction l generalizing s es with
  | nil => exact h
  | cons a r ih =>
    have h1 := h.gcheck (a := a) (reader := 2) (e := es.headD .ok)
    unfold State.pushCheck
    split <;> rename_i e <;> rw [e] at h1
    · exact h1
    · exact ih h1

theorem pushDone {q : Nat} {x : Push} : s₀.Keeps (s.pushDone q x) := ite h.upQuay.toHub h.upQuay

theorem pushChunk {q : Nat} {es : List Ecc} : s₀.Keeps (s.pushChunk q es) := by
  unfold State.pushChunk
  split
  · exact h
  · dsimp only; split
    · exact h.pushFail
    · refine ite h <| ite h.bucketAdmit ?_
      generalize hb : State.bucketAdmit s _ _ _ = b
      have h1 : s₀.Keeps b.1 := hb ▸ h.bucketAdmit
      generalize hc : State.pushCheck _ _ _ = r
      have h2 : s₀.Keeps r.1 := hc ▸ h1.pushCheck
      split
      · exact h2.pushFail
      · generalize hf : State.credFill _ _ _ _ _ _ _ = f
        have h3 : s₀.Keeps f.1 := hf ▸ credFill (h2.foldl fun h => h.gcountRead.chargeRead)
        exact ite h3.pushFail <| ite h3.inc.upQuay.pushDone h3.inc.upQuay.pushAsk

theorem gradAdd {q : Nat} {e : Ecc} : s₀.Keeps (s.gradAdd q e) := by
  unfold State.gradAdd
  split
  · exact h
  · refine ite h <| ite h.upQuay.flushBefore.gcheck.inc.halt ?_
    split
    · exact h.upQuay.flushBefore.gcheck.inc.halt
    · exact
        have h1 := h.upQuay.flushBefore.gcheck.inc.gset.upQuay
        h1.inc.inc

theorem ringArrive {q : Nat} {r : QReq} : s₀.Keeps (s.ringArrive q r) :=
  ite (ite h.upQuay h.upQuay) <| ite h.upQuay <| ite h.upQuay h.qaccept

/-! ## Machine/Manifest -/

theorem mfHalt {t : Nat} {d : MfDesc} {c : Case} : s₀.Keeps (s.mfHalt t d c) := h.upTile.halt

theorem seedComplete {t : Nat} {ecc : Ecc} : s₀.Keeps (s.seedComplete t ecc) := by
  unfold State.seedComplete
  dsimp only
  split
  · exact h
  · refine ite h <| ite h <| ite h.readCheck.mfHalt <| ite h.readCheck.mfHalt ?_
    split
    · exact h.readCheck.mfHalt
    · split
      · exact h.readCheck.inc.mfHalt
      · exact h.readCheck.inc.putSlip.headAdd.inc.inc.drawn.upTile

theorem sampReturn {t : Nat} {e : Ecc} : s₀.Keeps (s.sampReturn t e) := by
  unfold State.sampReturn
  dsimp only
  split
  · exact h
  · refine ite h ?_
    split
    · exact h
    · refine ite h <| ite h.bucketAdmit ?_
      exact
        have h1 := ite h.bucketAdmit h.bucketAdmit.inc
        ite h1.gcheck.gcountRead.chargeRead.mfHalt h1.gcheck.gcountRead.chargeRead.upTile

theorem mfStart {t : Nat} {sampler : Bool} {ecc : Ecc} : s₀.Keeps (s.mfStart t sampler ecc) := by
  unfold State.mfStart
  dsimp only
  split
  · refine ite h ?_
    split
    · exact h.upTile.readCheck.mfHalt
    · exact
        have h1 := ite h.upTile.readCheck.drawn.upTile h.upTile.readCheck.upTile
        ite (by
          split
          · exact h1.mfHalt
          · exact h1) h1
  · exact h

theorem mfNull {t : Nat} {d : MfDesc} {o : Nat} : s₀.Keeps (s.mfNull t d o) := h.putSlip.stn.inc

theorem mfHead {t : Nat} {d : MfDesc} : s₀.Keeps (s.mfHead t d) := h.wr

theorem mfStage {t : Nat} {d : MfDesc} {sl : List (Nat × Nat × Nat × Nat)} : s₀.Keeps (s.mfStage t d sl) :=
  ite (h.foldl fun h => h.upQuay) <| h.setBytes.foldl fun h => h.stn

theorem mfSlot {t : Nat} {d : MfDesc} : s₀.Keeps (s.mfSlot t d) :=
  ite (have h1 := ite h.upTile h
     have h2 := h1.foldl fun h => h.mfNull
     have h3 := h2.foldl fun h => h.stn
     h3.mfStage.mfHead.wr.wr.upTile)
    h.mfStage.wr.upTile

theorem mfEmptyRun {t m c run : Nat} : s₀.Keeps (s.mfEmptyRun t m c run) :=
  ite (h.wr.wr.foldl fun h => h.upQuay) h.wr.wr.setBytes

theorem mfArrive {t c : Nat} : s₀.Keeps (s.mfArrive t c) := by
  unfold State.mfArrive
  split
  · exact h
  · exact h.gridStart.arrive

theorem slotOrHalt {t : Nat} {d : MfDesc} {ecc : Ecc} : s₀.Keeps (s.slotOrHalt t d ecc) := by
  unfold State.slotOrHalt
  dsimp only
  split
  · exact h.readCheck.mfHalt
  · exact h.readCheck.mfSlot

theorem carryPart {t c run : Nat} {ecc : Ecc} : s₀.Keeps (s.carryPart t c run ecc) := by
  unfold State.carryPart
  dsimp only
  split
  · refine ite ?_ ?_
    · exact ite h.slotOrHalt <| by
        split
        · exact h.slotOrHalt.mfEmptyRun
        · exact h.slotOrHalt
    · split
      · exact h.mfEmptyRun
      · exact h
  · split
    · exact h.mfEmptyRun
    · exact h

theorem runSlotting {t : Nat} {ecc : Ecc} : s₀.Keeps (s.runSlotting t ecc) := by
  unfold State.runSlotting
  split
  · exact h.upHub.carryPart.mfArrive
  · split
    · exact h
    · refine ite h ?_
      exact
        have h1 := ite h h.slotOrHalt
        ite h1.mfArrive h1.upTile.mfEmptyRun.mfArrive

theorem mfStatus {t : Nat} {d : MfDesc} {n : Nat} {fin : Bool} : s₀.Keeps (s.mfStatus t d n fin) := h.stn

theorem runEnd {t : Nat} : s₀.Keeps (s.runEnd t) := by
  unfold State.runEnd
  dsimp only
  split
  · exact h
  · exact
      have h1 := ite h.upHub.inc h.upHub
      by
        split
        · exact h1.upHub
        · exact ite h1.upHub <| ite h1.upTile.inc.wr.mfStatus.mfHalt.upHub h1.upTile.inc.wr.mfStatus.upHub

theorem carryReport {t : Nat} : s₀.Keeps (s.carryReport t) := by
  unfold State.carryReport
  split
  · exact h
  · exact h.upHub

theorem carryRun {part c : Nat} : s₀.Keeps (s.carryRun part c) := by
  unfold State.carryRun
  split
  · exact h
  · refine ite h <| ite h.upHub ?_
    exact
      have h1 := h.foldl fun h => h.upTile
      h1.upHub

theorem mfComplete {t : Nat} {sampler : Bool} : s₀.Keeps (s.mfComplete t sampler) := by
  unfold State.mfComplete
  dsimp only
  split
  · exact h
  · exact ite h <| ite h.mfStatus.upTile.toHub h.mfStatus.upTile

/-! ## Machine/Issue -/

theorem suppress {t addr : Nat} {l : List (Nat × Case)} : s₀.Keeps (s.suppress t addr l) :=
  h.upTile.foldl fun h => h.halt

theorem reach {t : Nat} {w : NWord} : s₀.Keeps (s.reach t w) := by
  unfold State.reach
  refine h.foldl fun h => ?_
  split
  · split
    · exact h.upTile.toHub
    · exact h
  · dsimp only
    split
    · exact h
    · split
      · exact h
      · exact ite h h.upTile.upQuay
  · exact h

theorem runX {s0 : State} {t addr : Nat} {o : SlotOp} : s₀.Keeps (s.runX s0 t addr o) := by
  unfold State.runX
  split
  · exact ite h.caseHalt <| ite h.caseHalt h.inc
  · exact ite h.caseHalt <| ite h.caseHalt <| ite h.caseHalt h.headAdd
  · exact h.toHub
  · exact h.toHub
  · split
    · exact h.caseHalt
    · exact h.upTile
  · split
    · exact h.caseHalt
    · exact h
    · exact ite h.upQuay <| ite h.caseHalt <| by
        split
        · exact h.upTile
        · exact h.upTile.caseHalt
  · exact h.upTile
  · exact h

theorem runSlot {s0 : State} {t addr : Nat} {o : SlotOp} : s₀.Keeps (s.runSlot s0 t addr o) := by
  unfold State.runSlot
  split
  · exact h.matIssue
  · exact h.runX
  · split
    · exact h.runCompute.svIssue
    · exact h.runCompute

theorem runSlots {s0 : State} {t addr : Nat} {l : List Slot} {ecc : Ecc} : s₀.Keeps (s.runSlots s0 t addr l ecc) := by
  induction l generalizing s ecc with
  | nil => exact h
  | cons sl r ih =>
    unfold State.runSlots
    split
    · exact ih h.runSlot
    · rename_i x _
      have h1 := h.readCheck (t := t) (l := [x]) (reader := 0) (ecc := ecc)
      split <;> rename_i e <;> rw [e] at h1
      · exact ih h1.runSlot
      · exact ih h1.caseHalt

theorem endLoop {t l : Nat} : s₀.Keeps (s.endLoop t l) := h.wr.wr

theorem branchTo {t a : Nat} : s₀.Keeps (s.branchTo t a) :=
  have h1 := ite h.endLoop.endLoop <| ite h.endLoop h
  h1.wr

theorem advance {t addr next : Nat} {l : List Nat} : s₀.Keeps (s.advance t addr next l) := by
  induction l generalizing s with
  | nil => exact h.wr
  | cons l r ih => exact ite (ite h.wr.wr (ih h.endLoop)) (ih h)

theorem control {s0 : State} {t : Nat} {w : NWord} {a : Option SlotOp} : s₀.Keeps (s.control s0 t w a) := by
  unfold State.control
  split
  · exact h.branchTo
  · exact ite h.branchTo.halt h.branchTo
  · exact ite h.wr h.wr.wr.wr.wr.advance
  · exact h.advance

theorem arriveEop {t : Nat} : s₀.Keeps (s.arriveEop t) := h.upTile.arrive

theorem doneRun {t : Nat} : s₀.Keeps (s.doneRun t) := by
  unfold State.doneRun
  split
  · exact h
  · split
    · exact ite h.setRun.settle h
    · exact h

theorem issueNow {t : Nat} {w : NWord} {ecc : Ecc} : s₀.Keeps (s.issueNow t w ecc) := by
  unfold State.issueNow
  extract_lets on ctl s1 miss s2 s3 s4 s5 s6
  clear_value miss
  have h1 : s₀.Keeps s1 := h.upTile
  have h2 : s₀.Keeps s2 := ite h1.wr h1
  have h3 : s₀.Keeps s3 := by
    dsimp only [s3]
    split
    · exact h2.halt
    · exact h2
  have h5 : s₀.Keeps s5 := h3.runSlots.control
  have h6 : s₀.Keeps s6 := ite h5.arriveEop h5
  exact ite (ite h5 h5.clearLoops.wr.doneRun) (ite h6.halt h6)

theorem issueOrWait {t : Nat} {w : NWord} {ecc : Ecc} : s₀.Keeps (s.issueOrWait t w ecc) := by
  unfold State.issueOrWait
  dsimp only
  split
  · exact h.reach.upTile
  · exact h.reach.issueNow

theorem tryWord {t : Nat} {w : NWord} {ecc : Ecc} : s₀.Keeps (s.tryWord t w ecc) := by
  unfold State.tryWord
  split
  · exact h.issueOrWait
  · exact h.suppress

theorem wordIssue {t : Nat} {ecc : Ecc} : s₀.Keeps (s.wordIssue t ecc) :=
  ite h <| by
    split
    · exact h.tryWord
    · exact h.suppress

theorem slotIssue {t : Nat} {p : Pred} {o : SlotOp} : s₀.Keeps (s.slotIssue t p o) := ite h.tryWord h

theorem retireOne {t : Nat} : s₀.Keeps (s.retireOne t) := ite h <| by
  split
  · exact h
  · exact h.setReg.upTile

theorem watchdog {t : Nat} : s₀.Keeps (s.watchdog t) := ite h.halt h

/-! ## Machine/Conf -/

theorem cfSync {k : Nat} : s₀.Keeps (s.cfSync k) := h.wr.wr.wr.wr.wr

theorem setColl {k : Nat} {c : Coll} : s₀.Keeps (s.setColl k c) := h.upEng.cfSync

theorem spillOut {k : Nat} {x : SegOut} : s₀.Keeps (s.spillOut k x) := by
  unfold State.spillOut; exact h.gpost.gpost.inc.upEng

theorem cfSend {k : Nat} {c : Coll} {rank : Nat} {fwd : Bool} {seg : List Byte} :
    s₀.Keeps (s.cfSend k c rank fwd seg) := h.foldl fun h => ite h.upEng h.spillOut

theorem cfEnd {k : Nat} {c : Coll} {v : Nat} : s₀.Keeps (s.cfEnd k c v) :=
  have h1 := ite h.setBytes h.gpost
  have h2 := ite h1.wr.wr.wr.wr.wr.inc.inc h1.wr.wr.wr.wr.wr.inc
  ite (ite h2.upEng.cfSync.toHub h2.upEng.cfSync) h2.upEng.cfSync.event

theorem sendRecord {k : Nat} {c : Coll} : s₀.Keeps (s.sendRecord k c) := h.cfSend

theorem verdict {k : Nat} {c : Coll} : s₀.Keeps (s.verdict k c) :=
  ite h.cfEnd <|
  ite h.cfEnd <|
  ite h.cfEnd <|
  ite h.cfEnd <|
  ite h.cfEnd <|
  ite (have h1 := ite h h.gpost
     h1.inc.setColl)
    h.cfEnd

theorem verdictRounds {k n : Nat} {c : Coll} : s₀.Keeps (s.verdictRounds k n c) := by
  induction n generalizing s c with
  | zero => exact h.setColl
  | succ n ih =>
    unfold State.verdictRounds
    refine ite h.verdict ?_
    split
    · exact h.setColl
    · exact ite h.verdict (ih h.sendRecord)

theorem enterVerdict {k : Nat} {c : Coll} : s₀.Keeps (s.enterVerdict k c) := h.sendRecord.verdictRounds

theorem cfDrew {k n : Nat} : s₀.Keeps (s.cfDrew k n) := h.inc.drawn

theorem firstBlock {k : Nat} {c : Coll} {g : Nat} : s₀.Keeps (s.firstBlock k c g).1 :=
  pair (ite h.cfDrew.inc h.cfDrew)

theorem adder {k : Nat} {c : Coll} {g b : Nat} : s₀.Keeps (s.adder k c g b).1 :=
  iteFst (pair (ite h.inc.cfDrew.inc h.inc.cfDrew)) h.inc.inc.pair

theorem firstBlocks {k : Nat} {c : Coll} {l : List Nat} : s₀.Keeps (s.firstBlocks k c l).1 := by
  induction l generalizing s with
  | nil => exact h
  | cons g r ih => exact ih h.firstBlock

theorem agree {k : Nat} {c : Coll} {ch o : Nat} {raw : List Byte} : s₀.Keeps (s.agree k c ch o raw).1 := h.gpost.pair

theorem afterRead {k : Nat} {c : Coll} : s₀.Keeps (s.afterRead k c).1 := by
  unfold State.afterRead
  split
  · split
    · exact h
    · exact iteFst (by
        split
        · exact h.cfSend.pair
        · exact h) h
  · split
    · exact h
    · exact iteFst (by
        split
        · exact h.firstBlocks.cfSend.pair
        · exact h) h
  · exact iteFst (pair (h.gpost.foldl fun h => h.cfSend)) h
  · split
    · exact h
    · exact iteFst (by
        split
        · exact h
        · exact iteFst h.gpost.pair h) <| pair (h.foldl fun h => h.cfSend)
  · exact h

theorem startGather {k : Nat} {c : Coll} : s₀.Keeps (s.startGather k c) := h.foldl fun h => h.cfSend

theorem cfAdvance {k n : Nat} {c : Coll} : s₀.Keeps (s.cfAdvance k n c) := by
  induction n generalizing s c with
  | zero => exact h.setColl
  | succ n ih =>
    unfold State.cfAdvance
    refine ite h.setColl <| ite h.setColl ?_
    split
    · exact ih h
    · exact ite (ih h.startGather) h.enterVerdict
    · exact h.enterVerdict

theorem cfStart {k kind : Nat} : s₀.Keeps (s.cfStart k kind) := by
  unfold State.cfStart
  dsimp only
  split
  · exact ite (ite h.upEng.setColl.cfAdvance h.upEng.cfEnd) h
  · exact h

theorem stray {k : Nat} : s₀.Keeps (s.stray k) := h.inc

theorem takeCopy {k : Nat} {c : Coll} {b : List Byte} {pass : Nat} : s₀.Keeps (s.takeCopy k c b pass).1 :=
  iteFst (pair (ite h.inc h.stray)) <|
  have h1 := ite h <| ite h.inc h.inc
  h1

theorem placeScales {k : Nat} {c : Coll} {b : List Byte} {pass : Nat} : s₀.Keeps (s.placeScales k c b pass).1 :=
  iteFst (iteFst h.cfSend.agree h.cfSend.pair) <|
  have h1 := ite h h.cfSend
  h1.agree.pair

theorem keepBlock {k : Nat} {c : Coll} {ch i b : Nat} : s₀.Keeps (s.keepBlock k c ch i b).1 :=
  have h1 := ite h.inc h
  h1.gpost.pair

theorem placeReduce {k : Nat} {c : Coll} {ch : Nat} {l : List Nat} {i : Nat} :
    s₀.Keeps (s.placeReduce k c ch l i).1 := by
  induction l generalizing s c i with
  | nil => exact h
  | cons b r ih => exact ih (iteFst h.adder.keepBlock h.adder)

theorem placeGather {k : Nat} {c : Coll} {ch : Nat} {l : List Nat} {i : Nat} :
    s₀.Keeps (s.placeGather k c ch l i).1 := by
  induction l generalizing s c i with
  | nil => exact h
  | cons b r ih => exact ih (keepBlock (ite h.inc h))

theorem placeData {k : Nat} {c : Coll} {b : List Byte} : s₀.Keeps (s.placeData k c b).1 :=
  iteFst (have h1 := ite h.gpost h.gpost.cfSend
     h1) <| by
       split
       · exact h
       · exact iteFst h h.gpost.pair

theorem placeSeg {k : Nat} {c : Coll} {b : List Byte} : s₀.Keeps (s.placeSeg k c b) := by
  unfold State.placeSeg
  refine ite (ite h.setColl h.stray) <| ite h.takeCopy.setColl ?_
  refine ite (ite h.takeCopy.verdictRounds h.takeCopy.setColl) <| ite h.takeCopy.setColl ?_
  refine cfAdvance ?_
  split
  · exact iteFst h.takeCopy.placeScales h.takeCopy.pair
  · refine iteFst (pair (ite h.takeCopy.placeReduce h.takeCopy.placeReduce.cfSend)) ?_
    exact
      have h1 := ite h.takeCopy.placeGather h.takeCopy.placeGather.cfSend
    h1
  · exact h.takeCopy.placeData

theorem upChan {k c : Nat} {f : ChanX → ChanX} : s₀.Keeps (s.upChan k c f) := h.upEng

theorem vc1 {k dst : Nat} {body : List Byte} : s₀.Keeps (s.vc1 k dst body) := h.upPort

theorem chanGrant {k c : Nat} : s₀.Keeps (s.chanGrant k c) := ite (ite h.upChan.vc1 h) h

theorem chanPass {k c n : Nat} : s₀.Keeps (s.chanPass k c n) := h.inc.upEng.upChan.chanGrant

theorem chanStop {k c code : Nat} : s₀.Keeps (s.chanStop k c code) := by
  unfold State.chanStop; exact h.wr.upChan.event

theorem chanPump {k c : Nat} : s₀.Keeps (s.chanPump k c) := by
  unfold State.chanPump
  refine ite h ?_
  split
  · exact ite h <| ite h.credFill.upChan.chanPass h.credFill.chanStop
  · exact ite h <| by
      split
      · exact h.upChan.credQueue
      · exact h.chanStop

theorem chanPumpAll {k : Nat} : s₀.Keeps (s.chanPumpAll k) := h.foldl fun h => h.chanPump

theorem chanGranted {k t slip rec : Nat} : s₀.Keeps (s.chanGranted k t slip rec) := by
  unfold State.chanGranted
  split
  · exact h
  · exact h.upChan.chanPump.chanPumpAll

theorem chanSegment {k : Nat} {b : List Byte} : s₀.Keeps (s.chanSegment k b) := ite h.upEng.chanPump h.stray

theorem chanDeliver {k c key : Nat} {d : List Byte} : s₀.Keeps (s.chanDeliver k c key d) := by
  unfold State.chanDeliver
  dsimp only
  split
  · exact h.inc.upEng.gpost.upChan
  · exact h.inc.upEng.upEng
  · exact h.inc.upEng

theorem chanTake {k c key : Nat} : s₀.Keeps (s.chanTake k c key).1 := iteFst h.upEng.chanPass.pair h.upEng.pair

theorem chanWrite {k c : Nat} {second : Bool} {v : Nat} : s₀.Keeps (s.chanWrite k c second v) :=
  ite h <|
  ite h.wr <|
  have h1 := h.foldl fun h => h.wr
  ite (have h2 := ite h1.wr.upChan h1.wr
     h2.chanGrant.chanPump)
    h1

theorem engArrive {k part c : Nat} : s₀.Keeps (s.engArrive k part c) :=
  ite (by
    split
    · exact h
    · exact h.gridStart.arrive.upEng) h

theorem actedOn {k vc : Nat} {b : List Byte} : s₀.Keeps (s.actedOn k vc b) := ite h.upPort h

theorem segReceive {k : Nat} {b : List Byte} : s₀.Keeps (s.segReceive k b) := by
  unfold State.segReceive
  refine ite h.inc.actedOn.stray <| ite h.inc.actedOn.chanSegment ?_
  split
  · exact h.inc.actedOn.stray
  · exact ite h.inc.actedOn.stray <| ite h h.inc.actedOn.placeSeg

theorem spokeRead {k : Nat} {e : Ecc} : s₀.Keeps (s.spokeRead k e) := by
  unfold State.spokeRead
  split
  · exact h
  · refine ite h <| ite h <| ite h.gcountRead.chargeRead.gcheck.enterVerdict ?_
    exact h.gcountRead.chargeRead.gcheck.afterRead.cfAdvance

theorem cfAbort {k : Nat} : s₀.Keeps (s.cfAbort k) := by
  unfold State.cfAbort
  dsimp only
  split
  · exact h.upEng.cfSync
  · exact h.upEng.cfSync.cfEnd

/-! ## Machine/Fabric -/

theorem useOf {t key : Nat} : s₀.Keeps (s.useOf t key).1 := h.upTile.pair

theorem mfSendOff {t m : Nat} {x : XferSlot} : s₀.Keeps (s.mfSendOff t m x).1 := by
  unfold State.mfSendOff
  split
  · exact h
  · exact pair (ite h.inc h)
  · exact pair (ite h.inc h)

theorem inject {t : Nat} {void : Bool} {data : Nat} : s₀.Keeps (s.inject t void data) := by
  unfold State.inject; exact h.upTile

theorem injectRead {t off : Nat} {e : Ecc} : s₀.Keeps (s.injectRead t off e) := ite h.readCheck h.readCheck.inject

theorem injectVoid {t : Nat} : s₀.Keeps (s.injectVoid t) := h.inject

theorem slipRead {t slip : Nat} {e : Ecc} : s₀.Keeps (s.slipRead t slip e) := ite h.halt h.upTile.injectRead

theorem sendingRead {t cycle : Nat} {ecc : Ecc} : s₀.Keeps (s.sendingRead t cycle ecc) := by
  unfold State.sendingRead
  dsimp only
  split
  · exact h
  · refine ite h <| ite (ite h.upTile.upTile h.upTile.upTile.injectRead) ?_
    split
    · split
      · exact h.upTile.useOf.mfSendOff.injectRead
      · exact h.upTile.useOf.mfSendOff.injectVoid
    · exact h.upTile.slipRead

theorem crossMiss {t detail : Nat} : s₀.Keeps (s.crossMiss t detail) := h.inc.halt

theorem takeL {t e : Nat} {f : Option Flit} : s₀.Keeps (s.takeL t e f) := by
  unfold State.takeL
  exact
    have h1 := ite (upTile (iteFst h.useOf h)) <| iteFst h.useOf h
    ite h1.inc <| by
      split
      · exact h1.crossMiss
      · exact ite h1.crossMiss <| ite h1.crossMiss <| by
          split
          · exact h1.halt
          · exact ite h1.crossMiss h1.upTile

theorem takeEdge {t u o : Nat} {f : Flit} : s₀.Keeps (s.takeEdge t u o f) := by
  unfold State.takeEdge
  refine ite h.useOf <| ite h.useOf.chanDeliver ?_
  exact ite h.useOf <| by
    split
    · exact h.useOf
    · split
      · exact h.useOf
      · exact h.useOf.qaccept

theorem edgeFlit {t u port : Nat} {e : Ecc} : s₀.Keeps (s.edgeFlit t u port e).1 := by
  unfold State.edgeFlit
  refine iteFst h.useOf.chanTake.pair <| iteFst h.useOf.takeStaged.pair ?_
  split
  · exact h.useOf.pair
  · exact h.useOf.gcountRead.gcheck.pair

theorem linkCheck {t : Nat} {f : Flit} {e : Ecc} : s₀.Keeps (s.linkCheck t f e).1 :=
  iteFst h <| by
    split
    · exact h
    · exact h.inc.upFault.pair
    · exact h.inc.event.pair

theorem receive {t port : Nat} {e : Ecc} : s₀.Keeps (s.receive t port e) := by
  unfold State.receive
  dsimp only
  split
  · exact h.upTile
  · exact h.upTile.linkCheck.upTile

theorem takeOut {t e port o : Nat} {f : Option Flit} : s₀.Keeps (s.takeOut t e port o f) := by
  unfold State.takeOut
  refine ite h.takeL ?_
  split
  · exact h
  · exact
      have h1 := ite h.inc h
      by
        dsimp only
        split
        · exact ite h1.wr <|
            have h2 := ite h1.upTile h1
            h2.upTile
        · exact h1.takeEdge
        · exact h1

theorem takeFrom {t e port : Nat} {outs : List Nat} {ecc mem : Ecc} : s₀.Keeps (s.takeFrom t e port outs ecc mem) := by
  unfold State.takeFrom
  refine ite (h.wr.foldl fun h => h.takeOut) ?_
  refine ite ?_ ?_
  · refine ite (h.wr.foldl fun h => h.takeOut) ?_
    exact
      have h1 := ite h.inc h
      h1.foldl fun h => h.takeOut
  · refine ite (h.foldl fun h => h.takeOut) ?_
    split
    · exact h.foldl fun h => h.takeOut
    · exact foldl (by
        split
        · exact h.edgeFlit.pair
        · exact h.edgeFlit.linkCheck.pair) fun h => h.takeOut

theorem flitTake {t port : Nat} {ecc mem : Ecc} : s₀.Keeps (s.flitTake t port ecc mem) :=
  ite h <| ite h.upTile.receive h.upTile.receive.takeFrom

theorem landResponse {t m : Nat} {x : XferSlot} {data : Nat} : s₀.Keeps (s.landResponse t m x data) := by
  unfold State.landResponse
  split
  · exact h
  · split
    · exact h
    · exact ite h <| ite h.putSlip.upTile.inc.mfHead h.putSlip

theorem addHalf {t off d : Nat} : s₀.Keeps (s.addHalf t off d) := by
  unfold State.addHalf
  dsimp only
  split
  · exact h.halt
  · exact h.setBytes

theorem landGradient {t m : Nat} {x : XferSlot} {data : Nat} {ecc : Ecc} :
    s₀.Keeps (s.landGradient t m x data ecc) := by
  unfold State.landGradient
  split
  · exact h
  · next off _ =>
    extract_lets entry
    have hr : s₀.Keeps (s.readCheck t [(entry, 4), (off, 64)] 3 ecc).1 := h.readCheck
    split
    next n bad heq =>
    rw [heq] at hr
    extract_lets s1 half
    have h1 : s₀.Keeps s1 := by
      dsimp only [s1]
      split
      · exact hr.halt
      · exact hr
    have hhalf {n : State} {o d : Nat} (hn : s₀.Keeps n) : s₀.Keeps (half n o d) := ite hn hn.addHalf
    exact inc (hhalf (hhalf h1))

theorem landRefused {t c : Nat} : s₀.Keeps (s.landRefused t c) := h.evlog

theorem landSlip {t : Nat} {j : Eject} : s₀.Keeps (s.landSlip t j) :=
  ite h <| ite h.landRefused <| ite h.halt h.putSlip.headAdd.inc

theorem landMan {t : Nat} {j : Eject} {x : XferSlot} {ecc : Ecc} : s₀.Keeps (s.landMan t j x ecc) := by
  unfold State.landMan
  split
  · exact h
  · exact ite h <| ite h.landRefused <| by
      split
      · exact h.setBytes
      · exact h.landResponse
      · exact h.landGradient

theorem ejectLand {t : Nat} {ecc : Ecc} : s₀.Keeps (s.ejectLand t ecc) := by
  unfold State.ejectLand
  split
  · exact h
  · refine ite h <| ite h.upTile ?_
    split
    · exact ite h.upTile.inc <| ite h.upTile.landRefused h.upTile.setBytes.inc
    · exact h.upTile.inc.landMan
    · exact h.upTile.landSlip

theorem crossOver {part c : Nat} : s₀.Keeps (s.crossOver part c) := ite h h.upHub.unbind.mapEngs

theorem entryAdvance {t : Nat} : s₀.Keeps (s.entryAdvance t) := ite h <| ite h.wr.crossOver h.upTile

/-! ## Machine/Links -/

theorem emit {k : Nat} {f : List Byte} : s₀.Keeps (s.emit k f) := h.inc.upPort

theorem sendAck {k : Nat} {nak : Bool} : s₀.Keeps (s.sendAck k nak) := by
  unfold State.sendAck; exact h.emit.upPort

theorem sendNak {k : Nat} : s₀.Keeps (s.sendNak k) := ite h h.inc.wr.upPort.sendAck

theorem linkDown {k reason : Nat} : s₀.Keeps (s.linkDown k reason) := ite h.wr.wr.wr.wr.inc.inc.upPort.event h

theorem hello {k sysid endpoint peerPort buf0 buf1 : Nat} :
    s₀.Keeps (s.hello k sysid endpoint peerPort buf0 buf1) :=
  ite h.actedOn <| ite h.actedOn.wr.wr.wr.upPort h.actedOn.wr.wr.wr

theorem acceptFrame {k vc : Nat} {b : List Byte} : s₀.Keeps (s.acceptFrame k vc b) :=
  ite h.wr.upPort.sendAck h.wr.upPort

theorem resend {k : Nat} : s₀.Keeps (s.resend k) := by
  unfold State.resend
  dsimp only
  split
  · exact h
  · refine ite h.linkDown ?_
    exact
      have h1 := h.inc.wr.foldl fun h => h.inc.emit
      h1.upPort

theorem ackWord {k : Nat} {b : List Byte} : s₀.Keeps (s.ackWord k b) :=
  have h1 := ite h.upPort.wr h.upPort
  ite h1.resend h1

theorem frameIn {k : Nat} {f : List Byte} : s₀.Keeps (s.frameIn k f) := by
  unfold State.frameIn
  refine ite h <| ite h.inc.inc.sendNak ?_
  dsimp only; split
  · exact ite h.inc <| ite h.inc.ackWord h.inc.inc.sendNak
  · exact ite (ite h.inc.upPort h.inc) <| ite h.inc.acceptFrame h.inc.sendNak

theorem firstSend {k vc dst : Nat} {body : List Byte} : s₀.Keeps (s.firstSend k vc dst body) :=
  ite h.inc <|
  have h1 := ite h.upPort.inc h.upPort
  h1.emit

theorem unspill {k n : Nat} : s₀.Keeps (s.unspill k n) := by
  induction n generalizing s with
  | zero => exact h
  | succ n ih =>
    unfold State.unspill
    split
    · exact h
    · exact ite (ih h.upEng) h

theorem frameSend {k : Nat} : s₀.Keeps (s.frameSend k) := by
  unfold State.frameSend
  refine ite h ?_
  split
  · exact ite h.upPort.firstSend h
  · split
    · refine ite ?_ (iteFst h.bucketAdmit h)
      exact
        have h1 := upEng (chargeF (iteFst h.bucketAdmit h))
        h1.unspill.firstSend
    · split
      · exact h
      · refine ite ?_ (iteFst h.bucketAdmit h)
        exact
          have h2 := upEng (chargeF (iteFst h.bucketAdmit h))
          h2.upChan.firstSend

theorem cage {k : Nat} {present low : Bool} : s₀.Keeps (s.cage k present low) := ite h.upPins h.upPins.wr.wr.upCtl

/-! ## Machine/Regs -/

theorem clearRead {blk : Blk} {u off : Nat} : s₀.Keeps (s.clearRead blk u off) :=
  h.foldl fun h => h.foldl fun h => ite h.wr h

theorem writeField {f : Fld} {u i v : Nat} {k : Int} : s₀.Keeps (s.writeField f u i v k) :=
  ite h <| by
    split
    · exact ite h h.wr
    · exact h.wr
    · exact h

theorem write8 {blk : Blk} {u off v : Nat} : s₀.Keeps (s.write8 blk u off v) :=
  have h1 := h.foldl fun h => h.foldl fun h => h.writeField
  ite (h1.foldl fun h => ite h h.wr) h1

/-! ## Machine/Fault -/

theorem stopCore {c : Nat} : s₀.Keeps (s.stopCore c) := h.wr.upCore

theorem portDisable {k : Nat} : s₀.Keeps (s.portDisable k) := h.linkDown.wr

theorem stopAll : s₀.Keeps s.stopAll := h.foldl fun h => h.stop

theorem outOfService {kind unit code data : Nat} : s₀.Keeps (s.outOfService kind unit code data) :=
  ite h.event <|
  have h1 := h.event.wr.wr.stopAll.abandon.foldl fun h => h.cfAbort
  have h2 := h1.foldl fun h => h.portDisable
  have h3 := h2.wr.wr.wr.wr.upRos.foldl fun h => h.stopCore
  h3.upCtl.settle

theorem fencePut {kind unit : Nat} {un : Bool} {actor : Nat} : s₀.Keeps (s.fencePut kind unit un actor) :=
  h.inc.upFault

theorem fenceAsk {kind unit : Nat} {un : Bool} {actor : Nat} : s₀.Keeps (s.fenceAsk kind unit un actor) :=
  ite h.wr h.wr.fencePut

theorem coreCred {c code : Nat} {rec' : Option Nat} : s₀.Keeps (s.coreCred c code rec') := ite h h.wr.wr.upCore

theorem refuseReq {t : Nat} {r : CredReq} {code : Nat} : s₀.Keeps (s.refuseReq t r code) := by
  unfold State.refuseReq
  split
  · split
    · exact h.pushFail
    · exact h
  · exact h.coreCred
  · split
    · exact h.chanStop
    · exact h
  · exact h

theorem fenceTile {t : Nat} : s₀.Keeps (s.fenceTile t) := by
  unfold State.fenceTile
  exact
    have h1 := h.haltRecord.dropWait.wr.returnToken.upTile
    have h2 := h1.wr.foldl fun h => ite h.releaseCred h.wr
    have h3 := h2.foldl fun h => h.refuseReq
    h3.upCtl.upHub

theorem leaseRevoke {n code : Nat} : s₀.Keeps (s.leaseRevoke n code) := by
  unfold State.leaseRevoke; exact h.wr.wr.event

theorem fenceCore {c : Nat} : s₀.Keeps (s.fenceCore c) := by
  unfold State.fenceCore
  exact
    have h1 := h.stopCore.upCore.foldl fun h => h.wr
    have h2 := h1.wr.foldl fun h => ite h.leaseRevoke h
    h2.upHub

theorem fenceQuay {q : Nat} : s₀.Keeps (s.fenceQuay q) := by
  unfold State.fenceQuay; exact h.upQuay.wabSync.wr.upHub

theorem fenceExecute : s₀.Keeps s.fenceExecute := by
  unfold State.fenceExecute
  split
  · refine ite h ?_
    refine ite ?_ ?_
    · refine outOfService ?_
      exact event (by
        split
        · exact h.upFault.fenceTile
        · exact h.upFault.fenceCore
        · exact h.upFault.fenceQuay)
    · exact event (by
        split
        · exact h.upFault.fenceTile
        · exact h.upFault.fenceCore
        · exact h.upFault.fenceQuay)
  · exact h

theorem walkEnd : s₀.Keeps s.walkEnd := by
  unfold State.walkEnd
  split
  · exact h
  · exact
      have h1 := ite h <| h.foldl fun h => h.foldl fun h => h.reclaimSlip
      have h2 := h1.upHub.foldl fun h => h.soMark
      h2.upFault

theorem seedCore {c : Nat} : s₀.Keeps (s.seedCore c) := ite h.upBoot h.upBoot.outOfService

theorem unfenceExecute : s₀.Keeps s.unfenceExecute := by
  unfold State.unfenceExecute
  split
  · refine ite h ?_
    refine event ?_
    split
    · exact
        have h1 := h.upFault.dropMem.dropRf.matrixReset.wr.upTile
        h1.wr
    · exact h.upFault.dropRf.upCore.seedCore.wr
  · exact h

theorem coreFault {c code detail addr : Nat} : s₀.Keeps (s.coreFault c code detail addr) :=
  ite (have h1 := h.wr.wr.wr.wr.wr.wr.wr.upCore.wr.stopCore
     ite h1.outOfService h1.event.fenceAsk)
    h.wr.wr.wr.wr.wr.wr.wr.upCore.wr

theorem edcFail {q : Nat} {write : Bool} : s₀.Keeps (s.edcFail q write) :=
  ite h <| ite h.inc.upQuay <| ite h.upQuay.fenceAsk.outOfService h.upQuay.upQuay

theorem leaseWrite {c n : Nat} {k : State} (hk : s₀.Keeps k) : s₀.Keeps (s.leaseWrite c n k) :=
  ite h <| ite h.coreFault hk

theorem leaseAcquire {c n term : Nat} : s₀.Keeps (s.leaseAcquire c n term) := ite h.wr.wr.wr.inc h

theorem leaseRenew {c n term : Nat} : s₀.Keeps (s.leaseRenew c n term) := ite h.wr h

theorem leaseRelease {c n : Nat} : s₀.Keeps (s.leaseRelease c n) := ite h.wr h

/-! ## Machine/Access -/

theorem asWho {a : Accessor} : s₀.Keeps (s.asWho a) := by
  unfold State.asWho
  split
  · exact h.wr.wr.upCore
  · exact h.wr.wr.upCore
  · exact h.wr.wr.wr.upCore
  · exact h
  · exact h

theorem freeRevoked {t i : Nat} : s₀.Keeps (s.freeRevoked t i) := h.foldl fun h => ite h.freeCred h

theorem slipWrite {t off v : Nat} : s₀.Keeps (s.slipWrite t off v).1 :=
  iteFst h <|
  have h1 := ite h.write8.freeRevoked h.write8
  iteFst (iteFst h h1.wr.wr.pair) h1

theorem ctrlWrite {t v : Nat} : s₀.Keeps (s.ctrlWrite t v) :=
  have h1 := ite h.write8.go h.write8
  have h2 := ite h1.resume h1
  ite h2.stop h2

theorem tileWrite8 {t : Nat} {who : Accessor} {off v : Nat} : s₀.Keeps (s.tileWrite8 t who off v).1 :=
  iteFst (iteFst h.write8.pair h) <|
  iteFst (iteFst h.write8.pair h) <|
  iteFst h.slipWrite <|
  iteFst (iteFst h.write8.pair h) <|
  iteFst (iteFst h <| iteFst h.write8.pair h) <|
  iteFst (iteFst h <| iteFst h h.write8.pair) <| iteFst h.ctrlWrite.pair h.write8.pair

theorem tileWrites {t : Nat} {who : Accessor} {off : Nat} {l : List Nat} : s₀.Keeps (s.tileWrites t who off l).1 := by
  induction l generalizing s off with
  | nil => exact h
  | cons v r ih =>
    have h1 := h.tileWrite8 (t := t) (who := who) (off := off) (v := v)
    unfold State.tileWrites
    split <;> rename_i e <;> rw [e] at h1
    · exact ih h1
    · exact h1

theorem spadAccess {t off size : Nat} {wr : Option (List Byte)} {ecc : Ecc} :
    s₀.Keeps (s.spadAccess t off size wr ecc).1 :=
  iteFst h <| by
    split
    · exact iteFst h.readCheck.pair h.readCheck.pair
    · exact iteFst h h.setBytes.pair

theorem ctrlAccess {t : Nat} {who : Accessor} {off size : Nat} {wr : Option (List Byte)} :
    s₀.Keeps (s.ctrlAccess t who off size wr).1 := by
  unfold State.ctrlAccess
  refine iteFst h ?_
  split
  · refine iteFst h ?_
    exact
      have h1 := h.foldl fun h => h.clearRead
    h1
  · exact iteFst h.tileWrite8.pair h.tileWrites.pair

theorem logRefused {t : Nat} {who : Accessor} {code : Nat} : s₀.Keeps (s.logRefused t who code) := by
  unfold State.logRefused
  split
  · split
    · exact h.evlog
    · exact h.evlog
    · exact h.evlog
    · exact h.evlog
    · exact h.evlog
    · exact h.drawn.evlog
  · exact h
  · exact ite h.evlog h

theorem outside {t : Nat} {who : Accessor} {off size : Nat} {wr : Option (List Byte)} {ecc : Ecc} :
    s₀.Keeps (s.outside t who off size wr ecc).1 :=
  iteFst (iteFst h <| iteFst h <| iteFst h <| iteFst h.spadAccess h.ctrlAccess) <|
  pair (logRefused (iteFst h <| iteFst h <| iteFst h <| iteFst h.spadAccess h.ctrlAccess))

theorem coreEnds {c code addr : Nat} {d : List Byte} {wr : Bool} : s₀.Keeps (s.coreEnds c code addr d wr) :=
  ite h.coreFault <| ite h h.upCore

theorem dbgGo : s₀.Keeps s.dbgGo := ite h <| ite h.wr h.wr

theorem dbgAccess {ecc : Ecc} : s₀.Keeps (s.dbgAccess ecc) :=
  ite h <| ite h.wr.wr <| ite h.wr.outside.wr.wr h.wr.outside.wr

theorem dbgMake {t off size : Nat} {wr : Option (List Byte)} {ecc : Ecc} : s₀.Keeps (s.dbgMake t off size wr ecc) :=
  ite h <| dbgAccess (dbgGo (by
    split
    · exact h.wr.wr.wr
    · exact h.wr.wr))

theorem credRequest {t slip bytes cls unit : Nat} : s₀.Keeps (s.credRequest t slip bytes cls unit) :=
  ite h <|
  have h1 := ite h.upCore h
  by
    dsimp only
    split
    · exact h1.credQueue
    · exact h1.refuse.refuseReq

theorem credTell {t c : Nat} {r : CredReq} : s₀.Keeps (s.credTell t c r) := by
  unfold State.credTell
  split
  · exact h.upQuay
  · exact h.coreCred
  · exact h.chanGranted

theorem credGrant {t : Nat} : s₀.Keeps (s.credGrant t) := by
  unfold State.credGrant
  split
  · exact h.openCred.credTell
  · exact h

theorem credArrive {t c cls unit off : Nat} {d : List Byte} {last : Bool} :
    s₀.Keeps (s.credArrive t c cls unit off d last) := by
  unfold State.credArrive
  dsimp only
  split
  · exact ite h.credWrite.upCore h.credWrite
  · split
    · split
      · exact h.credRefused.refuse.pushFail
      · exact h.credRefused.refuse
    · exact h.credRefused.refuse.coreFault
    · split
      · exact h.credRefused.refuse.chanStop
      · exact h.credRefused.refuse
    · exact h.credRefused.refuse

theorem soOp {c op obj val : Nat} : s₀.Keeps (s.soOp c op obj val) := ite h h.toHub.upCore

theorem soOpDone {c : Nat} : s₀.Keeps (s.soOpDone c) := by
  unfold State.soOpDone
  split
  · exact h
  · exact ite h.upHub <| ite h.upHub.upCore h.upHub.upCore.coreFault

theorem barArrive {c b : Nat} : s₀.Keeps (s.barArrive c b) := ite h <| ite h.coreFault h.gridStart.arrive

/-! ## Machine/Hold -/

theorem sample : s₀.Keeps s.sample :=
  ite h <|
  have h1 := h.foldl fun h => ite h.inc h
  have h2 := h1.foldl fun h => ite h.inc h
  ite h2.upHub h2.upHub.wr.wr.wr.wr

theorem holdBegin : s₀.Keeps s.holdBegin := ite h h.wr.wr.upHub

theorem slackTile {attr t : Nat} : s₀.Keeps (s.slackTile attr t) := ite h.addIdle <| ite h.addIdle h.addIdle

theorem holdPoll : s₀.Keeps s.holdPoll :=
  ite h <|
  have h1 := ite h.wr.inc.inc <| ite h.wr.inc.inc.inc <| ite h.wr.inc.inc.inc h.wr.inc.inc
  have h2 := h1.foldl fun h => h.slackTile
  h2.upHub

theorem endSlack : s₀.Keeps s.endSlack := ite h h.wr.wr.wr.upHub

/-! ## Machine/Roster -/

theorem entWr {n w v : Nat} : s₀.Keeps (s.entWr n w v) := h.wr

theorem ctlWr {n lo w v : Nat} : s₀.Keeps (s.ctlWr n lo w v) := h.entWr

theorem entStop {n reason : Nat} : s₀.Keeps (s.entStop n reason) := by
  unfold State.entStop; exact h.ctlWr.ctlWr.upRos

theorem rosCmd {n op : Nat} : s₀.Keeps (s.rosCmd n op) :=
  ite h.wr.wr.wr.wr <|
  ite h.wr.wr.wr.wr.ctlWr.ctlWr.entWr.entWr <| ite (ite h.wr.wr.wr.wr.ctlWr h.wr.wr.wr.wr.entStop) h.wr.wr.wr.wr.ctlWr

theorem rosPut {a : Nat} {d : List Byte} : s₀.Keeps (s.rosPut a d) := h.gpost

theorem poolPush {page : Nat} : s₀.Keeps (s.poolPush page) := ite h.wr h.rosPut.wr

theorem poolTake {r : State × Nat} (hr : s.poolTake = some r) : s₀.Keeps r.1 := by
  unfold State.poolTake at hr
  dsimp only at hr
  split at hr
  · cases hr
  · cases hr; exact h.wr.upRos.pair

theorem rosSync : s₀.Keeps s.rosSync := h.wr.wr

theorem defer {n : Nat} : s₀.Keeps (s.defer n) := h.ctlWr.inc

theorem placeOne {x : Placing} {n : Nat} : s₀.Keeps (s.placeOne x n).1 := by
  unfold State.placeOne
  extract_lets ln p _ r
  have hr : s₀.Keeps r.1 := by
    refine iteFst ?_ h
    split
    · exact h.ctlWr.defer.inc
    · exact (h.poolTake ‹_›).rosPut.ctlWr.inc
  refine iteFst h.entStop <| iteFst h.entStop ?_
  refine iteFst hr ?_
  split
  · exact hr.defer
  · exact hr.ctlWr.ctlWr

theorem phase1 : s₀.Keeps s.phase1 := ite h (rosSync (upRos (foldlFst h fun h => h.placeOne)))

theorem writeList {l : RList} : s₀.Keeps (s.writeList l) :=
  h.rosPut.foldl fun h =>
    have h1 := h.rosPut.foldl fun h => h.rosPut
    h1.rosPut

theorem phase1End : s₀.Keeps s.phase1End := by
  unfold State.phase1End
  split
  · exact ite h <| ite h.wr h.writeList.wr.upRos.rosSync
  · exact h

theorem logFreed : s₀.Keeps s.logFreed := by
  unfold State.logFreed
  split
  · exact ite h.wr h
  · exact h

theorem setVoids {l : RList} : s₀.Keeps (s.setVoids l).1 :=
  have h1 := h.foldl fun h => h.defer
  have h2 := h1.foldl fun h => h.rosPut.rosPut
  h2.inc.pair

theorem publish : s₀.Keeps s.publish := by
  unfold State.publish
  split
  · exact h
  · refine ite h <| ite (rosSync (upRos (iteFst h h.setVoids))) ?_
    exact
      have h1 := rosPut (iteFst h h.setVoids)
      have h2 := h1.foldl fun h => h.rosPut
      ite h2.wr.inc.upRos.rosSync.toHub h2.wr.inc.upRos.rosSync

theorem commitArrive {t : Nat} : s₀.Keeps (s.commitArrive t) := by
  unfold State.commitArrive
  split
  · exact h
  · split
    · exact ite h.upRos.upRos h
    · exact h.upRos.inc.upRos

theorem patchBuild {n token : Nat} : s₀.Keeps (s.patchBuild n token) := by
  unfold State.patchBuild
  split
  · exact h
  · exact ite (h.upRos.foldl fun h => h.rosPut) h.upRos

theorem commitApply : s₀.Keeps s.commitApply := by
  unfold State.commitApply
  split
  · split
    · exact h.upRos
    · exact
        have h1 := ite h.upRos.entWr.entWr.entWr.ctlWr <| ite h.upRos.entWr.entWr.ctlWr h.upRos.entWr.entWr
        have h2 := ite h1.entWr.ctlWr h1.entWr
        have h3 := ite h2.rosPut.inc.inc.patchBuild h2.rosPut.inc.inc.patchBuild.entStop
        have h4 := ite h3.ctlWr h3
        have h5 := ite h4.upRos h4
        h5.rosSync
  · exact h

theorem rosBuild : s₀.Keeps s.rosBuild := ite h.upRos h

theorem rosFinalize : s₀.Keeps s.rosFinalize := by
  unfold State.rosFinalize
  split
  · exact h
  · exact h.upRos

theorem rosEnable {on : Bool} : s₀.Keeps (s.rosEnable on) := ite h <| rosSync (ite h.wr.wr.upRos.wr h.wr.wr.upRos)

theorem rosEntryWrite {c n w v : Nat} : s₀.Keeps (s.rosEntryWrite c n w v) :=
  ite h <| ite h.coreFault <| ite h.entWr h.coreFault

theorem poolPop : s₀.Keeps s.poolPop := by
  unfold State.poolPop
  split
  · exact h.wr
  · exact (h.poolTake ‹_›).wr

/-! ## Machine/Landing -/

theorem putLine {l : CLine} : s₀.Keeps (s.putLine l) :=
  ite h.other <| by
    dsimp only
    split
    · exact h.other
    · exact ite h.drawn.other.gpost h.drawn.other

theorem lecc {c a : Nat} {locked : Bool} : s₀.Keeps (s.lecc c a locked) := by
  unfold State.lecc; exact h.inc.wr.wr.wr.event

theorem lcorr {c : Nat} : s₀.Keeps (s.lcorr c) := h.inc.upFault

theorem lockLine {a : Nat} {d : List Byte} : s₀.Keeps (s.lockLine a d) := h.putLine

theorem upStream {c slot : Nat} {f : Stream → Stream} : s₀.Keeps (s.upStream c slot f) := h.upCore

theorem streamBack {c a m : Nat} : s₀.Keeps (s.streamBack c a m) := by
  unfold State.streamBack
  split
  · exact h
  · exact h.other.foldl fun h => h.gpost

theorem streamEnd {c : Nat} {x : Stream} : s₀.Keeps (s.streamEnd c x) := h.wr.upCore.inc.foldl fun h => h.streamBack

theorem streamRead {c a : Nat} : s₀.Keeps (s.streamRead c a) := by
  unfold State.streamRead
  exact h.foldl fun h => by
    dsimp only
    split
    · exact ite h <|
        have h1 := ite h.inc.inc h.inc
        ite h1.upStream.streamEnd h1.upStream
    · exact h

theorem streamWrite {c a n : Nat} : s₀.Keeps (s.streamWrite c a n) := by
  unfold State.streamWrite
  exact h.foldl fun h => by
    dsimp only
    split
    · exact ite h <|
        have h1 := ite h.streamBack h
        ite h1.upStream.streamEnd h1.upStream
    · exact h

theorem streamGo {c slot : Nat} : s₀.Keeps (s.streamGo c slot) := ite h <| by
  split
  · exact h.coreFault
  · exact h.wr.upCore

theorem streamCancel {c slot : Nat} : s₀.Keeps (s.streamCancel c slot) := by
  unfold State.streamCancel
  split
  · exact h
  · exact h.streamEnd

theorem streamFill {c slot : Nat} {ecc : Ecc} : s₀.Keeps (s.streamFill c slot ecc) := by
  unfold State.streamFill
  split
  · exact h
  · refine ite h ?_
    exact
      have h1 := h.inc.gcountRead.chargeRead.gcheck.upStream
      ite h1 <| by
        split
        · exact ite h1 <| ite h1.gpost.putLine h1.putLine
        · exact h1.putLine

theorem gRead {c a n virt : Nat} {ecc : Ecc} : s₀.Keeps (s.gRead c a n virt ecc) := by
  unfold State.gRead
  dsimp only
  split
  · exact h.streamRead.upCore
  · refine ite h.streamRead.coreFault ?_
    split
    · exact h.streamRead.upCore
    · exact h.streamRead.lcorr.upCore
    · exact ite h.streamRead.lecc.lockLine.coreFault h.streamRead.lecc.putLine.upCore

theorem gWrite {c a virt : Nat} {d : List Byte} {ecc : Ecc} : s₀.Keeps (s.gWrite c a virt d ecc) := by
  unfold State.gWrite
  split
  · exact ite h.coreFault h.putLine.streamWrite
  · refine ite (coreFault (iteFst h.drawn.pair h.gcountRead.chargeRead.gcheck)) ?_
    exact streamWrite (putLine (iteFst h.drawn.pair h.gcountRead.chargeRead.gcheck))

theorem sramAccess {c a n virt : Nat} {wr : Option (List Byte)} {ecc : Ecc} :
    s₀.Keeps (s.sramAccess c a n virt wr ecc) := by
  unfold State.sramAccess
  refine ite h.coreFault ?_
  split
  · exact h.setBytes
  · split
    · exact h.upCore
    · exact h.lcorr.upCore
    · exact h.lecc.lockLine.coreFault

theorem memDone {c : Nat} {ecc : Ecc} : s₀.Keeps (s.memDone c ecc) := by
  unfold State.memDone
  split
  · exact h
  · refine ite h <| ite (iteFst h.bucketAdmit h) ?_
    exact
      have h1 := upCore (iteFst h.bucketAdmit h)
      ite h1.outside.coreEnds <| by
        split
        · exact h1.coreFault
        · exact ite h1.coreFault <| ite h1.gcheck.gcountRead.chargeRead.coreFault h1.gcheck.gcountRead.chargeRead.putLine.upCore

theorem fenceWait {c : Nat} : s₀.Keeps (s.fenceWait c) := ite h h.upCore

theorem dropCoreWait {c : Nat} : s₀.Keeps (s.dropCoreWait c) := by
  unfold State.dropCoreWait; exact h.upHub

theorem soWaitWrite {c obj : Nat} : s₀.Keeps (s.soWaitWrite c obj) := ite h h.dropCoreWait.toHub.upCore

theorem soReturn {c code : Nat} : s₀.Keeps (s.soReturn c code) := ite h.wr.upCore.coreFault h.wr.upCore

theorem soResultRead {c : Nat} : s₀.Keeps (s.soResultRead c) :=
  ite h <| by
    split
    · exact h.upCore
    · exact h.upCore
    · exact h.soReturn

theorem soWaitAnswer {c : Nat} : s₀.Keeps (s.soWaitAnswer c) := by
  unfold State.soWaitAnswer
  dsimp only
  split
  · exact h
  · split
    · exact ite h.upHub <| ite h.upHub.soReturn h.upHub.upCore
    · exact h.upHub

theorem soLimit {c : Nat} : s₀.Keeps (s.soLimit c) := by
  unfold State.soLimit
  split
  · exact ite h h.dropCoreWait.soReturn
  · exact h

theorem credReqWrite {c t slip bytes : Nat} : s₀.Keeps (s.credReqWrite c t slip bytes) :=
  ite h <| ite h.coreFault <| ite h.coreCred h.credRequest

theorem credResultRead {c : Nat} : s₀.Keeps (s.credResultRead c) := ite h <| by
  split
  · exact h.upCore
  · exact h.upCore

theorem aperture {c j : Nat} {d : List Byte} : s₀.Keeps (s.aperture c j d) :=
  ite h <| ite h.coreFault <| by
    split
    · exact ite h.credArrive.upCore h.credArrive
    · exact h.coreFault

theorem privileged {c off : Nat} {k : State} (hk : s₀.Keeps k) : s₀.Keeps (s.privileged c off k) :=
  ite h <| ite h.coreFault hk

theorem cacheGo {op base lines : Nat} : s₀.Keeps (s.cacheGo op base lines) := ite h <| ite h.wr.wr.wr h.wr.wr.wr.wr

theorem dropSram {a : Nat} : s₀.Keeps (s.dropSram a) := h.drawn.setBytes

theorem cacheLine {op : Nat} {l : CLine} : s₀.Keeps (s.cacheLine op l) :=
  have h1 := ite h.gpost.putLine h
  ite (ite h1.other.dropSram h1.other) h1

theorem cacheDone : s₀.Keeps s.cacheDone := ite h <| wr (h.foldl fun h => h.cacheLine)

theorem lsramWrite {c v : Nat} : s₀.Keeps (s.lsramWrite c v) :=
  ite h <| ite h.coreFault <| wr (h.foldl fun h => h.cacheLine)

theorem epochWrite {c v : Nat} : s₀.Keeps (s.epochWrite c v) := ite h <| ite h.wr.wr.inc h.coreFault

theorem preempt {c : Nat} : s₀.Keeps (s.preempt c) := ite h.wr.upCore h

/-! ## Machine/Power -/

theorem regulatorAdmit {p : Nat} {fab : Bool} {n : Nat} : s₀.Keeps (s.regulatorAdmit p fab n) := ite h.spend.upPower h

theorem addEnergy {c uj : Nat} : s₀.Keeps (s.addEnergy c uj) := by
  unfold State.addEnergy; exact h.inc.upPower

theorem windowEnd : s₀.Keeps s.windowEnd := by
  unfold State.windowEnd
  exact
    have h1 := h.foldl fun h => ite h.addEnergy h
    h1.addEnergy.upPower

theorem grantSync : s₀.Keeps s.grantSync := ite h <| ite h.wr.wr.wr.wr.inc.cpEvent h.wr.wr.wr.wr

theorem clampSample {dw cv : Nat} : s₀.Keeps (s.clampSample dw cv) :=
  ite h <|
  ite h.upPower.wr.wr.wr.wr.grantSync.inc.wr.upPower <|
  ite h.upPower.wr.wr.wr.wr.grantSync.wr.upPower h.upPower.wr.wr.wr.wr.grantSync

theorem throttleSync : s₀.Keeps s.throttleSync := h.wr

theorem sensorRead {die : Nat} : s₀.Keeps (s.sensorRead die) := h.wr.upPower.throttleSync.grantSync

theorem devTemp {q temp : Nat} : s₀.Keeps (s.devTemp q temp) := ite h h.wr.wr.wr.upPower.throttleSync.grantSync

theorem grantTick {mem : Bool} : s₀.Keeps (s.grantTick mem) := grantSync (ite h.upPower h.upPower)

theorem writeCaps : s₀.Keeps s.writeCaps := h.foldl fun h => h.wr

theorem noteBoundary {p : Nat} : s₀.Keeps (s.noteBoundary p) := by
  unfold State.noteBoundary; exact h.upCtl

theorem meet {o : Nat} : s₀.Keeps (s.meet o) :=
  have h1 := ite h.wr h
  h1.upHub.soEval

theorem meetBoundary {p : Nat} : s₀.Keeps (s.meetBoundary p) := h.upCtl.foldl fun h => h.meet

theorem changeRoast {p r b : Nat} : s₀.Keeps (s.changeRoast p r b) := by
  unfold State.changeRoast
  split
  · exact h
  · exact
      have h1 := h.noteBoundary.foldl fun h => h.stop
    meetBoundary (foldl (writeCaps (inc (wr (h1.foldl fun h => wr (wr (by
      split
      · exact h.wr
      · exact h)))))) fun h => h.go)

theorem selectRoast {p b : Nat} : s₀.Keeps (s.selectRoast p b) := ite h <| ite h h.changeRoast.settle

theorem idleEntry : s₀.Keeps s.idleEntry := ite h.upPower h

theorem seeded : s₀.Keeps s.seeded := ite h <| ite h.outOfService <| h.clockBegin.foldl fun h => h.applyHeld

/-! ## Machine/Port -/

theorem setHeld {p : CmdPort} {h' : Option Held} : s₀.Keeps (s.setHeld p h') := by
  unfold State.setHeld
  split
  · exact h.upCtl
  · exact h.upCtl

theorem onBus : s₀.Keeps s.onBus := ite h h.upPins

theorem takeIn {p : CmdPort} {r : List Byte} : s₀.Keeps (s.takeIn p r) := by
  unfold State.takeIn
  split
  · exact h.setHeld.upCtl
  · exact h.setHeld.upCtl.wr.wr.wr.wr.inc.upCtl

theorem putReq {o : Nat} {d : List Byte} : s₀.Keeps (s.putReq o d) := h.upCtl

theorem doorbell {p : CmdPort} {req : List Byte} : s₀.Keeps (s.doorbell p req) := by
  unfold State.doorbell
  split
  · exact ite h <| ite h.onBus h.onBus.takeIn
  · exact ite h <| ite h.putReq.wr.cpEvent h.putReq.takeIn

theorem letGo {p : CmdPort} : s₀.Keeps (s.letGo p) := h.setHeld.upCtl

theorem complete {p : CmdPort} : s₀.Keeps (s.complete p) := by
  unfold State.complete
  split
  · exact h
  · split
    · exact h
    · split
      · exact h.letGo.upCtl
      · exact h.letGo.upCtl.wr.wr.cpEvent

theorem reply {p : CmdPort} {r d : Nat} {body : List Byte} : s₀.Keeps (s.reply p r d body) := h.setHeld

theorem serve {op : Nat} {ok : List Byte → Bool} {run : State → Ran} (hrun : ∀ {n}, s₀.Keeps n → s₀.Keeps (run n).1) :
    s₀.Keeps (s.serve op ok run) := by
  unfold State.serve
  split
  · exact h
  · exact hrun h
  · dsimp only
    split
    · exact (hrun h).reply
    · exact (hrun h).setHeld

theorem finish {op r : Nat} {body : List Byte} : s₀.Keeps (s.finish op r body) := by
  unfold State.finish
  split
  · exact h
  · exact h.reply

theorem relayTimeout {p : CmdPort} : s₀.Keeps (s.relayTimeout p) := by
  unfold State.relayTimeout
  split
  · exact h
  · exact ite h h.outOfService.reply.complete

theorem copyWin {blk : Blk} {l : List (Nat × Nat × Nat)} : s₀.Keeps (s.copyWin blk l) := h.foldl fun h => h.upCtl

theorem refreshWin : s₀.Keeps s.refreshWin :=
  ite h.copyWin <|
  have h1 := h.copyWin.copyWin.copyWin.copyWin.copyWin
  h1.upCtl

theorem fnReset : s₀.Keeps s.fnReset := h.dropRf.upCtl

theorem configure {d3 bme en : Option Bool} : s₀.Keeps (s.configure d3 bme en) :=
  ite h <|
  have h1 := ite h.fnReset h
  h1.upCtl.msixFlush

/-! ## Machine/Routes -/

theorem poke {a v : Nat} : s₀.Keeps (s.poke a v) := by
  unfold State.poke
  split
  · exact h.write8
  · exact h

/-! ## Machine/Load -/

theorem badState : s₀.Keeps (badState s).1 := h

theorem onPart {p : Nat} {run : Nat → Ran} (hrun : ∀ p, s₀.Keeps (run p).1) : s₀.Keeps (onPart s p run).1 :=
  iteFst h (hrun p)

theorem putBack {x : Nat × List Host.Cell × Cells} : s₀.Keeps (s.putBack x) :=
  putRf (h.dropMem.dropRf.foldl fun h => h.setByte)

theorem putDecls {t : Nat} {l : List Decl} : s₀.Keeps (s.putDecls t l) := h.foldl fun h => h.wr.wr.wr.wr.wr.wr

theorem putTile {x : TTile} {r : Nat} : s₀.Keeps (s.putTile x r) :=
  have h1 := h.foldl fun h => h.setBytes
  have h2 := h1.foldl fun h => h.setBytes
  h2.putDecls.wr.wr

theorem putCurs {im : Image} {r : Nat} : s₀.Keeps (s.putCurs im r) := h.foldl fun h => ite h.wr.wr h

theorem putObjs {o : Obj} {x : Site} : s₀.Keeps (s.putObjs o x) :=
  h.foldl fun h => by
    dsimp only
    split
    · exact h
    · exact h.wr.wr.wr.wr.wr.wr

theorem freeObjects {l : List Nat} : s₀.Keeps (s.freeObjects l) := h.foldl fun h => h.wr.wr.wr.wr.wr.wr

theorem dropImage {p c : Nat} : s₀.Keeps (s.dropImage p c) := by
  unfold State.dropImage
  split
  · exact h
  · exact
      have h1 := h.freeObjects.foldl fun h => h.poke
      h1.upCtl

theorem bindModel {c m : Nat} : s₀.Keeps (s.bindModel c m) := ite h.wr h

theorem install {o : Obj} {b : Build} {im : Image} : s₀.Keeps (s.install o b im) := by
  unfold State.install
  exact
    have h1 := h.foldl fun h => h.stop
    have h2 := h1.dropImage.foldl fun h => h.putTile
    have h3 := h2.foldl fun h => h.poke
    h3.putObjs.putCurs.setResumable.upCtl

theorem installAside {o : Obj} {b : Build} {im : Image} : s₀.Keeps (s.installAside o b im) := by
  unfold State.installAside
  exact upCtl (putObjs (h.dropImage.foldl fun h => h.poke))

theorem fetchFails {f : Nat} : s₀.Keeps (s.fetchFails f).1 := h.drawn.pair

theorem sendReq {l : Load} {off len n tries : Nat} : s₀.Keeps (s.sendReq l off len n tries).1 := h.vc1.upCtl.pair

theorem sendMore {l : Load} {n : Nat} : s₀.Keeps (s.sendMore l n).1 := by
  induction n generalizing s l with
  | zero => exact h
  | succ n ih => exact iteFst h (ih h.sendReq)

theorem loadBegin {p c ingest len digest name : Nat} : s₀.Keeps (s.loadBegin p c ingest len digest name).1 :=
  iteFst h.badState <| iteFst h.fetchFails <| iteFst h.fetchFails <| iteFst h.fetchFails h.sendMore.upCtl.pair

theorem loadObject {l : Load} : s₀.Keeps (s.loadObject l).1 := by
  unfold State.loadObject
  refine iteFst h.fetchFails ?_
  split
  · exact h
  · refine iteFst h ?_
    split
    · exact h
    · exact
        have h1 := ite h.install h.installAside
        h1.bindModel.pair

theorem loadEnd {run : State → Ran} (hrun : ∀ {n}, s₀.Keeps n → s₀.Keeps (run n).1) : s₀.Keeps (s.loadEnd run) :=
  (hrun h.upCtl).finish.settle

theorem fetchRetry {l : Load} {r : Fetch} : s₀.Keeps (s.fetchRetry l r) :=
  ite (h.loadEnd (fun h => h.fetchFails)) h.sendReq.upCtl

theorem fetchData {k id off : Nat} {d : List Byte} : s₀.Keeps (s.fetchData k id off d) := by
  unfold State.fetchData
  dsimp only
  split
  · exact h.actedOn
  · split
    · exact h.actedOn
    · exact ite h.actedOn h.actedOn.gset.upCtl

theorem fetchEnd {k id st total : Nat} : s₀.Keeps (s.fetchEnd k id st total) := by
  unfold State.fetchEnd
  dsimp only
  split
  · exact h.actedOn
  · split
    · exact h.actedOn
    · refine ite h.actedOn <| ite (h.actedOn.loadEnd (fun h => h.fetchFails)) ?_
      refine ite h.actedOn.fetchRetry ?_
      exact ite (h.actedOn.sendMore.loadEnd (fun h => h.loadObject)) h.actedOn.sendMore.upCtl

theorem fetchTimeout {id : Nat} : s₀.Keeps (s.fetchTimeout id) := by
  unfold State.fetchTimeout
  split
  · exact h
  · split
    · exact h
    · exact h.fetchRetry

theorem unload {p c : Nat} : s₀.Keeps (s.unload p c).1 :=
  iteFst h.badState <|
  have h1 := ite h.dropImage.setResumable h.dropImage
  h1

theorem startImage {im : Image} : s₀.Keeps (s.startImage im) :=
  have h1 := h.wr.writeCaps.foldl fun h => ite h.wr h
  setRun (h1.putCurs.gridStart.foldl fun h => h.go)

theorem startRun {p : Nat} : s₀.Keeps (s.startRun p).1 := by
  unfold State.startRun
  dsimp only
  split
  · exact h.badState
  · refine iteFst h.badState ?_
    refine iteFst ?_ ?_
    · exact
        have h1 := h.gridStart.foldl fun h => h.resume
        h1.setRun.meetBoundary.setResumable.pair
    · exact iteFst (by
        split
        · exact h
        · exact h.install.startImage.pair) h.startImage.pair

theorem relayed {op : Nat} {ok : List Byte → Bool} {run : State → Ran} (hrun : ∀ {n}, s₀.Keeps n → s₀.Keeps (run n).1) :
    s₀.Keeps (s.relayed op ok run) := (h.serve hrun).settle

/-! ## Machine/Partition -/

theorem routerParts : s₀.Keeps s.routerParts := by
  unfold State.routerParts; exact h.foldl fun h => by
    split
    · exact h.wr.wr
    · exact h.wr.wr

theorem setParts {a m : List Nat} : s₀.Keeps (s.setParts a m).1 := by
  unfold State.setParts
  split
  · exact h
  · refine iteFst h.badState ?_
    exact
      have h2 := h.foldl fun h =>
          have h1 := h.foldl fun h => h.wr
          h1.foldl fun h => h.wr
      h2.routerParts.writeCaps.pair

theorem stopPart {p : Nat} : s₀.Keeps (s.stopPart p) :=
  have h1 := h.foldl fun h => h.stop
  h1.abandon.setRun.setResumable

theorem stopGrid {m : Nat} : s₀.Keeps (s.stopGrid m).1 :=
  iteFst h <|
  iteFst h.badState <|
  have h1 := h.foldl fun h => h.stopPart
  pair (ite h1.endSlack h1)

theorem haltTile {t : Nat} : s₀.Keeps (s.haltTile t).1 := iteFst h <| iteFst h.badState h.stop.pair

theorem fenceRun {kind unit : Nat} {un : Bool} : s₀.Keeps (s.fenceRun kind unit un).1 := by
  unfold State.fenceRun
  split
  · exact h
  · exact iteFst h.fencePut.pair h.badState
  · exact h.badState

theorem walkDone : s₀.Keeps s.walkDone := by
  unfold State.walkDone
  split
  · exact h
  · exact ite h.walkEnd.finish h.walkEnd

theorem unfenceDone : s₀.Keeps s.unfenceDone := by
  unfold State.unfenceDone
  split
  · exact h
  · exact ite h.unfenceExecute.finish h.unfenceExecute

/-! ## Machine/Switch -/

theorem chargeMove {c t : Nat} {wr : Bool} : s₀.Keeps (s.chargeMove c t wr) :=
  have h1 := ite h.inc h.inc
  h1.inc

theorem toPhase {x : Switch} {n : Nat} : s₀.Keeps (s.toPhase x n) := h.wr.upCtl

theorem switchBegin {ps : List (Nat × Nat)} {dev : Bool} {model : Nat} : s₀.Keeps (s.switchBegin ps dev model) :=
  have h1 := h.foldl fun h => wr (h.noteBoundary.foldl fun h => h.stop)
  h1.wr.wr.upCtl.gridStart.toPhase

theorem switchRun {m fl cl model : Nat} : s₀.Keeps (s.switchRun m fl cl model).1 :=
  iteFst h <| iteFst h.badState <| iteFst h.switchBegin.pair h.upCtl.pair

theorem switchPoll : s₀.Keeps s.switchPoll := by
  unfold State.switchPoll
  split
  · exact h
  · exact ite h.switchBegin.settle h

theorem switchExpire : s₀.Keeps s.switchExpire := ite h.switchPoll h.switchPoll.upCtl.finish

theorem fillSlot {t : Nat} : s₀.Keeps (s.fillSlot t) := h.foldl fun h => h.drawn.setBytes

theorem switchDrained : s₀.Keeps s.switchDrained := by
  unfold State.switchDrained
  split
  · exact h
  · refine ite h ?_
    exact
      have h1 := h.wr.foldl fun h => h.foldl fun h => h.fillSlot
      h1.toPhase

theorem saveBlocks {p c t : Nat} : s₀.Keeps (s.saveBlocks p c t) := ite h <| h.foldl fun h => h.setBytes

theorem saveContext {p : Nat} : s₀.Keeps (s.saveContext p) := by
  unfold State.saveContext
  dsimp only
  split
  · exact h
  · exact
      have h1 := h.foldl fun h => h.saveBlocks.chargeMove
      h1.upCtl

theorem setupPart {p c : Nat} : s₀.Keeps (s.setupPart p c) := h.matrixReset.wr

theorem switchSaved : s₀.Keeps s.switchSaved := by
  unfold State.switchSaved
  split
  · exact h
  · refine ite h ?_
    exact
      have h1 := h.wr.foldl fun h => h.saveContext
      have h2 := h1.foldl fun h => h.setupPart
      have h3 := writeCaps (ite h2.wr h2)
      h3.wr.toPhase.settle

theorem restoreTile {x : Nat × List Host.Cell × Cells} {fresh : Bool} : s₀.Keeps (s.restoreTile x fresh) :=
  h.putBack.upTile.wr

theorem restorePart {p c : Nat} : s₀.Keeps (s.restorePart p c).1 := by
  unfold State.restorePart
  split
  · exact
      have h1 := h.foldl fun h => ite h h.wr
      h1.dropImage.wr.wr.setRun.setResumable.pair
  · refine iteFst ?_ ?_
    · exact
        have h2 := h.foldl fun h => ite h h.wr
        h2.dropImage.wr.wr.setRun.setResumable.pair
    · exact
        have h3 := h.foldl fun h => h.restoreTile.chargeMove
        iteFst h3.upCtl.wr.setRun.setResumable.pair <|
        pair (meetBoundary (h3.upCtl.wr.setRun.setResumable.foldl fun h => h.resume))

theorem switchEnd {r : Nat} : s₀.Keeps (s.switchEnd r) := h.wr.wr.inc.upCtl.finish

theorem switchRestored : s₀.Keeps s.switchRestored := by
  unfold State.switchRestored
  split
  · exact h
  · exact ite h (settle (switchEnd (foldlFst (h.wr) fun h => h.restorePart)))

theorem switchTimeout : s₀.Keeps s.switchTimeout := by
  unfold State.switchTimeout
  split
  · exact h
  · refine ite h ?_
    exact
      have h2 := h.wr.foldl fun h =>
          have h1 := h.foldl fun h => h.resume
          h1.upCtl.wr
      h2.switchEnd.settle

theorem drainPart {p : Nat} : s₀.Keeps (s.drainPart p) := setResumable (setRun (h.noteBoundary.foldl fun h => h.stop))

theorem drainEnd {forced aborts : Nat} : s₀.Keeps (s.drainEnd forced aborts) := h.upCtl.finish

theorem drainOnce : s₀.Keeps s.drainOnce := by
  unfold State.drainOnce
  split
  · exact h
  · exact ite h h.rosEnable.upCtl
  · exact
      have h1 := h.foldl fun h => ite h.drainPart h
      ite h1 h1.upCtl
  · exact ite h h.drainEnd

theorem drainPoll : s₀.Keeps s.drainPoll := ite h h.drainOnce.drainOnce.drainOnce.settle

theorem drainRun : s₀.Keeps s.drainRun.1 := iteFst h.badState h.upCtl.pair

theorem drainForce : s₀.Keeps s.drainForce := by
  unfold State.drainForce
  split
  · exact h
  · exact
      have h1 := ite h.rosFinalize.publish h
      have h2 := h1.rosEnable.foldl fun h => ite h.drainPart h
      have h3 := h2.foldl fun h => h.stopPart
      have h4 := h3.foldl fun h => h.cfAbort
      h4.drainEnd.settle

/-! ## Machine/Module -/

theorem bare : s₀.Keeps s.bare := ⟨fun _ => rfl, fun _ => rfl, h.queue, h.die⟩

theorem switchOpen : s₀.Keeps s.switchOpen := by
  unfold State.switchOpen; exact h.bare.upPins.upCtl

theorem switchClose : s₀.Keeps s.switchClose := ite h h.bare.upPins.upCtl

theorem moduleReset : s₀.Keeps s.moduleReset := h.bare.upPins

theorem restart : s₀.Keeps s.restart := h.moduleReset.upFault.upCtl.alertSync

theorem powerDown : s₀.Keeps s.powerDown := h.bare.upPins.upFault.upPower.upCtl.setTick.settle

theorem powerUp : s₀.Keeps s.powerUp := h.upPins.upCtl.settle

theorem powerUpStart : s₀.Keeps s.powerUpStart := ite (ite h.upPins.upCtl.settle h.upPins) h

theorem readCages : s₀.Keeps s.readCages := upCtl (h.foldl fun h => h.wr.wr)

theorem railDone : s₀.Keeps s.railDone := ite h <| ite h.upPins h.upPins.upPower.grantSync.readCages

theorem railFail {rail : Nat} : s₀.Keeps (s.railFail rail) := h.event.powerDown.upPins.alertSync

theorem trip : s₀.Keeps s.trip := ite h <| ite h.upPins h.drawn.event.powerDown.upPins.alertSync

theorem quaySleep {q : Nat} : s₀.Keeps (s.quaySleep q) :=
  have h1 := h.upQuay.foldl fun h => h.qaccept
  have h2 := h1.foldl fun h => h.gradAdd
  have h3 := h2.foldl fun h => h.retire
  have h4 := h3.foldl fun h => h.accessComplete
  h4.upQuay.wabSync.wr

theorem drowseEnter : s₀.Keeps s.drowseEnter :=
  have h1 := rosEnable ((h.foldl fun h => h.portDisable).foldl fun h => ite h h.cacheLine)
  have h2 := setCores (dropRf (dropMem (h1.foldl fun h => h.quaySleep)))
  (h2.foldl fun h => h.stopCore).upBoot.upPower.upCtl.settle

theorem coreStart : s₀.Keeps s.coreStart := h.other.wr.wr

theorem portsOn : s₀.Keeps s.portsOn := h.foldl fun h => h.wr.wr

theorem wakeUp : s₀.Keeps s.wakeUp :=
  have h1 := h.foldl fun h => h.wr.wr
  ite h1.upPower.upCtl.grantSync.portsOn.upBoot.coreStart.settle
    h1.upPower.upCtl.grantSync.portsOn.settle.outOfService

theorem wakeBoot : s₀.Keeps s.wakeBoot := h.powerDown.upPins.upPower.upCtl.readCages.settle

theorem managed {op : Nat} {run : State → Ran} (hrun : ∀ {n}, s₀.Keeps n → s₀.Keeps (run n).1) :
    s₀.Keeps (s.managed op run) := h.serve hrun

theorem drowseRun : s₀.Keeps s.drowseRun.1 := iteFst h.idleEntry.drowseEnter.pair h.badState

theorem wakeRun : s₀.Keeps s.wakeRun.1 := iteFst h.badState <| iteFst h.wakeUp.pair h.wakeBoot.pair

theorem powerPart {bit : Nat} {ok : List Byte → Bool} {act : State → State}
    (hact : ∀ {n}, s₀.Keeps n → s₀.Keeps (act n)) : s₀.Keeps (s.powerPart bit ok act) := by
  unfold State.powerPart
  split
  · exact ite h <| ite h.reply <| ite h <| ite (hact h).setHeld.reply (hact h).setHeld
  · exact ite h (hact h)

/-! ## Machine/Boot -/

theorem ctlBlock {f : BootX → BootX} : s₀.Keeps (s.ctlBlock f) := h.upBoot

theorem setSlot {n st : Nat} : s₀.Keeps (s.setSlot n st) := h.ctlBlock

theorem bootFail {c : Nat} : s₀.Keeps (s.bootFail c) :=
  have h1 := h.upBoot.event.foldl fun h => h.portDisable
  h1.foldl fun h => h.stopCore

theorem bootOther {n : Nat} : s₀.Keeps (s.bootOther n) := ite h.ctlBlock.upBoot h.bootFail

theorem chooseSlot : s₀.Keeps s.chooseSlot := by
  unfold State.chooseSlot
  dsimp only
  split
  · exact ite h.setSlot.bootOther h.ctlBlock.upBoot
  · exact h.upBoot
  · exact h.bootOther

theorem bootRom {ok : BootCheck} : s₀.Keeps (s.bootRom ok) :=
  ite h <| ite h.bootFail <| ite h.bootFail <| ite h.bootFail <| ite h.bootFail h.chooseSlot

theorem trialFails {n : Nat} : s₀.Keeps (s.trialFails n) := h.setSlot.ctlBlock.restart

theorem bootImage {n : Nat} {e : List Byte} : s₀.Keeps (s.bootImage n e) := h.wr.setBytes.upBoot.portsOn.coreStart

theorem streamDone : s₀.Keeps s.streamDone := by
  unfold State.streamDone
  split
  · exact h
  · refine ite h <| ite (ite h.upBoot.trialFails h.upBoot.setSlot.bootOther) ?_
    split
    · exact ite h.upBoot.trialFails h.upBoot.bootFail
    · exact ite h.upBoot.bootFail h.upBoot.bootImage

theorem commitTrial {n : Nat} : s₀.Keeps (s.commitTrial n) := h.ctlBlock

theorem raiseCounters : s₀.Keeps s.raiseCounters := h.upBoot

theorem supReady : s₀.Keeps s.supReady := by
  unfold State.supReady
  split
  · exact h
  · refine ite h ?_
    exact
      have h1 := ite h.upBoot.commitTrial h.upBoot
      h1.raiseCounters.upCtl.settle

theorem waitFails {c : Nat} : s₀.Keeps (s.waitFails c) := by
  unfold State.waitFails
  split
  · exact h.bootFail
  · exact ite h.trialFails h.bootFail

theorem supTimeout : s₀.Keeps s.supTimeout := ite h h.waitFails

theorem quayTrain {q : Nat} {ok : Bool} : s₀.Keeps (s.quayTrain q ok) :=
  ite h <| ite (ite h h.waitFails) h.dropMem.upBoot.wr

theorem entropyFail : s₀.Keeps s.entropyFail := ite h.upBoot.waitFails <| ite h.upBoot.outOfService h.upBoot

theorem putFlash {n off : Nat} {d : List Byte} : s₀.Keeps (s.putFlash n off d) := h.upBoot

theorem eraseSlot {n : Nat} : s₀.Keeps (s.eraseSlot n) := h.upBoot

theorem readBack {n : Nat} : s₀.Keeps (s.readBack n).1 := iteFst h <| iteFst h h.drawn.pair

theorem stageRun {n flags off : Nat} {d : List Byte} : s₀.Keeps (s.stageRun n flags off d).1 :=
  iteFst h <|
  have h1 := ite h.eraseSlot.setSlot h
  iteFst h1.putFlash.readBack.setSlot.upBoot.pair h1.putFlash.drawn.pair

theorem activateRun {n : Nat} : s₀.Keeps (s.activateRun n).1 :=
  iteFst h <|
  have h1 := ite h h.upCtl.settle
  have h2 := ite h1.ctlBlock h1.setSlot
  h2.upCtl.pair

theorem pilotRun {op : Nat} {args : List Byte} {run : State → Ran} (hrun : ∀ {n}, s₀.Keeps n → s₀.Keeps (run n).1) :
    s₀.Keeps (s.pilotRun op args run) := ite h (hrun h).reply

/-! ## Machine/Spdm -/

theorem mctpAnswer {b : List Byte} : s₀.Keeps (s.mctpAnswer b) := h.upCtl

theorem setEid {e : Nat} : s₀.Keeps (s.setEid e) := ite h <| ite h.onBus.mctpAnswer h.onBus.upCtl.mctpAnswer

theorem getEid : s₀.Keeps s.getEid := ite h h.onBus.mctpAnswer

theorem getMctpVersion : s₀.Keeps s.getMctpVersion := ite h h.onBus.drawn.mctpAnswer

theorem getMsgTypes : s₀.Keeps s.getMsgTypes := ite h h.onBus.mctpAnswer

theorem spdmTo {doe : Bool} {n : Nat} : s₀.Keeps (s.spdmTo doe n) := h.upCtl

theorem spdmAnswer {b : List Byte} : s₀.Keeps (s.spdmAnswer b) := h.upCtl

theorem spdmError {e : Nat} : s₀.Keeps (s.spdmError e) := h.spdmAnswer

theorem spdmServe {doe : Bool} {req : List Byte} {code ver : Nat} {need : Nat → Bool} {run : State → State}
    (hrun : ∀ {n}, s₀.Keeps n → s₀.Keeps (run n)) : s₀.Keeps (s.spdmServe doe req code ver need run) :=
  ite h <|
  have h1 := ite h h.onBus
  ite h1.spdmError <| ite h1.spdmError <| ite h1.spdmError <| ite h1.spdmError <| ite h1.spdmError (hrun h1)

theorem spdmVersion {doe : Bool} : s₀.Keeps (s.spdmVersion doe) := h.spdmTo.spdmAnswer

theorem spdmCaps {doe : Bool} : s₀.Keeps (s.spdmCaps doe) := h.drawn.spdmTo.spdmAnswer

theorem spdmAlgs {doe : Bool} {req : List Byte} : s₀.Keeps (s.spdmAlgs doe req) := ite h.spdmError h.spdmTo.spdmAnswer

theorem spdmDigests : s₀.Keeps s.spdmDigests := h.spdmAnswer

theorem spdmCert {req : List Byte} : s₀.Keeps (s.spdmCert req) := ite h.spdmError h.spdmAnswer

theorem spdmChallenge {req : List Byte} : s₀.Keeps (s.spdmChallenge req) := ite h.spdmError h.drawn.spdmAnswer

theorem spdmMeas {req : List Byte} : s₀.Keeps (s.spdmMeas req) := ite h.spdmError h.drawn.spdmAnswer

/-! ## Machine/Clock -/

theorem countTc {t : Nat} : s₀.Keeps (s.countTc t) := by
  unfold State.countTc
  split
  · exact h.upTile
  · exact h.inc
  · exact h.inc
  · exact h
  · exact h.addIdle.inc
  · exact h.addIdle

theorem tileTick {t : Nat} : s₀.Keeps (s.tileTick t) :=
  have h1 := h.foldl fun h => h.ejectLand
  have h2 := ite h1.countTc.inc h1.countTc
  have h3 := ite h2.matTick.inc h2.matTick
  have h4 := ite h3 h3.inc
  ite h4.inc h4

theorem partTick {p : Nat} : s₀.Keeps (s.partTick p) := ite h h.inc.inc.upPower

theorem coreTick {c : Nat} : s₀.Keeps (s.coreTick c) :=
  ite h <|
  have h1 := ite h.inc h
  have h2 := ite h1.inc h1
  h2.inc

theorem writeBack {q : Nat} : s₀.Keeps (s.writeBack q) := ite h h.inc.upQuay

theorem quayTick {q : Nat} : s₀.Keeps (s.quayTick q) := ite h.refreshTick.writeBack h.refreshTick.writeBack.inc

theorem portTick {k : Nat} : s₀.Keeps (s.portTick k) :=
  have h1 := ite h.inc h
  have h2 := ite h1.inc h1
  ite h2 h2.inc

theorem refill {p : Nat} {fab : Bool} : s₀.Keeps (s.refill p fab) := ite h h.upPower

theorem leaseTick {n : Nat} : s₀.Keeps (s.leaseTick n) := ite h.wr h

theorem gridTick : s₀.Keeps s.gridTick :=   ite h <|
  have h1 := foldl (h.holdBegin.foldl fun h => h.partTick) fun h => h.tileTick
  setTc (ite h1 h1.inc)

theorem dieTick : s₀.Keeps s.dieTick :=
  ite h <|
  have h1 := h.foldl fun h => h.coreTick
  have h2 := h1.foldl fun h => h.quayTick
  have h3 := h2.foldl fun h => h.portTick
  have h4 := h3.foldl fun h => h.refill.refill
  ite h4.inc h4

theorem clockTick : s₀.Keeps s.clockTick :=
  have h1 := ite (h.foldl fun h => h.leaseTick) h
  h1.dieTick.gridTick.other.switchPoll.drainPoll

/-! ## Machine/Bus -/

theorem pinWrite {p : Nat} {second : Bool} {v : Nat} : s₀.Keeps (s.pinWrite p second v).1 :=
  iteFst h <| iteFst h.write8.pair <| iteFst h.write8.pair <| iteFst h.wr.wr.pair h.write8.wr.pair

theorem regulatorWrite {o v : Nat} : s₀.Keeps (s.regulatorWrite o v) :=
  ite h <|
  ite h.write8 <|
  have h1 := ite h.write8.wr h.write8.wr
  ite h1 h1.upPower

theorem rosterWrite {o v : Nat} : s₀.Keeps (s.rosterWrite o v).1 :=
  iteFst (iteFst h h.write8.pair) <|
  iteFst (have h1 := ite h.wr.rosEnable.rosBuild h.wr.rosEnable
     pair (ite h1.rosFinalize h1)) <|
  iteFst h.poolPush.pair <| iteFst (pair (ite h.rosCmd h.write8)) h.write8.pair

theorem faultWrite {c o v : Nat} : s₀.Keeps (s.faultWrite c o v) := by
  unfold State.faultWrite
  refine ite ?_ ?_
  · split
    · exact h.fenceAsk
    · exact h.fenceAsk
    · exact h.wr
  · refine ite h.event ?_
    exact ite (by
      dsimp only
      split
      · exact h.leaseAcquire
      · exact h.leaseRenew
      · exact h.leaseRelease
      · exact h) h.write8

theorem devWrite {c : Nat} {sup : Bool} {o v : Nat} : s₀.Keeps (s.devWrite c sup o v).1 := by
  unfold State.devWrite
  refine iteFst h <| iteFst (iteFst h.write8.pair h) <| iteFst h.barArrive.pair ?_
  refine iteFst h.write8.pair <| iteFst (iteFst h.pinWrite h) <| ?_
  refine iteFst h.regulatorWrite.pair <| iteFst h.rosterWrite <| ?_
  refine iteFst h.write8.settle.pair <| iteFst h.write8.settle.pair <| ?_
  refine iteFst h.faultWrite.pair <| iteFst (pair (ite h.wr.dbgGo h.wr)) ?_
  refine iteFst (iteFst h <| iteFst h.write8.pair h) ?_
  exact iteFst (by
    split
    · exact h.soOp.pair
    · exact h.soOp.pair
    · exact h) h.write8.pair

theorem engWrite {k o v : Nat} : s₀.Keeps (s.engWrite k o v).1 :=
  iteFst (pair (ite h.wr h.upEng.cfSync)) <|
  iteFst (pair (ite h.cfAbort h)) <| iteFst (iteFst h h.chanWrite.pair) h.write8.pair

theorem flCtlWrite {k v : Nat} : s₀.Keeps (s.flCtlWrite k v) :=
  have h1 := ite h.linkDown h
  ite h1.wr <| ite h1.wr.portDisable <| ite h1.wr h1.wr.wr

theorem portWrite {k o v : Nat} : s₀.Keeps (s.portWrite k o v).1 :=
  iteFst h.flCtlWrite.pair <| iteFst (iteFst h.write8.pair h) h.write8.pair

theorem quayWrite {q : Nat} {sup : Bool} {o v : Nat} : s₀.Keeps (s.quayWrite q sup o v).1 :=
  iteFst h <| iteFst h <| iteFst h h.write8.pair

theorem clusterWrite {c o v : Nat} : s₀.Keeps (s.clusterWrite c o v) :=
  ite h.lsramWrite <| ite h.epochWrite <| ite (ite h.cacheGo h.write8) h.write8

theorem coreWrite {u o v : Nat} : s₀.Keeps (s.coreWrite u o v) :=
  ite h.soWaitWrite <|
  ite h.credReqWrite <|
  ite (have h1 := ite h.write8.streamGo h.write8
     ite h1.streamCancel h1)
    h.write8

theorem regWrite8 {c : Nat} {sup : Bool} {b : Blk} {u o v : Nat} : s₀.Keeps (s.regWrite8 c sup b u o v).1 := by
  unfold State.regWrite8
  split
  · exact h.devWrite
  · exact h.engWrite
  · exact h.portWrite
  · exact h.quayWrite
  · exact h.clusterWrite.pair
  · exact h.coreWrite.pair
  · exact h

theorem regWrites {c : Nat} {sup : Bool} {b : Blk} {u o : Nat} {l : List Nat} :
    s₀.Keeps (s.regWrites c sup b u o l).1 := by
  induction l generalizing s o with
  | nil => exact h
  | cons v r ih =>
    have h1 := h.regWrite8 (c := c) (sup := sup) (b := b) (u := u) (o := o) (v := v)
    unfold State.regWrites
    split <;> rename_i e <;> rw [e] at h1
    · exact ih h1
    · exact h1

theorem regPut {c : Nat} {sup : Bool} {b : Blk} {u o virt : Nat} {d : List Byte} :
    s₀.Keeps (s.regPut c sup b u o virt d) :=
  ite h.coreFault <|
  ite h.aperture <| ite h.coreFault <| ite (ite h.entWr h.coreFault) <| ite h.regWrites h.regWrites.coreFault

theorem regGet {c : Nat} {sup : Bool} {b : Blk} {u o n virt : Nat} : s₀.Keeps (s.regGet c sup b u o n virt) := by
  unfold State.regGet
  refine ite h.coreFault <| ite h.upCore <| ite h.coreFault <| ite h.upCore ?_
  split
  · exact ite h.soResultRead h.upCore
  · exact ite h.credResultRead h.upCore
  · exact h.drawn.upCore
  · exact h.poolPop.upCore
  · exact h.upFault.upCore
  · exact upCore (h.foldl fun h => h.clearRead)

theorem coreReach {c : Nat} {who : Accessor} {a virt n : Nat} {wr : Option (List Byte)} {ecc : Ecc} :
    s₀.Keeps (s.coreReach c who a virt n wr ecc) := by
  unfold State.coreReach
  refine ite ?_ ?_
  · exact ite h.coreFault <| by
      split
      · exact h.gWrite
      · exact h.gRead
  · refine ite ?_ ?_
    · split
      · exact h.outside.coreEnds
      · exact h.upCore
    · exact ite h.sramAccess <| by
        split
        · split
          · exact h.regPut
          · exact h.regGet
        · exact h.coreFault

theorem coreAccess {who : Accessor} {v n : Nat} {k : AccKind} {d : List Byte} {ecc : Ecc} :
    s₀.Keeps (s.coreAccess who v n k d ecc) := by
  unfold State.coreAccess
  split
  · exact h
  · exact ite h <| ite h.asWho.coreFault <| by
      split
      · exact h.asWho.coreFault
      · exact h.asWho.coreReach

theorem barWrite {o n v : Nat} : s₀.Keeps (s.barWrite o n v) :=
  ite h <| ite (ite h.doorbell h) <| ite h.putReq <| ite (ite h.write8.msixFlush h.write8.msixFlush) h

theorem registerWrite {who : Accessor} {a v : Nat} : s₀.Keeps (s.registerWrite who a v) := by
  unfold State.registerWrite
  split
  · exact h.barWrite
  · exact ite h.dbgMake h
  · exact h.coreAccess

theorem tileRc {t off : Nat} : s₀.Keeps (s.tileRc t off) := ite h h.clearRead

omit h in
/-- Every command answers a next state, and keeps what every step keeps. -/
theorem exec_next (c : Instr) (s : State) : ∃ n, exec c s = .next n ∧ s.Keeps n := by
  have h := refl s
  cases c with
  | pinEnMate | inputUvloRelease | overvoltageRecovery => exact ⟨_, rfl, h.upPins.switchClose⟩
  | pinEnBreak | inputUndervoltage | inputOvervoltage => exact ⟨_, rfl, h.upPins.switchOpen⟩
  | modResetAssert | modResetRelease => exact ⟨_, rfl, h.upPins⟩
  | modResetFilterExpire => exact ⟨_, rfl, ite h.moduleReset h⟩
  | powerUpStart => exact ⟨_, rfl, h.powerUpStart⟩
  | railRampDone => exact ⟨_, rfl, h.railDone⟩
  | railRampTimeout | railFault => exact ⟨_, rfl, ite h.railFail h⟩
  | thermalTrip => exact ⟨_, rfl, h.trip⟩
  | cableInsert => exact ⟨_, rfl, h.cage⟩
  | cableRemove => exact ⟨_, rfl, ite h.cage <| ite h.cage.wr.wr h.cage.linkDown⟩
  | barrierArrival => exact ⟨_, rfl, h.gridStart.arrive⟩
  | crossingStart => exact ⟨_, rfl, h.crossingStart⟩
  | tileRelease => exact ⟨_, rfl, ite h.release h⟩
  | timetableEntryAdvance => exact ⟨_, rfl, h.entryAdvance⟩
  | sendingRead => exact ⟨_, rfl, h.sendingRead⟩
  | flitTake => exact ⟨_, rfl, h.flitTake⟩
  | flitEjectLand => exact ⟨_, rfl, h.ejectLand⟩
  | checkpointSample => exact ⟨_, rfl, h.sample⟩
  | holdBegin => exact ⟨_, rfl, h.holdBegin⟩
  | holdPoll => exact ⟨_, rfl, h.holdPoll⟩
  | gridResume => exact ⟨_, rfl, ite h.endSlack h⟩
  | slackOverlong => exact ⟨_, rfl, ite h.event.upHub h⟩
  | wordIssue => exact ⟨_, rfl, h.wordIssue⟩
  | resultRetire => exact ⟨_, rfl, h.retireOne⟩
  | watchdogExpire => exact ⟨_, rfl, h.watchdog⟩
  | tCtrlGo => exact ⟨_, rfl, h.go⟩
  | tCtrlResume => exact ⟨_, rfl, h.resume⟩
  | tCtrlStop => exact ⟨_, rfl, h.stop⟩
  | aluAdd | aluSub | aluAnd | aluOr | aluXor | aluShl | aluShr | aluSra | aluMul | aluMin | aluMax | aluMinu
  | aluMaxu | addi | andi | ori | xori | shiShl | shiShr | shiSra | cati | cmpEq | cmpNe | cmpLt | cmpLtu
  | cmpGe | cmpGeu | cmpeqi | cmplti | cmpltui | plogAnd | plogOr | plogXor | plogAndn | ld | st | ldh | sth
  | br | brr | loopArm | endTile | rdspec | vbfAdd | vbfSub | vbfMul | vbfFma | vbfMax | vbfMin | vf32Add
  | vf32Sub | vf32Mul | vf32Fma | vf32Max | vf32Min | vcvtF32Bf16Nearest | vcvtF32Bf16Stochastic
  | vcvtBf16F32 | vfunExp2 | vfunRcp | vfunRsqrt | vredSum | vredMax | vredMin | vredAny | vredAll | vld
  | vst | vbcast | vmov | vrand | vq8Nearest | vq8Stochastic | vdq8 | pack24Strict | pack24Prune
  | svhistCoarse | svhistFine | svcutCoarse | svcutFine | svcutGather | svdraw | mzero | mldw | mldw8
  | mldw24 | mrun | mblk | mspill | mepi | mout | mrda | mlook | xwait | xtake | xput | soadd | sowait
  | soset | mfpost | mfsamp | mfrev => exact ⟨_, rfl, h.slotIssue⟩
  | sieveInstrStart => exact ⟨_, rfl, h.svStart⟩
  | sieveInstrFinish => exact ⟨_, rfl, h.svFinish⟩
  | commitRefusedHalt => exact ⟨_, rfl, by
    split
    · exact h
    · exact h.upRos.halt⟩
  | tokenGrant => exact ⟨_, rfl, by
    split
    · exact h
    · exact ite h.upTile h⟩
  | matrixInstrStart => exact ⟨_, rfl, h.matStart⟩
  | matrixInstrFinish => exact ⟨_, rfl, h.matFinish⟩
  | qpostTimed | qpostPush => exact ⟨_, rfl, ite h.slotIssue h⟩
  | soHubApply => exact ⟨_, rfl, h.hubCycle⟩
  | soOpAdd | soOpSet => exact ⟨_, rfl, h.soOp⟩
  | soOpAnswer => exact ⟨_, rfl, h.soOpDone⟩
  | xtBarArrive => exact ⟨_, rfl, h.barArrive⟩
  | creditRequest => exact ⟨_, rfl, h.credRequest⟩
  | creditGrant => exact ⟨_, rfl, h.credGrant⟩
  | creditedWrite => exact ⟨_, rfl, h.credArrive⟩
  | creditAppend => exact ⟨_, rfl, h.appendCreds⟩
  | taskWindowAccess => exact ⟨_, rfl, by
    split
    · exact h
    · exact h.dbgMake
    · exact ite h h.asWho.outside.coreEnds⟩
  | slipRegisterWrite => exact ⟨_, rfl, ite h.refuse <| ite h.slipWrite h.slipWrite.refuse⟩
  | dbgGo => exact ⟨_, rfl, h.dbgGo⟩
  | debugAccessComplete => exact ⟨_, rfl, h.dbgAccess⟩
  | eccWriteback => exact ⟨_, rfl, by
    split
    · exact h
    · exact ite h.upTile.readCheck.setBytes h.upTile.readCheck⟩
  | patrolScrubRead => exact ⟨_, rfl, ite h h.readCheck.upTile⟩
  | mfDescriptorStart => exact ⟨_, rfl, h.mfStart⟩
  | mfSeedComplete => exact ⟨_, rfl, h.seedComplete⟩
  | mfSamplingReadReturn => exact ⟨_, rfl, h.sampReturn⟩
  | mfRunSlotting => exact ⟨_, rfl, h.runSlotting⟩
  | mfRunEnd => exact ⟨_, rfl, h.runEnd⟩
  | carryReport => exact ⟨_, rfl, h.carryReport⟩
  | carryRunStart => exact ⟨_, rfl, h.carryRun⟩
  | mfDescriptorComplete => exact ⟨_, rfl, h.mfComplete⟩
  | quayDescriptorAccept => exact ⟨_, rfl, ite h h.timedAccept⟩
  | quayBarrierArrive => exact ⟨_, rfl, h.quayArrive⟩
  | engineBarrierArrive => exact ⟨_, rfl, h.engArrive⟩
  | quayFetchStart => exact ⟨_, rfl, h.fetchStart⟩
  | gddr7AccessComplete => exact ⟨_, rfl, h.accessComplete⟩
  | refreshIntervalDue => exact ⟨_, rfl, h.refreshDue⟩
  | refreshWindowOpen => exact ⟨_, rfl, h.refreshWindow⟩
  | quayPushStart => exact ⟨_, rfl, h.pushStart⟩
  | pushChunkDone => exact ⟨_, rfl, h.pushChunk⟩
  | wabReservationGrant => exact ⟨_, rfl, by
    split
    · exact h
    · exact ite h.upQuay h⟩
  | wabWriteAccept => exact ⟨_, rfl, by
    split
    · exact h
    · exact h.upQuay.qaccept.wabSync⟩
  | wabRetire => exact ⟨_, rfl, by
    split
    · exact h
    · exact ite h.retire.upQuay.wabSync h⟩
  | quayGradientAdd => exact ⟨_, rfl, h.gradAdd⟩
  | edcRetry => exact ⟨_, rfl, h.edcFail⟩
  | deviceTempRead => exact ⟨_, rfl, h.devTemp⟩
  | quayLinkTrain => exact ⟨_, rfl, h.quayTrain⟩
  | qrPinWrite =>
    refine ⟨_, rfl, ?_⟩
    split
    · exact h
    · exact ite h <| ite (iteFst h.asWho.pinWrite h.asWho.pair) <| coreFault (iteFst h.asWho.pinWrite h.asWho.pair)
  | ringRequestArrive => exact ⟨_, rfl, by
    split
    · exact ite h h.ringArrive
    · exact h⟩
  | spokeReadComplete => exact ⟨_, rfl, h.spokeRead⟩
  | landingAccess => exact ⟨_, rfl, h.coreAccess⟩
  | landingMemReadComplete => exact ⟨_, rfl, h.memDone⟩
  | landingFence => exact ⟨_, rfl, h.fenceWait⟩
  | lSowaitWrite => exact ⟨_, rfl, h.soWaitWrite⟩
  | lSowaitResultRead => exact ⟨_, rfl, h.soResultRead⟩
  | landingSowaitAnswer => exact ⟨_, rfl, h.soWaitAnswer⟩
  | lSowaitLimitExpire => exact ⟨_, rfl, h.soLimit⟩
  | lCredReqWrite => exact ⟨_, rfl, h.credReqWrite⟩
  | lCredResultRead => exact ⟨_, rfl, h.credResultRead⟩
  | creditApertureStore => exact ⟨_, rfl, h.aperture⟩
  | streamDeclare => exact ⟨_, rfl, h.streamGo⟩
  | streamCancel => exact ⟨_, rfl, h.streamCancel⟩
  | streamLineFill => exact ⟨_, rfl, h.streamFill⟩
  | epochFlip => exact ⟨_, rfl, h.epochWrite⟩
  | cacheOpWriteback | cacheOpInvalidate | cacheOpWritebackInvalidate => exact ⟨_, rfl, h.privileged h.cacheGo⟩
  | cacheOpDone => exact ⟨_, rfl, h.cacheDone⟩
  | lCfgLsramWrite => exact ⟨_, rfl, h.privileged h.lsramWrite⟩
  | lRngDataRead => exact ⟨_, rfl, ite h h.drawn.upCore⟩
  | taskPreempt => exact ⟨_, rfl, h.preempt⟩
  | admitPrefill | admitDecode | rosCancel | harvest => exact ⟨_, rfl, h.rosCmd⟩
  | rosterEntryWrite => exact ⟨_, rfl, h.rosEntryWrite⟩
  | rosBuild => exact ⟨_, rfl, h.rosBuild⟩
  | rosFinalize => exact ⟨_, rfl, h.rosFinalize⟩
  | phase1Begin => exact ⟨_, rfl, h.phase1⟩
  | phase1Complete => exact ⟨_, rfl, h.phase1End⟩
  | logSpaceAvailable => exact ⟨_, rfl, h.logFreed⟩
  | listPublish => exact ⟨_, rfl, h.publish⟩
  | commitReceive => exact ⟨_, rfl, h.commitArrive⟩
  | commitApply => exact ⟨_, rfl, h.commitApply⟩
  | rosPoolPush => exact ⟨_, rfl, h.poolPush⟩
  | rosPoolPop => exact ⟨_, rfl, h.poolPop⟩
  | cfPost => exact ⟨_, rfl, ite h.wr h.upEng.cfSync⟩
  | reduceScatter | allGather | allReduce | permute | allToAll => exact ⟨_, rfl, h.cfStart⟩
  | segmentReceive => exact ⟨_, rfl, h.segReceive⟩
  | phaseDeadlineExpire => exact ⟨_, rfl, by
    split
    · exact h
    · exact ite h h.enterVerdict⟩
  | verdictDeadlineExpire => exact ⟨_, rfl, by
    split
    · exact h
    · exact ite h.cfEnd h⟩
  | cfAbort => exact ⟨_, rfl, h.cfAbort⟩
  | cfChanWrite => exact ⟨_, rfl, h.chanWrite⟩
  | linkTrainAttempt | linkTrained => exact ⟨_, rfl, ite h.wr h⟩
  | helloSendTimer => exact ⟨_, rfl, ite h.emit h⟩
  | helloReceive => exact ⟨_, rfl, h.hello⟩
  | chcreditReceive => exact ⟨_, rfl, ite h.actedOn.upChan h.actedOn⟩
  | fetchDataReceive => exact ⟨_, rfl, h.fetchData⟩
  | fetchEndReceive => exact ⟨_, rfl, h.fetchEnd⟩
  | fetchRequestTimeout => exact ⟨_, rfl, h.fetchTimeout⟩
  | frameReceive | ackReceive => exact ⟨_, rfl, h.frameIn⟩
  | frameSend => exact ⟨_, rfl, h.frameSend⟩
  | replayTimeout => exact ⟨_, rfl, ite h.resend h⟩
  | ackDelayTimeout | ackKeepalive => exact ⟨_, rfl, ite h.sendAck h⟩
  | fecLockLoss | peerSignalLoss | flCtlDown => exact ⟨_, rfl, h.linkDown⟩
  | fecErrorLimit => exact ⟨_, rfl, h.inc.linkDown⟩
  | regulatorAdmit => exact ⟨_, rfl, h.regulatorAdmit⟩
  | energyWindowEnd => exact ⟨_, rfl, h.windowEnd⟩
  | switchBoundaryWaitExpire => exact ⟨_, rfl, h.switchExpire⟩
  | switchDrainComplete => exact ⟨_, rfl, h.switchDrained⟩
  | switchDrainTimeout => exact ⟨_, rfl, h.switchTimeout⟩
  | switchSaveComplete => exact ⟨_, rfl, h.switchSaved⟩
  | switchRestoreComplete => exact ⟨_, rfl, h.switchRestored⟩
  | clampSample => exact ⟨_, rfl, h.clampSample⟩
  | thermalSensorRead => exact ⟨_, rfl, h.sensorRead⟩
  | thermalGrantStep => exact ⟨_, rfl, h.grantTick⟩
  | roastSelection => exact ⟨_, rfl, h.selectRoast⟩
  | idleEntry => exact ⟨_, rfl, h.idleEntry⟩
  | gridSeedingComplete => exact ⟨_, rfl, h.seeded⟩
  | cpDoorbell => exact ⟨_, rfl, h.doorbell⟩
  | commandComplete => exact ⟨_, rfl, ite h.complete.restart h.complete⟩
  | relayTimeout => exact ⟨_, rfl, h.relayTimeout⟩
  | functionReset => exact ⟨_, rfl, h.fnReset⟩
  | statusWindowRefresh => exact ⟨_, rfl, h.refreshWin⟩
  | getState | reportFaults =>
    exact ⟨_, rfl, ite h <| by
      dsimp only
      split
      · exact h.reply
      · exact h.reply.upCtl.alertSync⟩
  | loadProgram => exact ⟨_, rfl, h.relayed (fun h => h.onPart (fun _ => h.loadBegin))⟩
  | unloadProgram => exact ⟨_, rfl, h.relayed (fun h => h.onPart (fun _ => h.unload))⟩
  | startGrid => exact ⟨_, rfl, h.relayed (fun h => h.onPart (fun _ => h.startRun))⟩
  | stopGrid => exact ⟨_, rfl, h.relayed (fun h => h.stopGrid)⟩
  | haltTile => exact ⟨_, rfl, h.relayed (fun h => h.haltTile)⟩
  | fenceCmd | unfence => exact ⟨_, rfl, h.relayed (fun h => h.fenceRun)⟩
  | contextSwitch => exact ⟨_, rfl, h.relayed (fun h => h.switchRun)⟩
  | setPartitions => exact ⟨_, rfl, h.relayed (fun h => h.setParts)⟩
  | readAccounts => exact ⟨_, rfl, ite h.reply h⟩
  | drainCmd => exact ⟨_, rfl, drainPoll (h.relayed (fun h => h.drainRun))⟩
  | drainLimitExpire => exact ⟨_, rfl, h.drainForce⟩
  | powerSetLimit | powerSetGrant => exact ⟨_, rfl, h.powerPart (fun h => ite h.upPower.grantSync h)⟩
  | powerOff => exact ⟨_, rfl, h.powerPart (fun h => h.powerDown)⟩
  | powerOn => exact ⟨_, rfl, h.powerPart (fun h => h.powerUp)⟩
  | resetModule => exact ⟨_, rfl, ite h <| ite h.reply h.reply.upCtl⟩
  | stageImage => exact ⟨_, rfl, h.pilotRun (fun h => h.stageRun)⟩
  | activateImage => exact ⟨_, rfl, h.pilotRun (fun h => h.activateRun)⟩
  | drowse => exact ⟨_, rfl, h.managed (fun h => h.drowseRun)⟩
  | wake => exact ⟨_, rfl, h.managed (fun h => h.wakeRun)⟩
  | bootRomStart => exact ⟨_, rfl, h.bootRom⟩
  | entropyHealthFail => exact ⟨_, rfl, h.entropyFail⟩
  | imageStreamComplete => exact ⟨_, rfl, h.streamDone⟩
  | supervisorReady => exact ⟨_, rfl, h.supReady⟩
  | supervisorReadyTimeout => exact ⟨_, rfl, h.supTimeout⟩
  | setEndpointId => exact ⟨_, rfl, h.setEid⟩
  | getEndpointId => exact ⟨_, rfl, h.getEid⟩
  | getMctpVersionSupport => exact ⟨_, rfl, h.getMctpVersion⟩
  | getMessageTypeSupport => exact ⟨_, rfl, h.getMsgTypes⟩
  | getVersion => exact ⟨_, rfl, h.spdmServe (fun h => h.spdmVersion)⟩
  | getCapabilities => exact ⟨_, rfl, h.spdmServe (fun h => h.spdmCaps)⟩
  | negotiateAlgorithms => exact ⟨_, rfl, h.spdmServe (fun h => h.spdmAlgs)⟩
  | getDigests => exact ⟨_, rfl, h.spdmServe (fun h => h.spdmDigests)⟩
  | getCertificate => exact ⟨_, rfl, h.spdmServe (fun h => h.spdmCert)⟩
  | challenge => exact ⟨_, rfl, h.spdmServe (fun h => h.spdmChallenge)⟩
  | getMeasurements => exact ⟨_, rfl, h.spdmServe (fun h => h.spdmMeas)⟩
  | ftFenceRequest | ftUnfenceRequest => exact ⟨_, rfl, h.fenceAsk⟩
  | fenceExecute => exact ⟨_, rfl, h.fenceExecute⟩
  | reclaimWalkEnd => exact ⟨_, rfl, h.walkDone⟩
  | unfenceExecute => exact ⟨_, rfl, h.unfenceDone⟩
  | ftEvqBRead => exact ⟨_, rfl, h.upFault⟩
  | corrWindowEnd => exact ⟨_, rfl, upFault (h.foldl fun h => ite h.event h)⟩
  | leaseAcquire => exact ⟨_, rfl, h.leaseWrite h.leaseAcquire⟩
  | leaseRenew => exact ⟨_, rfl, h.leaseWrite h.leaseRenew⟩
  | leaseRelease => exact ⟨_, rfl, h.leaseWrite h.leaseRelease⟩
  | leaseExpire => exact ⟨_, rfl, ite h.leaseRevoke h⟩
  | ftSoftCode => exact ⟨_, rfl, h.event⟩
  | xtSlackLongestRead | qWabMaxRead | qEccLastRead | lEccLastRead => exact ⟨_, rfl, h.clearRead⟩
  | tEccLastRead | mfCarryMaxRead => exact ⟨_, rfl, h.tileRc⟩
  | lFaultRead => exact ⟨_, rfl, ite h h.upCore.clearRead⟩
  | registerWrite => exact ⟨_, rfl, h.registerWrite⟩
  | controlPortLinkTrained => exact ⟨_, rfl, ite h h.wr.wr.wr⟩
  | configurationRequest => exact ⟨_, rfl, h.configure⟩
  | setdasa => exact ⟨_, rfl, ite h h.upPins.upCtl⟩

end State.Keeps

/-- A step keeps what every step keeps of the state that it begins from, the queue in it what is left of it. -/
theorem step_keeps (s n : State) (hn : step s = .next n) : ∃ q, State.Keeps { s with pending := q } n := by
  unfold step at hn
  split at hn
  next =>
    cases hn
    exact ⟨s.pending, (State.Keeps.refl s).clockTick⟩
  next c rest _ =>
    obtain ⟨m, hm, hk⟩ := State.Keeps.exec_next c { s with pending := rest }
    cases hm.symm.trans hn
    exact ⟨rest, hk⟩

/-- Settles O59: memory and register file change through writes and clearings alone, each of which keeps them
canonical. -/
theorem everyStepKeepsTheCanonicalForm : Obligations.EveryStepKeepsTheCanonicalForm :=
  fun s n hw hn => by
    obtain ⟨q, hk⟩ := step_keeps s n hn
    exact hk.wf hw

/-- Settles O60: every arm of the dispatch answers a next state, built by operations that move neither the queue nor
the die. -/
theorem everyCommandCompletes : Obligations.EveryCommandCompletes := fun c s => by
  obtain ⟨n, hn, hk⟩ := State.Keeps.exec_next c s
  exact ⟨n, hn, hk.queue, hk.die⟩

end Sys2Proof.Machine
end

section
/-! Stores of one slot: the address of R111, R112 and R116 in the words of the obligations, what a store's slot does to
the state once it issues, and the bytes that stand in memory after it. -/

-- One lemma is checked after the other, so that the memory that checking takes stays bounded.
set_option Elab.async false

namespace Sys2Proof.Machine

variable (s : State)

/-! ## Addresses -/

/-- The signed value of a word modulo its size is its signed value as a bit vector. -/
theorem sgn_toNat {w : Nat} (x : BitVec w) (hw : 0 < w) : sgn x.toNat w = x.toInt := by
  obtain ⟨n, rfl⟩ : ∃ n, w = n + 1 := ⟨w - 1, by omega⟩
  have hx := x.isLt
  have h2 : 2 ^ (n + 1) = 2 * 2 ^ n := Nat.pow_succ'
  have hmod : (x.toNat : Int) % 2 ^ (n + 1) = x.toNat := Int.emod_eq_of_lt (by omega) (by exact_mod_cast hx)
  unfold sgn
  rw [BitVec.toInt_eq_toNat_cond, Nat.mod_eq_of_lt hx, hmod, Nat.add_sub_cancel]
  by_cases h : x.toNat < 2 ^ n
  · rw [if_pos h, if_pos (by omega)]
  · rw [if_neg h, if_neg (by omega)]; push_cast; rfl

/-- The address of base, offset and access size n, computed in 32 bits, is the wrapped integer sum (R116). -/
theorem w32_add_sgn_mul {w : Nat} (b n : Nat) (off : BitVec w) (h0 : 0 < w) :
    w32 ((b : Int) + sgn off.toNat w * (n : Int))
      = (BitVec.ofNat 32 b + BitVec.ofNat 32 n * off.signExtend 32).toNat := by
  have h : BitVec.ofInt 32 ((b : Int) + off.toInt * n) = BitVec.ofNat 32 b + BitVec.ofNat 32 n * off.signExtend 32 := by
    rw [BitVec.ofInt_add, BitVec.ofInt_mul, BitVec.mul_comm, BitVec.signExtend]
    simp
  rw [sgn_toNat off h0, ← h, BitVec.toNat_ofInt]
  rfl

/-! ## Bytes -/

@[simp] theorem leBytes_length (v n : Nat) : (leBytes v n).length = n := by
  induction n generalizing v with
  | zero => rfl
  | succ n ih => simp [leBytes, ih]

/-- Byte i of a little-endian value (R8). -/
theorem leBytes_getElem (v n i : Nat) (h : i < (leBytes v n).length) :
    (leBytes v n)[i] = BitVec.ofNat 8 (v / 256 ^ i) := by
  induction n generalizing v i with
  | zero => simp at h
  | succ n ih =>
    cases i with
    | zero => simp [leBytes]
    | succ i => simp only [leBytes, List.getElem_cons_succ, ih, Nat.div_div_eq_div_mul, Nat.pow_succ']

@[simp] theorem State.setBytes_rf (l : List Byte) (a : Nat) : (s.setBytes a l).rf = s.rf := by
  rw [State.setBytes_eq]
@[simp] theorem State.setBytes_rd (l : List Byte) (a : Nat) (f : Fld) (u i : Nat) :
    (s.setBytes a l).rd f u i = s.rd f u i := by
  unfold State.rd; rw [State.setBytes_rf]
@[simp] theorem State.setBytes_tile (l : List Byte) (a u : Nat) : (s.setBytes a l).tile u = s.tile u := by
  rw [State.setBytes_eq]; rfl

/-! ## The slot -/

/-- An aligned address within scratchpad that lies in no execute slip raises no case for a store (R116). -/
theorem State.storeCase_none (t x n : Nat) (ha : x % n = 0) (hx : x < 0x60000) (he : s.inExec t x n = false) :
    s.storeCase t x n = none := by
  have hc : addrCase x n = none := by
    unfold addrCase
    rw [if_neg (by omega), if_neg (by simp [ha])]
  simp [State.storeCase, hc, he]

/-- The slots that store. -/
theorem State.storeOf_cases {s : State} {t : Nat} {o : SlotOp} {r : Nat × List Byte} (h : s.storeOf t o = some r) :
    (∃ d a i, o = .mem .st d a i) ∨ (∃ d a i, o = .mem .sth d a i) ∨ ∃ d a off, o = .vst d a off := by
  unfold State.storeOf at h
  split at h
  · exact .inl ⟨_, _, _, rfl⟩
  · exact .inr (.inl ⟨_, _, _, rfl⟩)
  · exact .inr (.inr ⟨_, _, _, rfl⟩)
  · cases h

/-- What a store's slot does where its address raises no case: its bytes go to scratchpad. -/
theorem State.runSlot_store (s0 : State) (t addr x : Nat) (o : SlotOp) (bs : List Byte)
    (hst : s0.storeOf t o = some (x, bs)) (hc : s0.storeCase t x bs.length = none) :
    s.runSlot s0 t addr o = s.setBytes (spad t x) bs := by
  obtain ⟨d, a, i, rfl⟩ | ⟨d, a, i, rfl⟩ | ⟨d, a, off, rfl⟩ := State.storeOf_cases hst <;>
  simp [State.runSlot, SlotOp.cls, State.runCompute, State.drawsV, State.eff, hst, hc]

/-- Issuing such a slot: its bytes stand in scratchpad, T_PC moves on, nothing else changes. -/
theorem State.issue_store (t x : Nat) (p : Pred) (o : SlotOp) (bs : List Byte) (h : s.issues t p o)
    (hst : s.storeOf t o = some (x, bs)) (hc : s.storeCase t x bs.length = none) (hwt : s.slotWait t o = none) :
    s.slotIssue t p o = ((s.upTile t fun x => { x with wait := 0, skipBp := false }).setBytes (spad t x) bs).wr
      F.T_PC_ADDR (s.rd F.T_PC_ADDR t + 6) t := by
  obtain ⟨hw, hcalm, hp⟩ := h
  obtain ⟨-, -, -, -, -, -, hstep, hend, -⟩ := id hcalm
  have hcls : o.cls < 2 ∧ o.isCtl = false := by
    obtain ⟨d, a, i, rfl⟩ | ⟨d, a, i, rfl⟩ | ⟨d, a, off, rfl⟩ := State.storeOf_cases hst <;> exact ⟨by simp [SlotOp.cls], rfl⟩
  rw [State.slotIssue_eq, if_pos (s.calm_canIssue t _ hcalm)]
  refine s.tryWord_on t (wordSlot p o) hw hcalm (s.matReserved_plain t _ ?_) (s.ctrlCase_plain t _ _ hcls.2) hp
    ⟨s.matIssueCase_plain t _ ?_, s.waitCase_plain t o (by omega)⟩ (s.reach_plain t _ hw ?_) hwt hcls.2 _
    (State.runSlot_store _ s t _ x o bs hst hc) ?_ (by simpa using hstep)
  · show o.cls ≠ 2; omega
  · show o.cls ≠ 2; omega
  · show o.cls ≠ 3; omega
  · unfold State.endsBody at *
    simpa using hend

/-- What issuing a store of the low size bytes of a value leaves, in the words of the obligations. -/
theorem State.issue_store_done (t x val size : Nat) (p : Pred) (o : SlotOp) (h : s.issues t p o)
    (hst : s.storeOf t o = some (x, leBytes val size)) (ha : x % size = 0) (hx : x < 0x60000)
    (he : s.inExec t x size = false) (hwt : s.slotWait t o = none) :
    let n := s.slotIssue t p o
    wordDone s n t (s.tile t) [] ∧ (∀ i < size, n.byte (spad t x + i) = BitVec.ofNat 8 (val / 256 ^ i)) ∧
      memBut (spad t x) size s n ∧ n = { s with rf := n.rf, tiles := n.tiles, mem := n.mem } := by
  have hc : s.storeCase t x (leBytes val size).length = none := by
    rw [leBytes_length]; exact s.storeCase_none t x size ha hx he
  intro n
  have hn : n = _ := s.issue_store t x p o _ h hst hc hwt
  have htile (u : Nat) : n.tile u = if u = t then { s.tile t with wait := 0, skipBp := false } else s.tile u := by
    rw [hn, State.wr_tile, State.setBytes_tile, State.tile_upTile]
  have hbyte (y : Nat) : n.byte y = if h : spad t x ≤ y ∧ y < spad t x + (leBytes val size).length
      then (leBytes val size)[y - spad t x]'(by omega) else s.byte y := by
    rw [hn, State.wr_byte, State.byte_setBytes]; rfl
  refine ⟨⟨?_, ?_, fun v hv => ?_, fun k hk => ?_⟩, fun i hi => ?_, fun y hy => ?_, ?_⟩
  · rw [hn, State.rd_wr_self]; rfl
  · rw [htile, if_pos rfl]
  · rw [htile, if_neg hv]
  · rw [hn, State.aget_wr, if_neg (by simpa using hk), State.setBytes_rf]; rfl
  · rw [hbyte, dif_pos (by rw [leBytes_length]; omega), leBytes_getElem, Nat.add_sub_cancel_left]
  · rw [hbyte, dif_neg (by rwa [leBytes_length])]
  · rw [hn, State.setBytes_eq]; rfl

/-- Settles O10: each command issues the slot whose store `State.issue_store_done` describes. -/
theorem storesWriteTheirBytesOnly : Obligations.StoresWriteTheirBytesOnly := by
  unfold Obligations.StoresWriteTheirBytesOnly
  intro s t p d a vd va imm off x y c o val adr size hmem hi ha hx he hwt
  suffices h : exec c s = .next (s.slotIssue t p o) ∧ s.storeOf t o = some (adr.toNat, leBytes val size) from
    ⟨_, h.1, s.issue_store_done t adr.toNat val size p o hi h.2 ha hx he hwt⟩
  simp only [List.mem_cons, Prod.mk.injEq, List.not_mem_nil, or_false] at hmem
  obtain ⟨rfl, rfl, rfl, rfl, rfl⟩ | ⟨rfl, rfl, rfl, rfl, rfl⟩ | ⟨rfl, rfl, rfl, rfl, rfl⟩ := hmem
  · exact ⟨rfl, congrArg (fun a => some (a, _)) (w32_add_sgn_mul _ 4 imm (by decide))⟩
  · exact ⟨rfl, congrArg (fun a => some (a, _)) (w32_add_sgn_mul _ 2 imm (by decide))⟩
  · exact ⟨rfl, congrArg (fun a => some (a, _)) (w32_add_sgn_mul _ 64 off (by decide))⟩

end Sys2Proof.Machine
end

section
/-! Register accesses (R9, R10): what a read that clears, a read and a write do at an offset where one register stands,
and the way of a landing supervisor's write to a plain device register and of the host's write to CP_EVENTS. -/

-- One lemma is checked after the other, so that the memory that checking takes stays bounded.
set_option Elab.async false

namespace Sys2Proof.Machine

variable (s : State)

/-! ## One register at an offset -/

/-- The fields of the registers that an eight-byte access meets, with index and place. -/
def hitFields (blk : Blk) (off : Nat) : List (List Fld × Nat × Int) := (hitRows blk off).map fun h => (h.1.fields, h.2)

/-- A read that clears, where it meets one register: its RC fields are written 0. -/
theorem State.clearRead_of_hit {blk : Blk} {off : Nat} {fs : List Fld} (u : Nat) (h : hitFields blk off = [(fs, 0, 0)]) :
    s.clearRead blk u off = fs.foldl (fun s f => if f.acc == .rc then s.wr f 0 u else s) s := by
  have hm : s.clearRead blk u off = (hitFields blk off).foldl (fun s h =>
      h.1.foldl (fun s f => if f.acc == .rc then s.wr f 0 u h.2.1 else s) s) s := by rw [hitFields, List.foldl_map]; rfl
  rw [hm, h]; rfl

/-- A write, where it meets one register outside the tiles: each of its fields is written. -/
theorem State.write8_of_hit {blk : Blk} {off : Nat} {fs : List Fld} (u v : Nat) (hb : blk ≠ .tile)
    (h : hitFields blk off = [(fs, 0, 0)]) :
    s.write8 blk u off v = fs.foldl (fun s f => s.writeField f u 0 v (0 + f.lo)) s := by
  have hm : s.write8 blk u off v = (hitFields blk off).foldl (fun s h =>
      h.1.foldl (fun s f => s.writeField f u h.2.1 v (h.2.2 + f.lo)) s) s := by
    rw [hitFields, List.foldl_map]; simp [State.write8, hb]
  rw [hm, h]; rfl

/-- A read, where it meets one register outside the tiles whose fields all hold their own value, gives that register. -/
theorem State.read8_of_hit {blk : Blk} {off : Nat} {fs : List Fld} (u : Nat) (hb : blk ≠ .tile)
    (h : hitFields blk off = [(fs, 0, 0)])
    (hf : ∀ f ∈ fs, f.acc ≠ .wo ∧ f.lo + f.width ≤ 64 ∧ s.rdField f u 0 = s.rd f u) :
    s.read8 blk u off = s.reg fs u := by
  have hm : s.read8 blk u off = (hitFields blk off).foldl (fun v h =>
      h.1.foldl (fun v f => if f.acc == .wo then v else v ||| shiftBy (s.rdField f u h.2.1) (h.2.2 + f.lo) % 2 ^ 64) v) 0 := by
    rw [hitFields, List.foldl_map]; simp [State.read8, hb]
  rw [hm, h]
  show fs.foldl _ 0 = fs.foldl _ 0
  refine List.foldl_rel (r := Eq) rfl fun f hfs v _ hv => hv ▸ ?_
  obtain ⟨hacc, hw, hrd⟩ := hf f hfs
  have hlt : s.rd f u <<< f.lo < 2 ^ 64 := by
    rw [Nat.shiftLeft_eq]
    calc s.rd f u * 2 ^ f.lo < 2 ^ f.width * 2 ^ f.lo :=
        Nat.mul_lt_mul_of_pos_right (s.rd_lt f u 0) (Nat.two_pow_pos _)
      _ = 2 ^ (f.lo + f.width) := by rw [← Nat.pow_add, Nat.add_comm]
      _ ≤ 2 ^ 64 := Nat.pow_le_pow_right (by decide) hw
  have hsh : shiftBy (s.rd f u) (0 + f.lo) % 2 ^ 64 = s.rd f u <<< f.lo := by
    rw [shiftBy, if_pos (by omega), Int.zero_add, Int.toNat_natCast, Nat.mod_eq_of_lt hlt]
  simp only [hrd, hsh, beq_eq_false_iff_ne.2 hacc, Bool.false_eq_true, if_false]

/-! ## Reads that clear -/

theorem State.clearRead_XT_SLACK_LONGEST : s.clearRead .dev 0 0x2048 = s.wr F.XT_SLACK_LONGEST_TC 0 :=
  s.clearRead_of_hit (fs := [F.XT_SLACK_LONGEST_TC]) 0 (by decide +kernel)

theorem State.clearRead_T_ECC_LAST (t : Nat) : s.clearRead .tile t 0x86A10 = s.wr F.T_ECC_LAST_VALID 0 t :=
  s.clearRead_of_hit (fs := [F.T_ECC_LAST_OFFSET, F.T_ECC_LAST_SYNDROME, F.T_ECC_LAST_UNCORR, F.T_ECC_LAST_READER,
    F.T_ECC_LAST_VALID]) t (by decide +kernel)

theorem State.clearRead_MF_CARRY_MAX (t : Nat) : s.clearRead .tile t 0x86B10 = s.wr F.MF_CARRY_MAX_COUNT 0 t :=
  s.clearRead_of_hit (fs := [F.MF_CARRY_MAX_COUNT]) t (by decide +kernel)

theorem State.clearRead_Q_WAB_MAX (q : Nat) :
    s.clearRead .quay q 0x58 = (s.wr F.Q_WAB_MAX_BLOCKS 0 q).wr F.Q_WAB_MAX_FULL 0 q :=
  s.clearRead_of_hit (fs := [F.Q_WAB_MAX_BLOCKS, F.Q_WAB_MAX_FULL]) q (by decide +kernel)

theorem State.clearRead_Q_ECC_LAST (q : Nat) : s.clearRead .quay q 0x70 = s.wr F.Q_ECC_LAST_VALID 0 q :=
  s.clearRead_of_hit (fs := [F.Q_ECC_LAST_BLOCK, F.Q_ECC_LAST_UNCORR, F.Q_ECC_LAST_READER, F.Q_ECC_LAST_VALID,
    F.Q_ECC_LAST_SYNDROME]) q (by decide +kernel)

theorem State.clearRead_L_ECC_LAST : s.clearRead .cluster 0 0x40 = s.wr F.L_ECC_LAST_VALID 0 :=
  s.clearRead_of_hit (fs := [F.L_ECC_LAST_LINE, F.L_ECC_LAST_LOCKED, F.L_ECC_LAST_VALID]) 0 (by decide +kernel)

/-- The fields of L_FAULT (R361). -/
def faultFields : List Fld :=
  [F.L_FAULT_CODE, F.L_FAULT_TASK, F.L_FAULT_SUPER, F.L_FAULT_MORE, F.L_FAULT_DETAIL, F.L_FAULT_VALID]

theorem hitFields_L_FAULT : hitFields .core 8 = [(faultFields, 0, 0)] := by decide +kernel

theorem State.clearRead_L_FAULT (c : Nat) : s.clearRead .core c 8 = s.wr F.L_FAULT_VALID 0 c :=
  s.clearRead_of_hit c hitFields_L_FAULT

theorem State.read8_L_FAULT (c : Nat) : s.read8 .core c 8 = s.reg faultFields c := by
  refine s.read8_of_hit c (by decide) hitFields_L_FAULT ?_
  simp only [faultFields, List.forall_mem_cons, List.not_mem_nil, false_implies, implies_true, and_true]
  and_intros <;> first | decide | rfl

/-- One field cleared: it reads 0, and no other register field and nothing else of the state has changed. -/
theorem State.wr_zero_clears (f : Fld) (u : Nat) :
    (s.wr f 0 u).rd f u = 0 ∧ regsBut [f.key u 0] s (s.wr f 0 u) ∧ s.wr f 0 u = { s with rf := (s.wr f 0 u).rf } := by
  refine ⟨by simp, fun k hk => ?_, rfl⟩
  rw [State.aget_wr, if_neg (by simpa using hk)]

/-! ## Writes of a device register -/

theorem leVal_leBytes (v n : Nat) : leVal (leBytes v n) = v % 256 ^ n := by
  induction n generalizing v with
  | zero => simp [leBytes, leVal, Nat.mod_one]
  | succ n ih => rw [leBytes, leVal, ih, show 256 ^ (n + 1) = 256 * 256 ^ n from Nat.pow_succ', Nat.mod_mul, BitVec.toNat_ofNat]

/-- A device register below 0x3000 has no effect of its own: a supervisor's write of eight bytes is a write of its
fields. -/
theorem State.devWrite_plain (c o v : Nat) (ho : o < 0x3000) : s.devWrite c true o v = (s.write8 .dev 0 o v, 0) := by
  unfold State.devWrite
  rw [if_neg (by simp)]
  repeat rw [if_neg (by omega)]

theorem regWidth_plain (o : Nat) (ho : o < 0x3000) : regWidth (0x380000000000 + o) = 8 := by
  simp only [regWidth]
  rw [if_neg (by omega), if_neg (by omega), if_neg (by omega)]

theorem blkOf_plain (o : Nat) (ho : o < 0x3000) : blkOf (0x380000000000 + o) = some (.dev, 0, o) := by
  simp only [blkOf]
  rw [if_neg (by omega), if_neg (by omega), if_neg (by omega), if_pos (by omega), if_neg (by omega), if_neg (by omega),
    if_neg (by omega), Nat.add_sub_cancel_left]

/-- A register write of a supervisor at such an offset is refused by nothing (R340, R349). -/
theorem State.regPut_plain (c o virt : Nat) (d : List Byte) (hd : d.length = 8) (ho : o < 0x3000) :
    s.regPut c true .dev 0 o virt d = s.write8 .dev 0 o (leVal d) := by
  have hr : s.regRefused c true .dev 0 o = 0 := by simp [State.regRefused]
  have hs : regSize .dev o 8 = true := by
    unfold regSize
    rw [if_neg (by simp; omega), if_neg (by simp)]; rfl
  have hch : chunks8 (8 / 8) d = [leVal d] := by
    show [leVal (d.take 8)] = _
    rw [List.take_of_length_le (by omega)]
  simp only [State.regPut, hr, hd, hs, hch, State.regWrites, State.regWrite8, s.devWrite_plain c o _ ho]
  simp

/-- The device registers lie outside memory, tile windows and landing SRAM (R70, R341). -/
theorem State.coreReach_plain (core : CoreId) (o virt : Nat) (d : List Byte) (hd : d.length = 8) (ho : o < 0x3000) :
    s.coreReach core (.super core) (0x380000000000 + o) virt 8 (some d) .ok = s.write8 .dev 0 o (leVal d) := by
  have hl : s.rd F.L_CFG_LSRAM < 32 := s.rd_lt F.L_CFG_LSRAM 0 0
  unfold State.coreReach
  rw [if_neg (by omega), if_neg (by omega), if_neg (by unfold sramBase; omega), blkOf_plain o ho]
  exact s.regPut_plain core o virt d hd ho

/-- A ready core in supervisor mode that writes such a register (R339, R349). -/
theorem State.registerWrite_plain (core : CoreId) (o v : Nat) (hc : s.coreReady core = true) (ho : o < 0x3000)
    (h8 : o % 8 = 0) :
    s.registerWrite (.super core) (0x380000000000 + o) v = (s.asWho (.super core)).write8 .dev 0 o (v % 2 ^ 64) := by
  have hval : leVal (leBytes (leVal (leBytes v 32)) 8) = v % 2 ^ 64 := by
    rw [leVal_leBytes, leVal_leBytes, ← Nat.pow_mul 2 8 8, ← Nat.pow_mul 2 8 32,
      Nat.mod_mod_of_dvd _ (Nat.pow_dvd_pow 2 (by decide))]
  have hsize : (!coreSizes.contains 8 || (0x380000000000 + o) % 8 != 0) = false := by
    rw [show (0x380000000000 + o) % 8 = 0 by omega]; rfl
  simp only [State.registerWrite, Nat.mod_eq_of_lt (show 0x380000000000 + o < 2 ^ 48 by omega), regWidth_plain o ho,
    State.coreAccess, coreOf, hc, State.translate, hsize, Bool.not_true, Bool.false_eq_true, if_false, if_true]
  rw [State.coreReach_plain _ core o _ _ (leBytes_length _ 8) ho, hval]

/-- An RW field of 32 bits takes the low 32 bits written. -/
theorem State.write8_XT_SLACK_LIMIT (v : Nat) : s.write8 .dev 0 0x2010 v = s.wr F.XT_SLACK_LIMIT_LIMIT v := by
  rw [s.write8_of_hit (fs := [F.XT_SLACK_LIMIT_LIMIT]) 0 v (by decide) (by decide +kernel)]
  let old := s.rd F.XT_SLACK_LIMIT_LIMIT
  show s.wr F.XT_SLACK_LIMIT_LIMIT ((old - (old &&& 2 ^ 32 - 1) ||| (v % 2 ^ 32 &&& 2 ^ 32 - 1)) / 1 * 1) = _
  have hold : old % 2 ^ 32 = old := Nat.mod_eq_of_lt (s.rd_lt F.XT_SLACK_LIMIT_LIMIT 0 0)
  have hnew : v % 2 ^ 32 % 2 ^ F.XT_SLACK_LIMIT_LIMIT.width = v % 2 ^ F.XT_SLACK_LIMIT_LIMIT.width := Nat.mod_mod ..
  rw [Nat.and_two_pow_sub_one_eq_mod, Nat.and_two_pow_sub_one_eq_mod, hold, Nat.sub_self, Nat.zero_or, Nat.mod_mod,
    Nat.div_one, Nat.mul_one, State.wr, State.wr, hnew]

theorem State.write8_XT_SLACK_TOTAL (v : Nat) : s.write8 .dev 0 0x2018 v = s :=
  s.write8_of_hit (fs := [F.XT_SLACK_TOTAL_TC]) 0 v (by decide) (by decide +kernel)

/-! ## The host's write of CP_EVENTS -/

/-- The fields of CP_EVENTS (R487). -/
def cpEventFields : List Fld :=
  [F.CP_EVENTS_DONE, F.CP_EVENTS_STATE, F.CP_EVENTS_FAULT, F.CP_EVENTS_GRANT, F.CP_EVENTS_REJECT]

/-- One field's bits written 1 are cleared. -/
def State.w1c (s : State) (v : Nat) (f : Fld) : State := s.wr f (s.rd f - (s.rd f &&& (v >>> f.lo) % 2 ^ f.width))

theorem State.write8_CP_EVENTS (v : Nat) : s.write8 .bar 0 0x28 v = cpEventFields.foldl (fun s f => s.w1c v f) s :=
  s.write8_of_hit (fs := cpEventFields) 0 v (by decide) (by decide +kernel)

/-- A flag of one bit written at its place: a 1 clears it, a 0 leaves it. -/
theorem State.rd_w1c (f : Fld) (v : Nat) (hf : f.width = 1) :
    (s.w1c v f).rd f = if v.testBit f.lo then 0 else s.rd f := by
  have hold : s.rd f < 2 := by simpa [hf] using s.rd_lt f 0 0
  have hbit : (v >>> f.lo) % 2 = if v.testBit f.lo then 1 else 0 := by
    rw [Nat.testBit_eq_decide_div_mod_eq, Nat.shiftRight_eq_div_pow]
    rcases Nat.mod_two_eq_zero_or_one (v / 2 ^ f.lo) with h | h <;> simp [h]
  rw [State.w1c, State.rd_wr_self, hf, Nat.pow_one, hbit]
  split
  · rw [Nat.and_one_is_mod, Nat.mod_eq_of_lt hold, Nat.sub_self]
  · rw [Nat.and_zero, Nat.sub_zero, Nat.mod_eq_of_lt hold]

/-- Clearing bits of fields leaves every other field alone. -/
theorem State.aget_foldl_w1c (v k : Nat) (fs : List Fld) (hk : k ∉ fs.map (·.key 0 0)) :
    aget 0 (fs.foldl (fun s f => s.w1c v f) s).rf k = aget 0 s.rf k := by
  induction fs generalizing s with
  | nil => rfl
  | cons f fs ih =>
    rw [List.map_cons, List.mem_cons, not_or] at hk
    rw [List.foldl_cons, ih _ hk.2, State.w1c, State.aget_wr, if_neg hk.1]

/-- Of flags with keys of their own, each is cleared by its bit. -/
theorem State.rd_foldl_w1c (v : Nat) (f : Fld) (fs : List Fld) (hk : (fs.map (·.key 0 0)).Nodup) (hw : f.width = 1)
    (hf : f ∈ fs) : (fs.foldl (fun s f => s.w1c v f) s).rd f = if v.testBit f.lo then 0 else s.rd f := by
  induction fs generalizing s with
  | nil => cases hf
  | cons h fs ih =>
    rw [List.map_cons, List.nodup_cons] at hk
    rw [List.foldl_cons]
    rcases List.mem_cons.1 hf with rfl | hf
    · rw [State.rd, State.aget_foldl_w1c _ _ _ _ hk.1]
      exact s.rd_w1c f v hw
    · have hne : f.key 0 0 ≠ h.key 0 0 := fun e => hk.1 (e ▸ List.mem_map_of_mem hf)
      rw [ih _ hk.2 hf, State.w1c, State.rd_wr_ne _ _ _ _ _ _ _ _ hne]

/-- With no message pending, none is sent (R488). -/
theorem State.msixFlush_none (h : s.rd F.MSIX_PEND = 0) : s.msixFlush = s := by
  simp [State.msixFlush, h]

/-- The host's write of CP_EVENTS while BAR0 is reached and no message is pending (R487, R488). -/
theorem State.registerWrite_CP_EVENTS (v : Nat) (hb : s.barUp = true) (hp : s.rd F.MSIX_PEND = 0) :
    s.registerWrite .host 0x28 v = cpEventFields.foldl (fun s f => s.w1c v f) s := by
  have hbar : s.registerWrite .host 0x28 v = (s.write8 .bar 0 0x28 v).msixFlush := by
    simp [State.registerWrite, State.barWrite, hb]
  have hpend : (cpEventFields.foldl (fun s f => s.w1c v f) s).rd F.MSIX_PEND = 0 := by
    rw [State.rd, s.aget_foldl_w1c v _ _ (by decide)]
    exact hp
  rw [hbar, State.write8_CP_EVENTS, State.msixFlush_none _ hpend]

/-! ## The supervisor's mode -/

/-- The register fields of a landing core's mode (R339). -/
def modeKeys (c : Nat) : List Nat := [F.L_STATUS_SUPER.key c 0, F.L_STATUS_TASK.key c 0, F.L_STATUS_RUN.key c 0]

/-- A core that makes an access as supervisor runs in supervisor mode, out of its handler; nothing else has changed. -/
theorem State.asWho_super (core : CoreId) :
    (s.asWho (.super core)).rd F.L_STATUS_SUPER core = 1 ∧
      (s.asWho (.super core)).core core = { s.core core with handler := false } ∧
      (∀ u, u ≠ core.val → (s.asWho (.super core)).core u = s.core u) ∧ regsBut (modeKeys core) s (s.asWho (.super core)) ∧
      s.asWho (.super core) = { s with rf := (s.asWho (.super core)).rf, cores := (s.asWho (.super core)).cores } := by
  refine ⟨?_, ?_, fun u hu => ?_, fun k hk => ?_, rfl⟩
  · exact State.rd_wr_self ..
  · simp [State.asWho]
  · simp [State.asWho, hu]
  · simp only [modeKeys, List.mem_cons, List.not_mem_nil, or_false, not_or] at hk
    simp [State.asWho, State.aget_wr, hk]

/-! ## The obligation -/

/-- A supervisor's write of XT_SLACK_LIMIT stores it. -/
theorem State.registerWrite_XT_SLACK_LIMIT (core : CoreId) (v : Nat) (hc : s.coreReady core = true) :
    s.registerWrite (.super core) 0x380000002010 v
      = (s.asWho (.super core)).wr F.XT_SLACK_LIMIT_LIMIT (v % 2 ^ 64) :=
  (s.registerWrite_plain core 0x2010 v hc (by decide) (by decide)).trans (State.write8_XT_SLACK_LIMIT ..)

/-- A supervisor's write of XT_SLACK_TOTAL stores nothing. -/
theorem State.registerWrite_XT_SLACK_TOTAL (core : CoreId) (v : Nat) (hc : s.coreReady core = true) :
    s.registerWrite (.super core) 0x380000002018 v = s.asWho (.super core) :=
  (s.registerWrite_plain core 0x2018 v hc (by decide) (by decide)).trans (State.write8_XT_SLACK_TOTAL ..)

/-- The fields of a core's mode are none of the slack registers. -/
theorem slack_notMem_modeKeys (c : CoreId) :
    F.XT_SLACK_LIMIT_LIMIT.key 0 0 ∉ modeKeys c ∧ F.XT_SLACK_TOTAL_TC.key 0 0 ∉ modeKeys c := by
  simp only [modeKeys, Fld.key, Blk.base, F.XT_SLACK_LIMIT_LIMIT, F.XT_SLACK_TOTAL_TC, F.L_STATUS_SUPER, F.L_STATUS_TASK,
    F.L_STATUS_RUN, List.mem_cons, List.not_mem_nil, or_false]
  omega

/-- Settles O37: each command comes to one of the accesses above. -/
theorem readsClearAndWritesStore : Obligations.ReadsClearAndWritesStore := by
  unfold Obligations.ReadsClearAndWritesStore
  intro s t q core value mode others
  obtain ⟨hsup, hcore, hcores, hmode, hframe⟩ := s.asWho_super core
  refine ⟨fun c f u h => ?_, ?_, fun hf => ?_, ?_, fun hc => ⟨?_, ?_, ?_⟩, fun hb f hf v hp => ?_⟩
  · suffices hx : exec c s = .next (s.wr f 0 u) from ⟨_, hx, s.wr_zero_clears f u⟩
    simp only [List.mem_cons, Prod.mk.injEq, List.not_mem_nil, or_false] at h
    obtain (⟨rfl, rfl, rfl⟩ | ⟨rfl, rfl, rfl⟩ | ⟨rfl, rfl, rfl⟩) | ⟨ht, ⟨rfl, rfl, rfl⟩ | ⟨rfl, rfl, rfl⟩⟩ := h
    · exact congrArg Host.Outcome.next s.clearRead_XT_SLACK_LONGEST
    · exact congrArg Host.Outcome.next (s.clearRead_Q_ECC_LAST q)
    · exact congrArg Host.Outcome.next s.clearRead_L_ECC_LAST
    · exact congrArg Host.Outcome.next ((if_neg ht).trans (s.clearRead_T_ECC_LAST t))
    · exact congrArg Host.Outcome.next ((if_neg ht).trans (s.clearRead_MF_CARRY_MAX t))
  · refine ⟨_, congrArg Host.Outcome.next (s.clearRead_Q_WAB_MAX q), ?_, State.rd_wr_self .., fun k hk => ?_, rfl⟩
    · rw [State.rd_wr_ne _ _ _ _ _ _ _ _ (by simp [Fld.key, F.Q_WAB_MAX_BLOCKS, F.Q_WAB_MAX_FULL]), State.rd_wr_self]
      rfl
    · simp only [List.mem_cons, List.not_mem_nil, or_false, not_or] at hk
      simp [State.aget_wr, hk]
  · have hx : exec (.lFaultRead core) s = .next ((s.upCore core fun x =>
        { x with rdata := leBytes (s.reg faultFields core) 8 }).wr F.L_FAULT_VALID 0 core) := by
      show Host.Outcome.next (if s.isFenced 1 core = true then s else _) = _
      rw [if_neg (by simp [hf]), State.clearRead_L_FAULT, State.read8_L_FAULT]
    refine ⟨_, hx, State.rd_wr_self .., ?_, fun u hu => ?_, fun k hk => ?_, rfl⟩
    · simp [faultFields]
    · simp [hu]
    · rw [State.aget_wr, if_neg (by simpa using hk)]; rfl
  · show Host.Outcome.next (s.upFault fun x => { x with events := x.events.drop 1 }) = _
    simp [State.upFault]
  · have hx : exec (.lRngDataRead core) s = .next (s.drawn.upCore core fun x =>
        { x with rdata := leBytes (Config.rng s.free).toNat 8 }) :=
      congrArg Host.Outcome.next (if_neg (by simp [hc]))
    exact ⟨_, hx, fun u hu => by simp [hu], by simp, rfl⟩
  · refine ⟨_, congrArg Host.Outcome.next (s.registerWrite_XT_SLACK_LIMIT core value.toNat hc), ?_, ?_, hcore, hcores,
      fun k hk => ?_, rfl⟩
    · rw [State.rd_wr_self]
      exact Nat.mod_mod_of_dvd _ (Nat.pow_dvd_pow 2 (by decide))
    · rw [State.rd_wr_ne, hsup]
      exact fun e => (slack_notMem_modeKeys core).1 (e ▸ List.mem_cons_self ..)
    · rw [List.mem_cons, not_or] at hk
      rw [State.aget_wr, if_neg hk.1, hmode k hk.2]
  · refine ⟨_, congrArg Host.Outcome.next (s.registerWrite_XT_SLACK_TOTAL core value.toNat hc), ?_, hsup, hcore, hcores,
      hmode, hframe⟩
    rw [State.rd, hmode _ (slack_notMem_modeKeys core).2]; rfl
  · obtain ⟨x, hx⟩ := foldl_rf (fun s f => s.w1c v.toNat f) (fun _ _ => ⟨_, rfl⟩) cpEventFields s
    refine ⟨_, congrArg Host.Outcome.next (s.registerWrite_CP_EVENTS v.toNat hb hp), ?_, fun k hk => ?_, by rw [hx]⟩
    · refine s.rd_foldl_w1c v.toNat f cpEventFields (by decide) ?_ hf
      revert f; decide
    · exact s.aget_foldl_w1c v.toNat k cpEventFields hk

end Sys2Proof.Machine
end
